-- ==== Sys2Proof/Word.lean ====
section
/-! DEFINITION. The word types of the model: what the manual treats as bits (R1, R178). -/
namespace Sys2Proof

/-- One byte of a frame or of the configuration memory (R178, R185). -/
abbrev Byte := BitVec 8

/-- A service day number, 0..65535, wrapping from 65535 to 0 (R27). -/
abbrev Day := BitVec 16

/-- A set of terminus zones 0..63: zone z is bit z (R178: weight 2^(z mod 8) of byte floor(z / 8)). -/
abbrev ZoneSet := BitVec 64

/-- A set of the outputs 0..7: output o is bit o (R185, platform zones). -/
abbrev OutSet := BitVec 8

/-- A service code: its six bytes, the first the most significant; 0 is the blank code (R178). -/
abbrev Code := BitVec 48

/-- A zone output 0..7. -/
abbrev Out := Fin 8

/-- A clip channel 0..5 (R129). -/
abbrev Chan := Fin 6

end Sys2Proof
end

