-- ==== Sys2Proof/Config.lean ====
section
/-! DEFINITION. What the manual fixes for the part without giving its value: opaque constants with no body,
so that no proof can rest on a value of them (assumption log entries 4, 5, 6, 18 and 63). -/
namespace Sys2Proof

/-- FREE VALUE (R150): one sample out of the output shaping stage. The manual names eight factory-fixed
curves and does not give them. `use` numbers the uses of the stage, `curve` is the curve in force,
`index` the sample's place in its block and `block` the block's samples (log entry 4). -/
opaque Config.shapeSample (use curve index : Nat) (block : List Int) : Int

/-- FREE VALUE (R182): how many milliseconds a frame with this many payload bytes takes on the link. The
manual gives no bit rate (log entry 5). -/
opaque Config.frameMs (payloadBytes : Nat) : Nat

/-- FREE VALUE (R2, R6): the train category, taken modulo 8, that a record holds for a category byte above 7
(log entry 6). -/
opaque Config.categoryBeyond (carried : Nat) : Nat

/-- FREE VALUE (R2, R6): the operator, taken modulo 16, that a record holds for an operator byte above 15
(log entry 6). -/
opaque Config.operatorBeyond (carried : Nat) : Nat

/-- FREE VALUE (R141): one sample that the microphone of a sense input hears, by its number among the samples of
that input. What a microphone hears comes from outside (log entry 18). -/
opaque Config.senseSample (input index : Nat) : Int

/-- FREE VALUE (R193, R198): a byte, taken modulo 256, that a QUERY_FAULT reply carries after the index byte of an
invalid record, by the record's index and the byte's place (log entry 63). -/
opaque Config.invalidRecordByte (index place : Nat) : Nat

end Sys2Proof
end

