-- ==== Sys2Proof/Syntax.lean ====
section
/-! DEFINITION. The commands of the part: one constructor of `Instr` for each row of spec/opcode_table.json,
with the operands the chapters give it. A received frame is carried field by field (R183); a maintenance
request carries its argument bytes as they arrived, since their length and range are tested by R197. -/
namespace Sys2Proof

/-- The addressing of a frame: source and destination address bytes (R178). -/
structure Envelope where
  src : Nat
  dst : Nat
  deriving DecidableEq, Repr

/-- An announcement id: origin station address and sequence number (R1). -/
structure AnnId where
  origin : Nat
  seq : Nat
  deriving DecidableEq, Repr

/-- The library header read from block 0 of the phrase store (R125). -/
structure LibHeader where
  version : Nat
  size : Nat
  deriving DecidableEq, Repr

/-- A directory entry of the phrase store (R126); a block count of 0 means 65536. -/
structure DirEntry where
  present : Bool
  start : Nat
  count : Nat
  loopStart : Nat
  loopLen : Nat
  deriving DecidableEq, Repr

/-- A supervision word as it arrives on a sense input, with the outcome of its word check (R155). -/
structure SupWord where
  checkOk : Bool
  impedance : Nat
  leakage : Nat
  deriving DecidableEq, Repr

/-- The payload of a BEACON (R183). -/
structure BeaconFrame where
  timeCapable : Bool
  evacActive : Bool
  faultPending : Bool
  loadState : Nat
  day : Day
  time : Nat
  libVersion : Nat
  zones : ZoneSet
  deriving DecidableEq, Repr

/-- The fields of a CALL_SET from booked time to the calling points, which a complete CALL_PLATFORM
carries too (R183). A coach count of 0 and a blank forms code stand for absent. -/
structure CallFields where
  booked : Int
  delay : Int
  category : Nat
  operator : Nat
  place : Nat
  coaches : Nat
  forms : Code
  points : List Nat
  deriving DecidableEq, Repr

/-- What every timetable frame carries: service code, kind byte and service day (R183). -/
structure CallKeyFields where
  code : Code
  kind : Nat
  day : Day
  deriving DecidableEq, Repr

/-- The payload of a CALL_SET (R183). -/
structure CallSetFrame where
  key : CallKeyFields
  alteration : Bool
  platform : Nat
  fields : CallFields
  deriving DecidableEq, Repr

/-- The payload of a CALL_DELAY (R183). -/
structure CallDelayFrame where
  key : CallKeyFields
  delay : Int
  deriving DecidableEq, Repr

/-- The payload of a CALL_PLATFORM; the fields are present when its completeness flag is set (R183). -/
structure CallPlatformFrame where
  key : CallKeyFields
  platform : Nat
  complete : Option CallFields
  deriving DecidableEq, Repr

/-- A segment as an ANNOUNCE carries it: kind byte, phrase id and argument byte (R183). -/
structure RawSegment where
  kind : Nat
  phrase : Nat
  arg : Nat
  deriving DecidableEq, Repr

/-- The payload of an ANNOUNCE (R183). -/
structure AnnounceFrame where
  origin : Nat
  seq : Nat
  cls : Nat
  libVersion : Nat
  codePresent : Bool
  syncPresent : Bool
  mustSync : Bool
  code : Code
  zones : ZoneSet
  expiryDay : Day
  expiryTime : Nat
  syncDay : Day
  syncTime : Nat
  segs : List RawSegment
  deriving DecidableEq, Repr

/-- One entry of a ZONE_REPORT: zone id, outcome code and detail byte (R183). -/
structure ReportItem where
  zone : Nat
  outcome : Nat
  detail : Nat
  deriving DecidableEq, Repr

/-- The payload of a ZONE_REPORT (R183). -/
structure ZoneReportFrame where
  origin : Nat
  seq : Nat
  items : List ReportItem
  deriving DecidableEq, Repr

/-- The payload of a WITHDRAW (R183). -/
structure WithdrawFrame where
  granularity : Nat
  origin : Nat
  seq : Nat
  code : Code
  zones : ZoneSet
  threshold : Nat
  deriving DecidableEq, Repr

/-- The payload of a WITHDRAW_DONE (R183). -/
structure WithdrawDoneFrame where
  requested : Nat
  performed : Nat
  origin : Nat
  seq : Nat
  code : Code
  zones : ZoneSet
  threshold : Nat
  removed : Nat
  deriving DecidableEq, Repr

/-- The payload of a FAULT_NOTICE (R183). -/
structure FaultNoticeFrame where
  index : Nat
  kind : Nat
  source : Nat
  day : Day
  time : Nat
  deriving DecidableEq, Repr

/-- The payload of a received MAINT_REPLY (R183). -/
structure MaintReplyFrame where
  code : Nat
  tag : Nat
  result : Nat
  reason : Nat
  content : List Byte
  deriving DecidableEq, Repr

/-- The addressing and tag of a MAINT_REQUEST (R197). -/
structure MaintHead where
  env : Envelope
  tag : Nat
  deriving DecidableEq, Repr

/-- The two groups of berth inputs (R18). -/
inductive BerthLine where
  | occupancy
  | approach
  deriving DecidableEq, Repr

/-- The commands: one constructor for each row of spec/opcode_table.json, in the table's order. -/
inductive Instr where
  | powerOnReset
  | headerReadComplete (result : Option LibHeader)
  | headerReadTimeout
  | configReadComplete (result : Option (List Byte))
  | configLoadTimeout
  | frameDiscard (raw : List Byte)
  | beacon (env : Envelope) (frame : BeaconFrame)
  | callSet (env : Envelope) (frame : CallSetFrame)
  | callDelay (env : Envelope) (frame : CallDelayFrame)
  | callPlatform (env : Envelope) (frame : CallPlatformFrame)
  | callCancel (env : Envelope) (frame : CallKeyFields)
  | announce (env : Envelope) (frame : AnnounceFrame)
  | zoneReport (env : Envelope) (frame : ZoneReportFrame)
  | withdraw (env : Envelope) (frame : WithdrawFrame)
  | withdrawDone (env : Envelope) (frame : WithdrawDoneFrame)
  | queryCall (head : MaintHead) (args : List Byte)
  | queryZone (head : MaintHead) (args : List Byte)
  | queryFault (head : MaintHead) (args : List Byte)
  | querySurvey (head : MaintHead) (args : List Byte)
  | queryCounters (head : MaintHead) (args : List Byte)
  | clearFault (head : MaintHead) (args : List Byte)
  | surveyStart (head : MaintHead) (args : List Byte)
  | surveyAbort (head : MaintHead) (args : List Byte)
  | limitSet (head : MaintHead) (args : List Byte)
  | limitLock (head : MaintHead) (args : List Byte)
  | restart (head : MaintHead) (args : List Byte)
  | maintRequestUnknown (head : MaintHead) (code : Nat) (args : List Byte)
  | linkFrameBegin
  | transmitGapReached (idle : Nat)
  | frameSent
  | beaconDue
  | stationDayEnd
  | wholeSecond
  | heardEntryExpire (address : Fin 31)
  | holdoverTimeout
  | quietHoursChange
  | ownerEntryExpire (zone : Fin 64)
  | berthInputChange (line : BerthLine) (input : Fin 8) (level : Bool)
  | approachAssert (input : Fin 8)
  | approachClear (input : Fin 8)
  | occupancyAssert (input : Fin 8)
  | occupancyClear (input : Fin 8)
  | retireSecond
  | syncStartReached (id : AnnId)
  | blockReadComplete (result : Option (List Int))
  | directoryReadComplete (result : Option DirEntry)
  | channelStart (channel : Chan)
  | channelBlockAdvance (channel : Chan)
  | passEnd (channel : Chan)
  | stopPointReached (channel : Chan)
  | expiryReached (id : AnnId)
  | syncWindowClose (id : AnnId)
  | reportDeadline (id : AnnId)
  | originationExpire (id : AnnId)
  | windowEnd (sums : Vector Nat 8)
  | supervisionWord (output : Out) (word : SupWord)
  | supervisionCycleEnd
  | autoSurveyRetry (output : Out)
  | probeChannelTimeout (output : Out)
  | evacInputChange (level : Bool)
  | evacAssert
  | evacRelease
  | faultNoticeReceived (env : Envelope) (frame : FaultNoticeFrame)
  | maintReplyReceived (env : Envelope) (frame : MaintReplyFrame)
  deriving DecidableEq, Repr

end Sys2Proof
end

