-- ==== Sys2Proof/Decode.lean ====
section
/-! DEFINITION. The table's words: spec/opcode_table.json gives no bits to any row, so no word spells a command. The
frames that carry commands are read in Sys2Proof/Machine/Wire.lean. -/
namespace Sys2Proof

/-- The command that a word spells by the table's bits: none, since no row of the table has any (log entry 1). -/
def decodeTableWord (_nbits _w : Nat) : Option Instr := none

end Sys2Proof
end

