-- ==== Sys2Proof/Machine/State.lean ====
section
/-! DEFINITION. The state of the TZ-620, block by block, as plain data, with the reasons a step can stop and
the state after power-on reset. -/
namespace Sys2Proof.Machine

/-- No command of this part stops with a fault: the manual gives every command an effect in every state
(NOTES.md, Stops). The type is closed and has no constructor. -/
inductive Fault : Type
  deriving DecidableEq, Repr

/-- Why a step has no meaning. -/
inductive Refusal where
  /-- raised by `exec`'s arms alone, for a command that has no meaning yet; safe. No arm raises it. -/
  | notModelled (mnemonic : String)
  deriving DecidableEq, Repr

/-! ### Names of the manual -/

/-- The load states (R188). -/
inductive LoadState where
  | loading
  | running
  | unconfigured
  deriving DecidableEq, Repr

/-- The clock states (R27). -/
inductive ClockState where
  | unset
  | locked
  | holdover
  deriving DecidableEq, Repr

/-- The kinds of call (R2). -/
inductive CallKind where
  | arr
  | dep
  deriving DecidableEq, Repr

/-- The states of a call (R2). -/
inductive CallState where
  | booked
  | approaching
  | atPlatform
  | departed
  | complete
  | cancelled
  deriving DecidableEq, Repr

/-- The call events (R39), in the order of their codes. -/
inductive CallEvent where
  | created
  | approaching
  | atPlatform
  | departed
  | complete
  | cancelled
  | platformChanged
  | alteredAway
  | delayed
  deriving DecidableEq, Repr

/-- The classes of announcement, most urgent first (R1). -/
inductive AnnClass where
  | evac
  | alert
  | service
  | info
  deriving DecidableEq, Repr

/-- The drop reasons (R183). -/
inductive DropReason where
  | withdrawn
  | expired
  | preempted
  | queueFull
  | noBody
  | displaced
  | zoneFault
  | syncMissed
  | libraryMismatch
  | callEnded
  | evacActive
  | restart
  | notOwned
  deriving DecidableEq, Repr

/-- The fault kinds (R183). -/
inductive FaultKind where
  | lineShort
  | lineOpen
  | lineLeak
  | supervisionLost
  | underrun
  | phraseMissing
  | templateOverflow
  | reservedPhrase
  | callTableFull
  | platformUnexpected
  | timeHoldover
  | timeStep
  | peerSilent
  | zoneOwnerConflict
  | originationFull
  | libraryMismatch
  | configInvalid
  deriving DecidableEq, Repr

/-- The load failure causes (R186). -/
inductive LoadFailure where
  | unreadable
  | badLength
  | badFormat
  | badCheck
  | badAddress
  deriving DecidableEq, Repr

/-- An instant: a service day number and a station time (R92). -/
structure Instant where
  day : Day
  time : Nat
  deriving DecidableEq, Repr

/-! ### Call Table (R2, R3, R18, R26) -/

/-- A call record (R2). The fired set has bit k set when trigger k has fired (R39). -/
structure CallRec where
  code : Code
  kind : CallKind
  platform : Nat
  booked : Int
  delay : Int
  expected : Int
  qualified : Int
  category : Nat
  operator : Nat
  place : Nat
  points : List Nat
  coaches : Option Nat
  forms : Option Code
  state : CallState
  entered : Instant
  hold : Option Nat
  alteredIn : Bool
  epoch : BitVec 8
  fired : BitVec 32
  deriving DecidableEq, Repr

/-- A place of the call table: free, holding a record, or neither free nor held while a record leaves
by ALTERED_AWAY (R3, R14). -/
inductive Place where
  | free
  | held (r : CallRec)
  | leaving (r : CallRec)
  deriving DecidableEq, Repr

/-- One berth input: its raw level, the elapsed time from which it has held that level, and its
debounced level, absent until the first one is taken (R18). -/
structure Debounce where
  raw : Bool
  since : Nat
  level : Option Bool
  deriving DecidableEq, Repr

/-- The counters of the Call Table (R26). -/
structure CtbCounts where
  malformed : Nat
  ignored : Nat
  refused : Nat
  evicted : Nat
  unmatched : Nat
  deriving DecidableEq, Repr

/-- The Call Table (CTB); `seconds` counts elapsed seconds (R22). -/
structure CallTable where
  places : Vector Place 96
  occupancy : Vector Debounce 8
  approach : Vector Debounce 8
  seconds : Nat
  counts : CtbCounts
  deriving DecidableEq, Repr

/-! ### Service Clock (R27) -/

/-- The last source beacon: elapsed time and sender (R27). -/
structure SourceMark where
  elapsed : Nat
  address : Nat
  deriving DecidableEq, Repr

/-- The pending step: sender and offset in milliseconds (R27). -/
structure PendingStep where
  address : Nat
  offset : Int
  deriving DecidableEq, Repr

/-- The Service Clock (SCK). `heard` is indexed by address, index 0 unused. `quiet` is the level of the
quiet-hours signal last reported (R37). `secondDue` and `dayEndDue` say that station time has just reached
a whole second, or the end of the day, and that WHOLE_SECOND or STATION_DAY_END has not been taken yet: they
are the model's own (log entry 3). -/
structure Clock where
  state : ClockState
  time : Nat
  day : Day
  heard : Vector (Option Nat) 31
  selected : Option Nat
  lastSource : Option SourceMark
  pendingStep : Option PendingStep
  quiet : Bool
  secondDue : Bool
  dayEndDue : Bool
  deriving DecidableEq, Repr

/-! ### Trigger Unit (R39, R40, R55); its entries are those of the configuration image in force -/

/-- The Trigger Unit (TGU). -/
structure Triggers where
  hits : Vector Nat 32
  skips : Vector Nat 32
  issued : Nat
  unsetHeld : Nat
  noZone : Nat
  deriving DecidableEq, Repr

/-! ### The configuration image in force (R185, R187) -/

/-- The fields a FIELD element names (R56). -/
inductive CallField where
  | platform
  | timeBooked
  | timeExpected
  | place
  | callingPoints
  | delay
  | coaches
  | operator
  deriving DecidableEq, Repr

/-- The kinds of template element with their arguments (R56). -/
inductive ElementKind where
  | phrase (id : Nat)
  | silence (steps : Nat)
  | chime (id repeats : Nat)
  | toneLoop (id seconds : Nat)
  | field (f : CallField)
  deriving DecidableEq, Repr

/-- What an "only if present" flag names (R56). -/
inductive PresentField where
  | coaches
  | callingPoints
  deriving DecidableEq, Repr

/-- A template element (R56). -/
structure Element where
  kind : ElementKind
  onlyDelayed : Bool
  onlyPresent : Option PresentField
  deriving DecidableEq, Repr

/-- An entry of a zone's candidate table (R162). -/
structure Candidate where
  valid : Bool
  curve : Nat
  deriving DecidableEq, Repr

/-- The survey parameters of a zone (R162). -/
structure SurveyParams where
  start : Nat
  lookBeyond : Nat
  a : Nat
  b : Nat
  c : Nat
  probe : Nat
  gain : Nat
  tref : Nat
  auto : Bool
  autoMinute : Nat
  deriving DecidableEq, Repr

/-- Supervision limits (R154). -/
structure Limits where
  zlow : Nat
  zhigh : Nat
  lmax : Nat
  deriving DecidableEq, Repr

/-- A zone record of the image (R185). -/
structure ZoneCfg where
  output : Out
  zone : Nat
  base : Int
  gmin : Nat
  gmax : Nat
  qcap : Nat
  fallback : Option Out
  noise : Nat
  limits : Limits
  preset : Nat
  params : SurveyParams
  candidates : List Candidate
  deriving DecidableEq, Repr

/-- A platform record of the image (R185). -/
structure PlatformCfg where
  platform : Nat
  zones : OutSet
  occupancy : Fin 8
  approach : Fin 8
  deriving DecidableEq, Repr

/-- The kinds of trigger (R39). -/
inductive TriggerKind where
  | state
  | lead
  deriving DecidableEq, Repr

/-- The call-kind selects of a trigger (R39). -/
inductive KindSelect where
  | arr
  | dep
  | any
  deriving DecidableEq, Repr

/-- A trigger entry (R39); its counters stand in `Triggers`. -/
structure Trigger where
  enabled : Bool
  kind : TriggerKind
  event : Option CallEvent
  lead : Nat
  stale : Nat
  select : KindSelect
  platValue : BitVec 6
  platMask : BitVec 6
  catValue : BitVec 3
  catMask : BitVec 3
  opValue : BitVec 4
  opMask : BitVec 4
  minDelay : Nat
  template : Nat
  cls : AnnClass
  platformZones : Bool
  extra : ZoneSet
  expiry : Nat
  additive : Bool
  sync : Bool
  deriving DecidableEq, Repr

/-- The phrase bases (R56). -/
structure PhraseBases where
  platform : Nat
  hour : Nat
  minute : Nat
  number : Nat
  operator : Nat
  deriving DecidableEq, Repr

/-- The classes of the fault relay (R196). -/
structure Routing where
  line : Bool
  playout : Bool
  calls : Bool
  link : Bool
  config : Bool
  deriving DecidableEq, Repr

/-- An accepted configuration image, brought into range (R185, R187). -/
structure Image where
  format : Nat
  check : Nat
  address : Nat
  dayStart : Nat
  requalify : Nat
  quietStart : Nat
  quietEnd : Nat
  marginEvac : Nat
  marginAlert : Nat
  marginService : Nat
  marginInfo : Nat
  fevac : Nat
  slew : Nat
  bases : PhraseBases
  routing : Routing
  lock : Bool
  zones : List ZoneCfg
  platforms : List PlatformCfg
  templates : List (List Element)
  triggers : List Trigger
  evacList : List Element
  deriving DecidableEq, Repr

/-- What the configuration load has settled (R186). -/
inductive ConfigResult where
  | accepted (image : Image) (clamped : Nat)
  | failed (cause : LoadFailure)
  deriving DecidableEq, Repr

/-- The Configuration Loader (CFL): the load state, what each of the two reads of LOADING has settled, the
image held once RUNNING, and its counts (R188, R189, R192). -/
structure Loader where
  load : LoadState
  config : Option ConfigResult
  headerDone : Bool
  image : Option Image
  clamped : Nat
  restarts : Nat
  deriving DecidableEq, Repr

/-! ### Composition Unit (R57, R66, R67, R74) -/

/-- A segment of a body (R57). -/
inductive Segment where
  | phrase (id : Nat)
  | chime (id repeats : Nat)
  | loop (id seconds : Nat)
  | silence (steps : Nat)
  deriving DecidableEq, Repr

/-- Where an announcement comes from (R66). -/
inductive Origin where
  | own
  | remote (address : Nat)
  | evac
  deriving DecidableEq, Repr

/-- A service key: service code, with the call kind for a LOCAL announcement (R66). -/
structure ServiceKey where
  code : Code
  kind : Option CallKind
  deriving DecidableEq, Repr

/-- A held body (R66). -/
structure Body where
  id : AnnId
  cls : AnnClass
  origin : Origin
  key : Option ServiceKey
  epoch : Option (BitVec 8)
  segs : List Segment
  refs : Nat
  deriving DecidableEq, Repr

/-- The counts of the Composition Unit (R74). -/
structure CmuCounts where
  composed : Nat
  empty : Nat
  noBody : Nat
  displaced : Nat
  truncated : Nat
  remoteCut : Nat
  deriving DecidableEq, Repr

/-- The Composition Unit (CMU). `order` lists the held general slots, oldest allocation first. `inHand` is
the body of the composition or remote allocation being carried out, which R69 does not free at count 0; it
is absent between commands. -/
structure Composition where
  slots : Vector (Option Body) 32
  order : List (Fin 32)
  evacSlot : Option Body
  nextSeq : Nat
  inHand : Option AnnId
  counts : CmuCounts
  deriving DecidableEq, Repr

/-! ### Zone Playout Controller (R75, R77, R104) -/

/-- What holds an entry in STOPPING (R87). `drop` is a drop reason; `restart` says that a soft restart has
reached the entry (R197: a restart is in progress until it is dropped); `atBlock` says that it stops at the
next block boundary and not at the next boundary. -/
structure StopCause where
  drop : Option DropReason
  preempt : Bool
  theft : Bool
  fault : Bool
  evacEnd : Bool
  restart : Bool
  atBlock : Bool
  deriving DecidableEq, Repr

/-- The states of a queue entry; the stop cause is present in STOPPING alone (R77). -/
inductive EntryState where
  | queued
  | starting
  | rendering
  | stopping (cause : StopCause)
  deriving DecidableEq, Repr

/-- A queue entry (R77). Its body is the held body of its id, and its channel is the channel of the Clip
Fetch Unit that serves that id with this output among its members. -/
structure Entry where
  id : AnnId
  cls : AnnClass
  origin : Origin
  key : Option ServiceKey
  epoch : Option (BitVec 8)
  order : Nat
  sync : Option Instant
  mustSync : Bool
  expiry : Option Instant
  allowance : Nat
  state : EntryState
  seg : Nat
  pass : Nat
  stale : Bool
  reported : Nat
  deriving DecidableEq, Repr

/-- The last end or stop of an entry in a zone: its elapsed time and the arrival order of the entry (R83). -/
structure StopMark where
  elapsed : Nat
  order : Nat
  deriving DecidableEq, Repr

/-- One output of the Zone Playout Controller. The zone state of R75 is computed from these fields
(`Zone.state`). `lastStop` marks the entry of the zone that last ended or stopped (R83). -/
structure Zone where
  id : Option Nat
  queue : List Entry
  nextOrder : Nat
  faulted : Bool
  survey : Bool
  lastStop : Option StopMark
  deriving DecidableEq, Repr

/-- The zone states (R75). -/
inductive ZoneState where
  | off
  | idle
  | starting
  | rendering
  | survey
  | faulted
  deriving DecidableEq, Repr

/-- The counts of the Zone Playout Controller (R104). -/
structure ZpcCounts where
  done : Nat
  notOwned : Nat
  queueFull : Nat
  displaced : Nat
  expired : Nat
  preempted : Nat
  withdrawn : Nat
  callEnded : Nat
  zoneFault : Nat
  syncMissed : Nat
  restart : Nat
  deriving DecidableEq, Repr

/-- The Zone Playout Controller (ZPC). -/
structure Playout where
  zones : Vector Zone 8
  counts : ZpcCounts
  deriving DecidableEq, Repr

/-! ### Clip Fetch Unit (R125, R129, R136, R139) -/

/-- What a channel serves (R129). -/
inductive Served where
  | body (id : AnnId)
  | probe (output : Out) (phrase : Nat)
  deriving DecidableEq, Repr

/-- The states of a clip channel (R129). -/
inductive ChanState where
  | free
  | preparing
  | granted
  | playing
  deriving DecidableEq, Repr

/-- What a directory lookup found: the phrase missing, or its entry (R127). -/
inductive Lookup where
  | missing
  | found (entry : DirEntry)
  deriving DecidableEq, Repr

/-- An audio block: zero-valued, or the 256 samples read (R134). -/
inductive Block where
  | zero
  | audio (samples : List Int)
  deriving DecidableEq, Repr

/-- A read of the phrase store asked for by a channel: a phrase's directory entry, in the store block that holds it,
or a block of audio (R125, R131, R134, R135). -/
inductive ReadKind where
  | directory (phrase block : Nat)
  | block (address : Nat)
  deriving DecidableEq, Repr

/-- The read a channel has outstanding: what it reads, the class it was asked for at, and whether the channel
has since stopped serving what asked for it, so that its completion is discarded (R129, R136). -/
structure ChanRead where
  kind : ReadKind
  cls : AnnClass
  discard : Bool
  deriving DecidableEq, Repr

/-- A clip channel (R129). `seg`, `pass` and `blk` are its position. `assigned` numbers its assignment
among all assignments (R133). `mark` is the release mark: the number of the taker's request. `dirWanted` says
that the directory read of R135 has been asked for; `silent` that the channel is inside a run of
inserted silent blocks (R137); `passEnded` that a pass has ended at the block boundary standing now; and
`boundary` is the elapsed time of the last block boundary the channel has gone through, or of the last one taken
before its grant (R131). -/
structure Channel where
  state : ChanState
  served : Option Served
  cls : AnnClass
  members : OutSet
  start : Option Nat
  assigned : Nat
  seg : Nat
  pass : Nat
  blk : Nat
  segEntry : Option Lookup
  nextEntry : Option Lookup
  playing : Option Block
  next : Option Block
  mark : Option Nat
  read : Option ChanRead
  dirWanted : Bool
  silent : Bool
  passEnded : Bool
  boundary : Nat
  deriving DecidableEq, Repr

/-- A channel request (R130). `serial` numbers the requests in the order they reached the allocator; `seek`
says that it is yet to seek a victim (R133). -/
structure ChanRequest where
  serial : Nat
  output : Out
  cls : AnnClass
  served : Served
  seek : Bool
  deriving DecidableEq, Repr

/-- Who holds the phrase store port (R136). -/
inductive PortUse where
  | header
  | channel (c : Chan)
  deriving DecidableEq, Repr

/-- The counts of the Clip Fetch Unit (R139). -/
structure CfuCounts where
  assigned : Nat
  joined : Nat
  thefts : Nat
  underruns : Nat
  missing : Nat
  readFailures : Nat
  deriving DecidableEq, Repr

/-- The Clip Fetch Unit (CFU). `boundaryAt` is the elapsed time of the last block boundary that has been taken: a
grant and a block boundary may come together (R131). -/
structure Clips where
  channels : Vector Channel 6
  waiting : List ChanRequest
  nextSerial : Nat
  nextAssign : Nat
  port : Option PortUse
  lastGranted : Chan
  version : Nat
  size : Nat
  boundaryAt : Nat
  counts : CfuCounts
  deriving DecidableEq, Repr

/-! ### Level Controller (R140) -/

/-- One output of the Level Controller (R140). `curve` is the shaping curve latched at the last start (R150);
`spoiled` says that the window now running is not eligible (R143); `out` is the block the output carries. -/
structure Level where
  accSum : Nat
  accCount : Nat
  last : Nat
  n16 : Nat
  discard : Bool
  gain : Nat
  target : Option Nat
  curve : Nat
  spoiled : Bool
  out : Block
  deriving DecidableEq, Repr

/-- The Level Controller (LVC). `windowAt` is the elapsed time at which the last meter window ended, `sampled`
counts the samples each sense input has taken (the argument of their free value, log entry 18), and `shapings`
the uses of the shaping stage (the argument of its free value, log entry 4). -/
structure Levels where
  outs : Vector Level 8
  windowAt : Nat
  sampled : Nat
  shapings : Nat
  deriving DecidableEq, Repr

/-! ### Line Supervision Unit (R154, R169) -/

/-- The classes of a supervision word (R156). -/
inductive LineClass where
  | ok
  | short
  | opened
  | leak
  deriving DecidableEq, Repr

/-- The validated line statuses (R154). -/
inductive LineStatus where
  | ok
  | short
  | opened
  | leak
  | unknown
  deriving DecidableEq, Repr

/-- The last word taken (R154). -/
structure LastWord where
  impedance : Nat
  leakage : Nat
  cls : LineClass
  deriving DecidableEq, Repr

/-- One output of the Line Supervision Unit (R154). `wordTaken` says that a word has been taken in the
supervision cycle now running (R155). -/
structure Line where
  limits : Limits
  status : LineStatus
  candidate : Option LineClass
  run : Nat
  missed : Nat
  last : Option LastWord
  supervised : Bool
  wordTaken : Bool
  deriving DecidableEq, Repr

/-- The Line Supervision Unit (LSU); `cycles` counts the supervision cycles ended (R155). -/
structure Supervision where
  lines : Vector Line 8
  lock : Bool
  cycles : Nat
  corrupt : Nat
  missed : Nat
  deriving DecidableEq, Repr

/-! ### Voicing Survey Unit (R162, R169) -/

/-- The survey states (R162). -/
inductive SurveyPhase where
  | none
  | baseline
  | probe
  | tail
  deriving DecidableEq, Repr

/-- What a probe or the best score belongs to: the mark "active" of the start probe, or a candidate (R162). -/
inductive ProbeIndex where
  | active
  | candidate (i : Nat)
  deriving DecidableEq, Repr

/-- The abort reasons (R168). -/
inductive AbortReason where
  | itemQueued
  | evacuation
  | zoneFaulted
  | maintAbort
  | restart
  | noChannel
  deriving DecidableEq, Repr

/-- The survey outcomes (R169). -/
inductive SurveyOutcome where
  | none
  | improved
  | kept
  | aborted
  | refused
  deriving DecidableEq, Repr

/-- What started a survey (R169). -/
inductive SurveyStarter where
  | request
  | automatic
  deriving DecidableEq, Repr

/-- One probe of a survey record (R169). -/
structure ProbeRecord where
  index : ProbeIndex
  curve : Nat
  lp : Nat
  lt : Nat
  score : Int
  deriving DecidableEq, Repr

/-- A survey record (R169). -/
structure SurveyRecord where
  outcome : SurveyOutcome
  reason : Option AbortReason
  start : Option Instant
  starter : Option SurveyStarter
  nb : Option Nat
  probes : List ProbeRecord
  best : Option Nat
  offset : Option Int
  deriving DecidableEq, Repr

/-- An abort that waits for its release: at the end of the probe, or at the next block boundary (R168). -/
inductive AbortWait where
  | probeEnd
  | blockBoundary
  deriving DecidableEq, Repr

/-- The working values of a running survey (R162, R164, R165). `entered` is the elapsed time at which the zone
entered SURVEY, `asked` that at which the probe's channel was first asked for, `probeStart` and `probeEnd`
those of the probe's start and end; `levels` the level codes of the phase's windows so far. -/
structure SurveyWork where
  begun : Instant
  starter : SurveyStarter
  entered : Nat
  levels : List Nat
  nb : Option Nat
  bestScore : Option Int
  best : Option ProbeIndex
  bestLp : Nat
  misses : Nat
  nextIndex : Nat
  current : ProbeIndex
  asked : Nat
  probeStart : Option Nat
  probeEnd : Option Nat
  probes : List ProbeRecord
  abort : Option AbortWait
  deriving DecidableEq, Repr

/-- One output of the Voicing Survey Unit (R162). The working values are present while a survey runs.
`retryAt` is the elapsed time of the last automatic attempt, present while a retry is pending (R163). -/
structure Survey where
  candidates : List Candidate
  preset : Option Nat
  offset : Int
  params : SurveyParams
  phase : SurveyPhase
  work : Option SurveyWork
  retryAt : Option Nat
  record : SurveyRecord
  deriving DecidableEq, Repr

/-- The survey counts (R169). -/
structure SurveyCounts where
  started : Nat
  improved : Nat
  kept : Nat
  aborted : Nat
  refusedStart : Nat
  refusedAuto : Nat
  deriving DecidableEq, Repr

/-- The Voicing Survey Unit (VSU). `lastMinute` is the clock minute of the previous whole-second signal (R163). -/
structure Surveys where
  outs : Vector Survey 8
  lastMinute : Option Nat
  counts : SurveyCounts
  deriving DecidableEq, Repr

/-! ### Evacuation Logic (R170, R172) -/

/-- The Evacuation Logic (EVL). `counted` holds the outputs whose EVAC entries count toward the start gate,
and `openedAt` the last block boundary taken when the gate of R172 last opened. -/
structure Evac where
  raw : Bool
  since : Nat
  active : Bool
  idInUse : Option AnnId
  gateClosed : Bool
  counted : OutSet
  openedAt : Option Nat
  assertions : Nat
  deriving DecidableEq, Repr

/-! ### Peer Announcement Unit (R106, R108, R117, R124) -/

/-- An owner-map entry (R106). -/
structure OwnerEntry where
  owner : Nat
  heard : Nat
  evac : Bool
  deriving DecidableEq, Repr

/-- The outcome of a zone of an origination (R108); a DROPPED outcome keeps the reason code reported. -/
inductive Outcome where
  | pending
  | queued
  | playing
  | done
  | dropped (reason : Nat)
  | redirected (zone : Nat)
  | noOwner
  | noResponse
  deriving DecidableEq, Repr

/-- One remote zone of an origination (R108); the owner is absent for a zone settled NO_OWNER. -/
structure OrigZone where
  zone : Nat
  owner : Option Nat
  outcome : Outcome
  deriving DecidableEq, Repr

/-- An origination entry (R108). -/
structure Origination where
  id : AnnId
  key : Option ServiceKey
  epoch : Option (BitVec 8)
  expiry : Instant
  zones : List OrigZone
  deadline : Option Nat
  withdrawn : Bool
  deriving DecidableEq, Repr

/-- An outcome of a REMOTE announcement that is yet to be reported to its originator (R117). -/
structure ReportedOutcome where
  id : AnnId
  cls : AnnClass
  zone : Nat
  outcome : Outcome
  deriving DecidableEq, Repr

/-- The counts of the Peer Announcement Unit (R124). -/
structure PauCounts where
  announceSent : Nat
  unsent : Nat
  originationFull : Nat
  done : Nat
  dropped : Nat
  redirected : Nat
  noOwner : Nat
  noResponse : Nat
  lateReport : Nat
  strayOutcome : Nat
  announceReceived : Nat
  libraryMismatch : Nat
  evacActive : Nat
  syncMissed : Nat
  noBody : Nat
  notOwned : Nat
  emptyAnnounce : Nat
  reportSent : Nat
  withdrawSent : Nat
  withdrawReceived : Nat
  withdrawAnswer : Nat
  withdrawnItems : Nat
  deriving DecidableEq, Repr

/-- The Peer Announcement Unit (PAU). `outbox` gathers the outcomes of the command being carried out and is empty
between commands; `held` gathers those of a block boundary while commands of that boundary are still due (R117). -/
structure Peers where
  owners : Vector (Option OwnerEntry) 64
  table : List Origination
  outbox : List ReportedOutcome
  held : List ReportedOutcome
  counts : PauCounts
  deriving DecidableEq, Repr

/-! ### Fault Log (R193, R198) -/

/-- A valid fault record (R193). -/
structure FaultRecord where
  kind : FaultKind
  source : Nat
  first : Instant
  last : Instant
  count : Nat
  deriving DecidableEq, Repr

/-- The Fault Log (FLT); an absent record is one whose valid flag is clear. The fault relay is computed from
the records, the routing and the line statuses (`State.relay`, R196). -/
structure FaultLog where
  records : Vector (Option FaultRecord) 16
  overflow : Bool
  lost : Nat
  notices : Nat
  replies : Nat
  refusedBusy : Nat
  refusedLocked : Nat
  refusedRange : Nat
  refusedUnknown : Nat
  deriving DecidableEq, Repr

/-! ### What a station sends (R183, R198) -/

/-- The refusal reasons of a maintenance reply (R183). -/
inductive RefuseReason where
  | busy
  | locked
  | range
  | unknown
  deriving DecidableEq, Repr

/-- One entry of a queue summary (R104). -/
structure EntryView where
  id : AnnId
  cls : AnnClass
  origin : Origin
  state : EntryState
  seg : Nat
  allowance : Nat
  stale : Bool
  expiry : Option Instant
  deriving DecidableEq, Repr

/-- The content of a QUERY_ZONE reply (R104, R153, R169). -/
structure ZoneView where
  zone : Option Nat
  state : ZoneState
  queue : List EntryView
  lastLevel : Nat
  n16 : Nat
  noise : Nat
  gain : Nat
  target : Option Nat
  discard : Bool
  quiet : Bool
  status : LineStatus
  limits : Limits
  candidate : Option LineClass
  run : Nat
  missed : Nat
  last : Option LastWord
  preset : Option Nat
  offset : Int
  deriving DecidableEq, Repr

/-- The content of a QUERY_FAULT reply (R198). -/
structure FaultView where
  records : List (Nat × Option FaultRecord)
  overflow : Bool
  lost : Nat
  relay : Bool
  routing : Routing
  deriving DecidableEq, Repr

/-- The content of a QUERY_SURVEY reply (R169). -/
structure SurveyView where
  record : SurveyRecord
  candidates : List Candidate
  params : SurveyParams
  preset : Option Nat
  offset : Int
  phase : SurveyPhase
  retryPending : Bool
  deriving DecidableEq, Repr

/-- What QUERY_COUNTERS tells of one channel (R139). -/
structure ChannelView where
  state : ChanState
  cls : AnnClass
  served : Option Served
  members : OutSet
  mark : Option Nat
  deriving DecidableEq, Repr

/-- The counts of the Link Interface (R192). -/
structure LinkCounts where
  good : Nat
  envelope : Nat
  badCheck : Nat
  wrongDest : Nat
  unknownKind : Nat
  malformed : Nat
  sent : Nat
  dropped : Nat
  heldBeacon : Nat
  deriving DecidableEq, Repr

/-- The content of a QUERY_COUNTERS reply, block by block (R198). -/
inductive CountersView where
  | ctb (counts : CtbCounts)
  | sck (state : ClockState) (selected : Option Nat) (day : Day) (time : Nat) (step : Option PendingStep)
  | tgu (triggers : Triggers)
  | cmu (counts : CmuCounts) (held : Nat) (evacHeld : Bool)
  | zpc (counts : ZpcCounts)
  | pau (counts : PauCounts) (held live : Nat)
  | cfu (counts : CfuCounts) (version size : Nat) (channels : List ChannelView)
  | survey (corrupt missed : Nat) (counts : SurveyCounts) (lock : Bool)
  | evl (active : Bool) (idInUse : Option AnnId) (gateClosed : Bool) (assertions : Nat)
  | link (counts : LinkCounts) (load : LoadState) (own format check queued0 queued1 queued2 clamped restarts : Nat)
  | flt (notices lost : Nat) (overflow : Bool) (replies busy locked range unknown : Nat)
  deriving DecidableEq, Repr

/-- The content of a maintenance reply (R198). -/
inductive ReplyContent where
  | none
  | call (found : Option (Nat × CallRec))
  | zone (view : ZoneView)
  | fault (view : FaultView)
  | survey (view : SurveyView)
  | counters (view : CountersView)
  deriving DecidableEq, Repr

/-- The contents of a beacon (R182); they are filled when the beacon is begun. -/
structure BeaconFill where
  day : Day
  time : Nat
  libVersion : Nat
  zones : ZoneSet
  evacActive : Bool
  faultPending : Bool
  deriving DecidableEq, Repr

/-- The frames a TZ-620 sends, as they stand in the transmit queue (R181, R183). -/
inductive TxPayload where
  | beacon (fill : Option BeaconFill)
  | announce (frame : AnnounceFrame)
  | zoneReport (frame : ZoneReportFrame)
  | withdraw (frame : WithdrawFrame)
  | withdrawDone (frame : WithdrawDoneFrame)
  | faultNotice (frame : FaultNoticeFrame)
  | maintReply (code tag : Nat) (refused : Option RefuseReason) (content : ReplyContent)
  deriving DecidableEq, Repr

/-- A frame of this station: urgency, destination and payload (R180, R181). -/
structure TxFrame where
  urgency : Nat
  dst : Nat
  payload : TxPayload
  deriving DecidableEq, Repr

/-- The Link Interface (LKI). `queue` is the transmit queue in sending order; `sending` the frame begun and
not yet sent whole; `idle` the idle count and `busy` whether a frame is on the link (R180); `beaconAt` the
elapsed time at which the next beacon is due (R182). -/
structure LinkUnit where
  queue : List TxFrame
  sending : Option TxFrame
  idle : Nat
  busy : Bool
  beaconAt : Nat
  counts : LinkCounts
  deriving DecidableEq, Repr

/-! ### The machine -/

/-- The blocks that a frame to be sent or a fault report passes through. -/
structure Net where
  lki : LinkUnit
  pau : Peers
  flt : FaultLog
  deriving DecidableEq, Repr

/-- The blocks of the rendering and sensing paths, with the blocks they report to. -/
structure Play where
  net : Net
  cmu : Composition
  zpc : Playout
  cfu : Clips
  lvc : Levels
  lsu : Supervision
  vsu : Surveys
  evl : Evac
  deriving DecidableEq, Repr

/-- The state of the part. `elapsed` counts milliseconds on the reference clock since the reset (R27) and
`pending` is the queue of commands, first in, first out. -/
structure State where
  play : Play
  sck : Clock
  ctb : CallTable
  tgu : Triggers
  cfl : Loader
  elapsed : Nat
  pending : List Instr
  deriving DecidableEq, Repr

/-! ### After power-on reset -/

/-- A berth input after reset: raw level clear (DESIGN CHOICE, log entry 9), its count begun at the reset (R18). -/
def Debounce.reset : Debounce := ⟨false, 0, none⟩

/-- The Call Table after power-on reset (R3, R18, R26). -/
def CallTable.reset : CallTable where
  places := Vector.replicate 96 .free
  occupancy := Vector.replicate 8 Debounce.reset
  approach := Vector.replicate 8 Debounce.reset
  seconds := 0
  counts := ⟨0, 0, 0, 0, 0⟩

/-- The Service Clock after power-on reset (R27). -/
def Clock.reset : Clock where
  state := .unset
  time := 0
  day := 0
  heard := Vector.replicate 31 none
  selected := none
  lastSource := none
  pendingStep := none
  quiet := false
  secondDue := false
  dayEndDue := false

/-- The Trigger Unit after power-on reset (R40, R55). -/
def Triggers.reset : Triggers := ⟨Vector.replicate 32 0, Vector.replicate 32 0, 0, 0, 0⟩

/-- The Configuration Loader after power-on reset (R188, R192). -/
def Loader.reset : Loader := ⟨.loading, none, false, none, 0, 0⟩

/-- The Composition Unit after power-on reset (R66, R67, R74). -/
def Composition.reset : Composition where
  slots := Vector.replicate 32 none
  order := []
  evacSlot := none
  nextSeq := 1
  inHand := none
  counts := ⟨0, 0, 0, 0, 0, 0⟩

/-- An output with no zone and an empty queue (R75). Arrival orders begin at 0: DESIGN CHOICE, log entry 19. -/
def Zone.off : Zone := ⟨none, [], 0, false, false, none⟩

/-- The Zone Playout Controller after power-on reset (R75, R104). -/
def Playout.reset : Playout := ⟨Vector.replicate 8 Zone.off, ⟨0, 0, 0, 0, 0, 0, 0, 0, 0, 0, 0⟩⟩

/-- A clip channel that serves nothing (R129). A FREE channel has no class; the field reads INFO: DESIGN CHOICE, log
entry 19. -/
def Channel.reset : Channel where
  state := .free
  served := none
  cls := .info
  members := 0
  start := none
  assigned := 0
  seg := 0
  pass := 0
  blk := 0
  segEntry := none
  nextEntry := none
  playing := none
  next := none
  mark := none
  read := none
  dirWanted := false
  silent := false
  passEnded := false
  boundary := 0

/-- The Clip Fetch Unit after power-on reset: every channel FREE, the header read at the port (R125, R129, R136,
R139). Version, size and the ordering numbers are 0: DESIGN CHOICE, log entry 19. -/
def Clips.reset : Clips where
  channels := Vector.replicate 6 Channel.reset
  waiting := []
  nextSerial := 0
  nextAssign := 0
  port := some .header
  lastGranted := 5
  version := 0
  size := 0
  boundaryAt := 0
  counts := ⟨0, 0, 0, 0, 0, 0⟩

/-- One output of the Level Controller after power-on reset (R140). The latched curve is 0: DESIGN CHOICE, log entry
19. -/
def Level.reset : Level := ⟨0, 0, 0, 0, false, 0, none, 0, false, .zero⟩

/-- The Level Controller after power-on reset (R140). -/
def Levels.reset : Levels := ⟨Vector.replicate 8 Level.reset, 0, 0, 0⟩

/-- The built-in limits (R154). -/
def Limits.builtIn : Limits := ⟨40, 900, 200⟩

/-- One output of the Line Supervision Unit after power-on reset (R154). -/
def Line.reset : Line := ⟨Limits.builtIn, .unknown, none, 0, 0, none, true, false⟩

/-- The Line Supervision Unit after power-on reset (R154, R169). -/
def Supervision.reset : Supervision := ⟨Vector.replicate 8 Line.reset, false, 0, 0, 0⟩

/-- The survey record before any survey (R162). -/
def SurveyRecord.never : SurveyRecord := ⟨.none, none, none, none, none, [], none, none⟩

/-- One output of the Voicing Survey Unit after power-on reset (R162). The automatic minute and the curves of the
candidates are 0: DESIGN CHOICE, log entry 19. -/
def Survey.reset : Survey where
  candidates := List.replicate 16 ⟨false, 0⟩
  preset := none
  offset := 0
  params := ⟨0, 0, 0, 0, 0, 0, 0, 0, false, 0⟩
  phase := .none
  work := none
  retryAt := none
  record := SurveyRecord.never

/-- The Voicing Survey Unit after power-on reset (R162, R169). -/
def Surveys.reset : Surveys := ⟨Vector.replicate 8 Survey.reset, none, ⟨0, 0, 0, 0, 0, 0⟩⟩

/-- The Evacuation Logic after power-on reset (R170, R172). The raw level is clear (DESIGN CHOICE, log
entry 9). -/
def Evac.reset : Evac := ⟨false, 0, false, none, false, 0, none, 0⟩

/-- The Peer Announcement Unit after power-on reset (R106, R108, R124). -/
def Peers.reset : Peers where
  owners := Vector.replicate 64 none
  table := []
  outbox := []
  held := []
  counts := ⟨0, 0, 0, 0, 0, 0, 0, 0, 0, 0, 0, 0, 0, 0, 0, 0, 0, 0, 0, 0, 0, 0⟩

/-- The Fault Log after power-on reset (R193, R198). -/
def FaultLog.reset : FaultLog := ⟨Vector.replicate 16 none, false, 0, 0, 0, 0, 0, 0, 0⟩

/-- The Link Interface after power-on reset (R180, R181, R192). -/
def LinkUnit.reset : LinkUnit := ⟨[], none, 0, false, 0, ⟨0, 0, 0, 0, 0, 0, 0, 0, 0⟩⟩

/-- The blocks of `Net` after power-on reset. -/
def Net.reset : Net := ⟨LinkUnit.reset, Peers.reset, FaultLog.reset⟩

/-- The blocks of `Play` after power-on reset. -/
def Play.reset : Play where
  net := Net.reset
  cmu := Composition.reset
  zpc := Playout.reset
  cfu := Clips.reset
  lvc := Levels.reset
  lsu := Supervision.reset
  vsu := Surveys.reset
  evl := Evac.reset

/-- The part right after a power-on or pin reset (R188), with no command waiting. -/
def State.reset : State where
  play := Play.reset
  sck := Clock.reset
  ctb := CallTable.reset
  tgu := Triggers.reset
  cfl := Loader.reset
  elapsed := 0
  pending := []

end Sys2Proof.Machine
end

