-- ==== Sys2Proof/Machine/Ops.lean ====
section
/-! DEFINITION. The named operations shared by every block: vectors and sets of outputs, saturating counts,
instants and days, the configuration in force, and the surroundings (`Env`) that a block reads. -/
namespace Sys2Proof.Machine

/-! ### Vectors, sets and counts -/

/-- Change one element of a vector. -/
def upd {α : Type} {n : Nat} (v : Vector α n) (i : Fin n) (f : α → α) : Vector α n :=
  v.set i.val (f (v.get i)) i.isLt

/-- Change every element of a vector by its index. -/
def mapIdx {α β : Type} {n : Nat} (v : Vector α n) (f : Fin n → α → β) : Vector β n :=
  Vector.ofFn fun i => f i (v.get i)

/-- Counters described as saturating stop at their upper limit, 65535 (R1). -/
def bump (n : Nat) : Nat := min 65535 (n + 1)

/-- Add to a saturating count. -/
def bumpBy (k n : Nat) : Nat := min 65535 (n + k)

/-- Clamp an integer to a range (R1). -/
def clampInt (lo hi x : Int) : Int := max lo (min hi x)

/-- Clamp a natural number to a range (R1). -/
def clampNat (lo hi x : Nat) : Nat := max lo (min hi x)

/-- Ceiling of a quotient (R1). -/
def ceilDiv (a b : Nat) : Nat := (a + b - 1) / b

/-- The outputs in ascending order. -/
def allOuts : List Out := List.finRange 8

/-- The channels in ascending order. -/
def allChans : List Chan := List.finRange 6

/-- The outputs of a set, ascending. -/
def outsOf (m : OutSet) : List Out := allOuts.filter fun o => m.getLsbD o.val

/-- A set of outputs with one added. -/
def addOut (m : OutSet) (o : Out) : OutSet := m ||| (1#8 <<< o.val)

/-- A set of outputs with one taken out. -/
def dropOut (m : OutSet) (o : Out) : OutSet := m &&& ~~~(1#8 <<< o.val)

/-- The zones of a set, ascending. -/
def zonesOf (z : ZoneSet) : List Nat := (List.range 64).filter fun i => z.getLsbD i

/-- A zone set with one zone added; a number above 63 is no terminus zone (R1). -/
def addZone (z : ZoneSet) (i : Nat) : ZoneSet := z ||| (1#64 <<< i)

/-! ### Class codes (R1, R183) -/

/-- The code of a class: a lower code is more urgent (R1). -/
def classCode : AnnClass → Nat
  | .evac => 0
  | .alert => 1
  | .service => 2
  | .info => 3

/-- One class is more urgent than another when its code is lower (R1). -/
def moreUrgent (a b : AnnClass) : Bool := classCode a < classCode b

/-- The class that a class byte of an ANNOUNCE names, EVAC being taken as ALERT (R71). -/
def classTaken (code : Nat) : AnnClass :=
  if code ≤ 1 then .alert else if code = 2 then .service else .info

/-- The codes of the drop reasons (R183). -/
def reasonCode : DropReason → Nat
  | .withdrawn => 1
  | .expired => 2
  | .preempted => 3
  | .queueFull => 4
  | .noBody => 5
  | .displaced => 6
  | .zoneFault => 7
  | .syncMissed => 8
  | .libraryMismatch => 9
  | .callEnded => 10
  | .evacActive => 11
  | .restart => 12
  | .notOwned => 13

/-- The codes of the fault kinds (R183). -/
def faultCode : FaultKind → Nat
  | .lineShort => 1
  | .lineOpen => 2
  | .lineLeak => 3
  | .supervisionLost => 4
  | .underrun => 5
  | .phraseMissing => 6
  | .templateOverflow => 7
  | .reservedPhrase => 8
  | .callTableFull => 9
  | .platformUnexpected => 10
  | .timeHoldover => 11
  | .timeStep => 12
  | .peerSilent => 13
  | .zoneOwnerConflict => 14
  | .originationFull => 15
  | .libraryMismatch => 16
  | .configInvalid => 17

/-- The codes of the load failure causes (R186). -/
def failureCode : LoadFailure → Nat
  | .unreadable => 1
  | .badLength => 2
  | .badFormat => 3
  | .badCheck => 4
  | .badAddress => 5

/-- The kind byte of a timetable frame: 0 for ARR, 1 for DEP (R183). -/
def kindOf (code : Nat) : Option CallKind :=
  if code = 0 then some .arr else if code = 1 then some .dep else none

/-- A blank service code stands for an absent one (R178). -/
def codeOf (c : Code) : Option Code := if c = 0 then none else some c

/-- The six bytes of a service code, the first first (R178). -/
def codeBytes (c : Code) : List Nat :=
  [40, 32, 24, 16, 8, 0].map fun k => (c.toNat >>> k) % 256

/-- A letter or a digit, in ASCII (R2; PRESUMED, log entry 7). -/
def isAlnum (b : Nat) : Bool :=
  (48 ≤ b && b ≤ 57) || (65 ≤ b && b ≤ 90) || (97 ≤ b && b ≤ 122)

/-- A service code is 4 to 6 letters and digits, left-aligned and padded with zero bytes (R2, R178). -/
def codeOk (c : Code) : Bool :=
  let text := (codeBytes c).takeWhile (· ≠ 0)
  let rest := (codeBytes c).dropWhile (· ≠ 0)
  4 ≤ text.length && text.all isAlnum && rest.all (· = 0)

/-! ### Days and instants (R27, R52, R92) -/

/-- The milliseconds of a service day (R1). -/
def dayMs : Nat := 86400000

/-- The signed difference of two service days, modulo 65536 (R32, R92). -/
def dayDiff (a b : Day) : Int := (a - b).toInt

/-- An instant whose station time is 86,400,000 or more is held as the following day (R92). -/
def instantOf (day : Day) (time : Nat) : Instant :=
  if time < dayMs then ⟨day, time⟩ else ⟨day + 1, time - dayMs⟩

/-- An instant moved later by some milliseconds. -/
def Instant.plus (i : Instant) (ms : Nat) : Instant := instantOf i.day (i.time + ms)

/-- A held instant with its day shifted (R92, R108). -/
def Instant.shift (i : Instant) (by_ : Day) : Instant := ⟨i.day + by_, i.time⟩

/-! ### The surroundings of a block -/

/-- What every block reads of the others: the reference clock, the Service Clock, the quiet-hours signal, the
load state, the image in force and the own address. -/
structure Env where
  elapsed : Nat
  clock : ClockState
  now : Instant
  quiet : Bool
  load : LoadState
  image : Option Image
  own : Nat
  deriving DecidableEq, Repr

/-- The own address is the configured one in RUNNING, and 0 before and without a configuration (R188, R189, R190). -/
def Loader.own (c : Loader) : Nat :=
  match c.image with
  | some i => i.address
  | none => 0

/-- The surroundings that the blocks of `Play` read. -/
def State.env (s : State) : Env where
  elapsed := s.elapsed
  clock := s.sck.state
  now := ⟨s.sck.day, s.sck.time⟩
  quiet := s.sck.quiet
  load := s.cfl.load
  image := s.cfl.image
  own := s.cfl.own

/-- An instant is reached when the service day lies after the instant's day, or equals it and station time is
at or past the instant's time; while the clock is UNSET instants are not tested (R92). -/
def Env.reached (e : Env) (i : Instant) : Bool :=
  e.clock ≠ .unset && (0 < dayDiff e.now.day i.day || (e.now.day = i.day && i.time ≤ e.now.time))

/-- The part is RUNNING (R188). -/
def Env.running (e : Env) : Bool := e.load = .running

/-! ### The configuration in force -/

/-- The zone record of an output, in RUNNING (R185). -/
def Env.zoneCfg (e : Env) (o : Out) : Option ZoneCfg :=
  match e.image with
  | some i => i.zones.find? fun z => z.output = o
  | none => none

/-- The output that carries an owned terminus zone (R1). -/
def Env.outOfZone (e : Env) (z : Nat) : Option Out :=
  match e.image with
  | some i => (i.zones.find? fun c => c.zone = z).map (·.output)
  | none => none

/-- The zones this station owns. -/
def Env.ownedZones (e : Env) : ZoneSet :=
  match e.image with
  | some i => i.zones.foldl (fun acc c => addZone acc c.zone) 0
  | none => 0

/-- The platform record of a covered platform. -/
def Env.platformCfg (e : Env) (p : Nat) : Option PlatformCfg :=
  match e.image with
  | some i => i.platforms.find? fun c => c.platform = p
  | none => none

/-- A platform named in this station's configuration. -/
def Env.covers (e : Env) (p : Nat) : Bool := (e.platformCfg p).isSome

/-- The zones configured for a platform: each output that carries an owned zone contributes that zone's id (R51). -/
def Env.platformZones (e : Env) (p : Nat) : ZoneSet :=
  match e.platformCfg p with
  | some c => (outsOf c.zones).foldl (fun acc o =>
      match e.zoneCfg o with
      | some z => addZone acc z.zone
      | none => acc) 0
  | none => 0

/-- The service day start, 0 before and without a configuration (R36). -/
def Env.dayStart (e : Env) : Nat :=
  match e.image with
  | some i => i.dayStart
  | none => 0

/-- The clock minute of a station time (R36). -/
def clockMinute (dayStart time : Nat) : Nat := (dayStart + time / 60000) % 1440

/-- The clock time, in minutes 0..1439, of a service minute (R36). -/
def clockOfMinute (dayStart : Nat) (t : Int) : Nat := (((dayStart : Int) + t) % 1440).toNat

/-- The source of a fault of an output: its zone id while RUNNING, its output number before (R137, R159). An output
without an owned zone gives its number in RUNNING too: DESIGN CHOICE, log entry 65. -/
def Env.faultSource (e : Env) (o : Out) : Nat :=
  match e.zoneCfg o with
  | some z => z.zone
  | none => o.val

/-! ### Block-structured updates -/

/-- Change the blocks of `Net`. -/
def Play.onNet (p : Play) (f : Net → Net) : Play := { p with net := f p.net }

/-- Change the blocks of `Play`, reading the surroundings. -/
def State.onPlay (s : State) (f : Env → Play → Play) : State := { s with play := f s.env s.play }

/-- The zone of an output. -/
def Play.zone (p : Play) (o : Out) : Zone := p.zpc.zones.get o

/-- Change the zone of an output. -/
def Play.onZone (p : Play) (o : Out) (f : Zone → Zone) : Play :=
  { p with zpc := { p.zpc with zones := upd p.zpc.zones o f } }

/-- Change the level state of an output. -/
def Play.onLevel (p : Play) (o : Out) (f : Level → Level) : Play :=
  { p with lvc := { p.lvc with outs := upd p.lvc.outs o f } }

/-- Change the line state of an output. -/
def Play.onLine (p : Play) (o : Out) (f : Line → Line) : Play :=
  { p with lsu := { p.lsu with lines := upd p.lsu.lines o f } }

/-- Change the survey state of an output. -/
def Play.onSurvey (p : Play) (o : Out) (f : Survey → Survey) : Play :=
  { p with vsu := { p.vsu with outs := upd p.vsu.outs o f } }

/-- Change a clip channel. -/
def Play.onChan (p : Play) (c : Chan) (f : Channel → Channel) : Play :=
  { p with cfu := { p.cfu with channels := upd p.cfu.channels c f } }

/-- A clip channel. -/
def Play.chan (p : Play) (c : Chan) : Channel := p.cfu.channels.get c

/-- The survey state of an output. -/
def Play.surveyAt (p : Play) (o : Out) : Survey := p.vsu.outs.get o

/-- The level state of an output. -/
def Play.levelAt (p : Play) (o : Out) : Level := p.lvc.outs.get o

/-- The line state of an output. -/
def Play.lineAt (p : Play) (o : Out) : Line := p.lsu.lines.get o

/-- The line is short-circuited or open (R96). -/
def Play.lineDown (p : Play) (o : Out) : Bool :=
  (p.lineAt o).status = .short || (p.lineAt o).status = .opened

end Sys2Proof.Machine
end

