-- ==== Sys2Proof/Machine/Levels.lean ====
section
/-! DEFINITION. The Level Controller: the meter's level code (R142), the noise estimate (R144), the gain
computation (R145 to R149), the gain table and output scaling (R150, R151). -/
namespace Sys2Proof.Machine

/-! ### The meter (R141, R142) -/

/-- E is at least 1,073,741,824 × 10^((k − 240) / 20), E being the sum of squares divided by 2048 (R142): both
sides raised to the twentieth power, in exact integers. -/
def levelAtLeast (sum k : Nat) : Bool := 2 ^ 820 ≤ sum ^ 20 * 10 ^ (240 - k)

/-- The largest k not above the argument for which `levelAtLeast` holds, 0 when none does. -/
def levelUpTo (sum : Nat) : Nat → Nat
  | 0 => 0
  | k + 1 => if levelAtLeast sum (k + 1) then k + 1 else levelUpTo sum k

/-- The level code of a window from the sum of the squares of its 2048 samples (R142). -/
def levelCode (sum : Nat) : Nat := levelUpTo sum 240

/-! ### The noise estimate (R144) -/

/-- The noise estimate after a counted window of level code L: up by a quarter of the distance, down by a
thirty-second (R144). -/
def noiseAfter (n16 l : Nat) : Nat :=
  if n16 ≤ 16 * l then n16 + (16 * l - n16) / 4 else n16 - ceilDiv (n16 - 16 * l) 32

/-- The whole noise level of an estimate (R144). -/
def wholeNoise (n16 : Nat) : Nat := n16 / 16

/-! ### The gain computation (R146 to R149) -/

/-- The configured margin of a class (R146). -/
def Image.margin (i : Image) : AnnClass → Nat
  | .evac => i.marginEvac
  | .alert => i.marginAlert
  | .service => i.marginService
  | .info => i.marginInfo

/-- The required level R = N + M[class] + B + P (R146). -/
def requiredLevel (i : Image) (z : ZoneCfg) (cls : AnnClass) (noise : Nat) (offset : Int) : Int :=
  (noise : Int) + (i.margin cls : Int) + (z.base + offset)

/-- The upper cap: in quiet hours SERVICE and INFO are capped at min(Gmax, max(Gmin, Qcap)) (R147). -/
def upperCap (z : ZoneCfg) (cls : AnnClass) (quiet : Bool) : Nat :=
  if quiet && (cls = .service || cls = .info) then min z.gmax (max z.gmin z.qcap) else z.gmax

/-- The target T: R clamped from Gmin to the cap, raised for EVAC to min(Fevac, Gmax) (R148). -/
def gainTarget (i : Image) (z : ZoneCfg) (cls : AnnClass) (noise : Nat) (offset : Int) (quiet : Bool) : Nat :=
  let t := (clampInt z.gmin (upperCap z cls quiet) (requiredLevel i z cls noise offset)).toNat
  if cls = .evac then max t (min i.fevac z.gmax) else t

/-- G moves toward T by at most the slew (R149). -/
def slewGain (prev target slew : Nat) : Nat :=
  if prev ≤ target then prev + min (target - prev) slew else prev - min (prev - target) slew

/-- The curve in force for a zone: that of its active preset's entry, 0 when there is none valid (R162). -/
def Survey.curve (v : Survey) : Nat :=
  match v.preset with
  | some i =>
    match v.candidates[i]? with
    | some c => if c.valid then c.curve else 0
    | none => 0
  | none => 0

/-- Compute the gain of an owned zone at a start or a boundary: at a start from idle G takes T, otherwise it
slews (R145, R149). Without a configured zone nothing is computed (R152). -/
def Play.computeGain (e : Env) (o : Out) (cls : AnnClass) (fromIdle : Bool) (p : Play) : Play :=
  match e.image, e.zoneCfg o with
  | some i, some z =>
    let l := p.levelAt o
    let t := gainTarget i z cls (wholeNoise l.n16) (p.surveyAt o).offset e.quiet
    p.onLevel o fun l => { l with gain := if fromIdle then t else slewGain l.gain t i.slew, target := some t }
  | _, _ => p

/-- The gain and curve at the start of an item: computed for an owned zone with the curve of its active preset
latched (R145, R150), and the fixed gain 180 with curve 0 without a configuration (R152). -/
def Play.gainAtStart (e : Env) (o : Out) (cls : AnnClass) (fromIdle : Bool) (p : Play) : Play :=
  match e.zoneCfg o with
  | some _ => (p.onLevel o fun l => { l with curve := (p.surveyAt o).curve }).computeGain e o cls fromIdle
  | none => p.onLevel o fun l => { l with gain := 180, curve := 0, target := none }

/-- The gain at the start of a survey probe: the survey gain clamped to the zone's range, the last target
absent, with the candidate's curve (R152). -/
def Play.gainAtProbe (e : Env) (o : Out) (curve : Nat) (p : Play) : Play :=
  match e.zoneCfg o with
  | some z => p.onLevel o fun l =>
      { l with gain := clampNat z.gmin z.gmax (p.surveyAt o).params.gain, target := none, curve := curve }
  | none => p

/-! ### Output scaling (R150, R151) -/

/-- k is at most round(32767 × 10^((G − 200) / 40)): 2k − 1 ≤ 65534 × 10^((G − 200) / 40), both sides raised to
the fortieth power, in exact integers (R151). -/
def gainEntryFits (g k : Nat) : Bool := (2 * k - 1) ^ 40 * 10 ^ (200 - g) ≤ 65534 ^ 40

/-- The gain table entry of a gain code (R151), found bit by bit as the largest k that fits. -/
def gainEntry (g : Nat) : Nat :=
  [16384, 8192, 4096, 2048, 1024, 512, 256, 128, 64, 32, 16, 8, 4, 2, 1].foldl
    (fun k b => if gainEntryFits g (k + b) then k + b else k) 0

/-- The scaled sample: floor((x × Tbl[G] + 16384) / 32768), saturated (R151). -/
def scaleSample (entry : Nat) (x : Int) : Int := clampInt (-32767) 32767 ((x * entry + 16384) / 32768)

/-- A block through the shaping stage: each sample is the stage's free value, within −32768..32767 (R150). -/
def shapeSamples (use curve : Nat) (block : List Int) : List Int :=
  (List.range block.length).map fun i => clampInt (-32768) 32767 (Config.shapeSample use curve i block)

/-- The block an output carries for a block of its channel: zero-valued blocks stay zero, others are shaped and
scaled (R150, R151). -/
def Play.carry (o : Out) (b : Block) (p : Play) : Play :=
  match b with
  | .zero => p.onLevel o fun l => { l with out := .zero }
  | .audio samples =>
    let use := p.lvc.shapings
    let p := { p with lvc := { p.lvc with shapings := use + 1 } }
    p.onLevel o fun l =>
      { l with out := .audio ((shapeSamples use l.curve samples).map (scaleSample (gainEntry l.gain))) }

/-- The zone leaves RENDERING or SURVEY: its output carries silence and its discard mark is set (R143, R150).
An output without an owned zone goes back to gain 0 (R152). -/
def Play.fallSilent (e : Env) (o : Out) (p : Play) : Play :=
  p.onLevel o fun l =>
    { l with out := .zero, discard := true, gain := if (e.zoneCfg o).isSome then l.gain else 0 }

end Sys2Proof.Machine
end

