-- ==== Sys2Proof/Machine/Net.lean ====
section
/-! DEFINITION. What a block does to send a frame, to report a fault and to have an outcome reported: the
transmit queue (R181), the fault log (R194), the origination table (R108 to R114) and zone reports (R117). -/
namespace Sys2Proof.Machine

/-! ### Outcomes of originations (R108, R124) -/

/-- The outcomes that do not change any more (R108). -/
def Outcome.final : Outcome → Bool
  | .pending => false
  | .queued => false
  | .playing => false
  | .done => true
  | .dropped _ => true
  | .redirected _ => true
  | .noOwner => true
  | .noResponse => true

/-- The count of a final outcome increments when a zone reaches it (R124). -/
def PauCounts.countOutcome (c : PauCounts) : Outcome → PauCounts
  | .pending => c
  | .queued => c
  | .playing => c
  | .done => { c with done := bump c.done }
  | .dropped _ => { c with dropped := bump c.dropped }
  | .redirected _ => { c with redirected := bump c.redirected }
  | .noOwner => { c with noOwner := bump c.noOwner }
  | .noResponse => { c with noResponse := bump c.noResponse }

/-- Count every outcome of a list. -/
def PauCounts.countOutcomes (c : PauCounts) (l : List Outcome) : PauCounts :=
  l.foldl PauCounts.countOutcome c

/-- An entry retires when every zone in its list is final (R113). -/
def Origination.settled (o : Origination) : Bool := o.zones.all fun z => z.outcome.final

/-- Change the Peer Announcement Unit. -/
def Net.onPau (n : Net) (f : Peers → Peers) : Net := { n with pau := f n.pau }

/-- The origination entry of an id (R108). -/
def Peers.find (p : Peers) (id : AnnId) : Option Origination := p.table.find? fun o => o.id = id

/-- Change the origination entry of an id, retiring it when every zone is then final (R111, R113). -/
def Peers.revise (p : Peers) (id : AnnId) (f : Origination → Origination) : Peers :=
  { p with table := (p.table.map fun o => if o.id = id then f o else o).filter fun o => !(o.id = id && o.settled) }

/-- Make NO_RESPONSE every zone of an entry whose outcome is selected, counting each (R110, R112, R113). -/
def Peers.giveUp (p : Peers) (id : AnnId) (sel : Outcome → Bool) : Peers :=
  match p.find id with
  | none => p
  | some o =>
    let n := (o.zones.filter fun z => sel z.outcome).length
    let p := p.revise id fun o =>
      { o with zones := o.zones.map fun z => if sel z.outcome then { z with outcome := .noResponse } else z }
    { p with counts := { p.counts with noResponse := bumpBy n p.counts.noResponse } }

/-- An ANNOUNCE dropped from a full transmit queue: its PENDING zones become NO_RESPONSE and the unsent count
increments (R110). -/
def Peers.unsentAnnounce (p : Peers) (id : AnnId) : Peers :=
  let p := p.giveUp id fun o => o = .pending
  { p with counts := { p.counts with unsent := bump p.counts.unsent } }

/-! ### The transmit queue (R181) -/

/-- A frame joins the queue behind the frames of its urgency and of more urgent ones (R181). -/
def insertFrame : List TxFrame → TxFrame → List TxFrame
  | [], f => [f]
  | g :: rest, f => if f.urgency < g.urgency then f :: g :: rest else g :: insertFrame rest f

/-- The block that queued a dropped frame is told: the Peer Announcement Unit acts for an ANNOUNCE, and the
other kinds are lost (R181). -/
def Net.frameDropped (n : Net) (f : TxFrame) : Net :=
  match f.payload with
  | .announce a => n.onPau fun p => p.unsentAnnounce ⟨a.origin, a.seq⟩
  | _ => n

/-- Queue a frame. Of 17 frames the least urgent is dropped, and among those the newest: the last of the
ordered queue. Outside RUNNING the queue stays empty (R181). -/
def Net.enqueue (e : Env) (f : TxFrame) (n : Net) : Net :=
  if e.running then
    let q := insertFrame n.lki.queue f
    if q.length ≤ 16 then { n with lki := { n.lki with queue := q } }
    else
      let n := { n with lki := { n.lki with
        queue := q.dropLast, counts := { n.lki.counts with dropped := bump n.lki.counts.dropped } } }
      match q.getLast? with
      | some g => n.frameDropped g
      | none => n
  else n

/-! ### Fault reports (R194) -/

/-- The lowest record index that satisfies a test. -/
def recordIndex (l : FaultLog) (test : Option FaultRecord → Bool) : Option (Fin 16) :=
  (List.finRange 16).find? fun i => test (l.records.get i)

/-- The record holds this kind and source (R194). -/
def sameFault (k : FaultKind) (source : Nat) (r : Option FaultRecord) : Bool :=
  match r with
  | some r => r.kind = k && r.source = source
  | none => false

/-- Settle a fault report: a matching record counts it; else the invalid record of lowest index takes it, with
a FAULT_NOTICE in RUNNING; else it is lost (R194). -/
def Net.report (e : Env) (k : FaultKind) (source : Nat) (n : Net) : Net :=
  match recordIndex n.flt (sameFault k source) with
  | some i =>
    let again (r : FaultRecord) : FaultRecord := { r with count := min 255 (r.count + 1), last := e.now }
    { n with flt := { n.flt with records := upd n.flt.records i (Option.map again) } }
  | none =>
    match recordIndex n.flt Option.isNone with
    | some i =>
      let flt := { n.flt with records := upd n.flt.records i fun _ => some ⟨k, source, e.now, e.now, 1⟩ }
      if e.running then
        Net.enqueue e ⟨2, 31, .faultNotice ⟨i.val, faultCode k, source, e.now.day, e.now.time⟩⟩
          { n with flt := { flt with notices := bump flt.notices } }
      else { n with flt := flt }
    | none => { n with flt := { n.flt with overflow := true, lost := min 255 (n.flt.lost + 1) } }

/-- Report a fault from a block of `Play`. -/
def Play.fault (e : Env) (k : FaultKind) (source : Nat) (p : Play) : Play := p.onNet (Net.report e k source)

/-! ### Reports of REMOTE announcements (R117) -/

/-- The outcome and detail bytes of a reported outcome (R183). -/
def outcomeBytes : Outcome → Nat × Nat
  | .pending => (0, 0)
  | .queued => (1, 0)
  | .playing => (2, 0)
  | .done => (3, 0)
  | .dropped r => (4, r)
  | .redirected z => (5, z)
  | .noOwner => (0, 0)
  | .noResponse => (0, 0)

/-- Tell the Peer Announcement Unit an outcome of a REMOTE announcement under a reported zone (R117). -/
def Net.tell (id : AnnId) (cls : AnnClass) (zone : Nat) (o : Outcome) (n : Net) : Net :=
  n.onPau fun p => { p with outbox := p.outbox ++ [⟨id, cls, zone, o⟩] }

/-- Queue the ZONE_REPORT of one announcement: urgency 0 for one admitted as ALERT and 1 for SERVICE and INFO,
addressed to the station of its id (R117). -/
def Net.sendReport (e : Env) (items : List ReportedOutcome) (n : Net) : Net :=
  match items with
  | [] => n
  | r :: _ =>
    let frame : ZoneReportFrame := ⟨r.id.origin, r.id.seq,
      items.map fun i => ⟨i.zone, (outcomeBytes i.outcome).1, (outcomeBytes i.outcome).2⟩⟩
    let n := n.onPau fun p => { p with counts := { p.counts with reportSent := bump p.counts.reportSent } }
    n.enqueue e ⟨if r.cls = .alert then 0 else 1, r.id.origin, .zoneReport frame⟩

/-- The outcomes gathered in one command, one list for each announcement in the order they first arose; the
first argument bounds the recursion by the list's length. Within one announcement they stand as they arose,
and the announcements follow one another so: DESIGN CHOICE, log entry 60. -/
def groupOutcomes : Nat → List ReportedOutcome → List (List ReportedOutcome)
  | 0, _ => []
  | _ + 1, [] => []
  | k + 1, r :: rest =>
    (r :: rest.filter fun x => x.id = r.id) :: groupOutcomes k (rest.filter fun x => x.id ≠ r.id)

/-- Report a list of outcomes: one ZONE_REPORT for each announcement (R117). -/
def Net.reportAll (e : Env) (l : List ReportedOutcome) (n : Net) : Net :=
  (groupOutcomes l.length l).foldl (fun n g => n.sendReport e g) n

/-- Report the outcomes gathered in a command (R117). One command is one event: DESIGN CHOICE, log entry 21. -/
def Net.flush (e : Env) (n : Net) : Net := Net.reportAll e n.pau.outbox (n.onPau fun p => { p with outbox := [] })

/-- Report the outcomes gathered at a block boundary (R117). -/
def Net.flushHeld (e : Env) (n : Net) : Net := Net.reportAll e n.pau.held (n.onPau fun p => { p with held := [] })

/-! ### Sending an announcement to other stations (R109, R110) -/

/-- What the Composition Unit hands to the Peer Announcement Unit for the remote zones of a request (R68). -/
structure SendRequest where
  id : AnnId
  cls : AnnClass
  key : Option ServiceKey
  epoch : Option (BitVec 8)
  day : Day
  expiryTime : Nat
  syncTime : Option Nat
  segs : List Segment
  zones : List Nat
  deriving DecidableEq, Repr

/-- The owner-map entry of a zone, when it is live (R106): 3 s from the owner's last beacon. -/
def Peers.liveOwner (p : Peers) (elapsed zone : Nat) : Option OwnerEntry :=
  if h : zone < 64 then
    match p.owners.get ⟨zone, h⟩ with
    | some o => if elapsed < o.heard + 3000 then some o else none
    | none => none
  else none

/-- Settle one remote zone of a request by the owner map (R109). -/
def Peers.settleZone (p : Peers) (elapsed : Nat) (cls : AnnClass) (zone : Nat) : OrigZone :=
  match p.liveOwner elapsed zone with
  | none => ⟨zone, none, .noOwner⟩
  | some o =>
    if o.evac && (cls = .service || cls = .info) then ⟨zone, some o.owner, .dropped (reasonCode .evacActive)⟩
    else ⟨zone, some o.owner, .pending⟩

/-- The owners of a zone list, each once, in list order. -/
def ownersOf (l : List OrigZone) : List Nat :=
  (l.filterMap (·.owner)).foldl (fun acc a => if acc.contains a then acc else acc ++ [a]) []

/-- A segment as an ANNOUNCE carries it (R183). The phrase id bytes of a SILENCE are 0: DESIGN CHOICE, log entry 71. -/
def Segment.raw : Segment → RawSegment
  | .phrase id => ⟨0, id, 0⟩
  | .silence n => ⟨1, 0, n⟩
  | .chime id r => ⟨2, id, r⟩
  | .loop id s => ⟨3, id, s⟩

/-- The ANNOUNCE of a request for its PENDING zones (R110). The bytes of an absent service code and of an absent sync
start are 0: DESIGN CHOICE, log entry 71. -/
def announceOf (version : Nat) (r : SendRequest) (pending : List OrigZone) : AnnounceFrame where
  origin := r.id.origin
  seq := r.id.seq
  cls := classCode r.cls
  libVersion := version
  codePresent := r.key.isSome
  syncPresent := r.syncTime.isSome
  mustSync := false
  code := match r.key with
    | some k => k.code
    | none => 0
  zones := pending.foldl (fun acc z => addZone acc z.zone) 0
  expiryDay := r.day
  expiryTime := r.expiryTime
  syncDay := if r.syncTime.isSome then r.day else 0
  syncTime := r.syncTime.getD 0
  segs := r.segs.map Segment.raw

/-- Settle the remote zones of a request: no frame when none is PENDING; ORIGINATION_FULL when the table holds 16
entries; otherwise an entry and one ANNOUNCE, to the one owner or to all stations (R109, R110). Zones settled at once
are counted: DEDUCED, log entry 27. -/
def Net.originate (e : Env) (version : Nat) (r : SendRequest) (n : Net) : Net :=
  let zones := r.zones.map fun z => n.pau.settleZone e.elapsed r.cls z
  let pending := zones.filter fun z => z.outcome = .pending
  let finals := (zones.filter fun z => z.outcome.final).map (·.outcome)
  let n := n.onPau fun p => { p with counts := p.counts.countOutcomes finals }
  if pending.isEmpty then n
  else if 16 ≤ n.pau.table.length then
    Net.report e .originationFull e.own (n.onPau fun p =>
      { p with counts := { p.counts with originationFull := bumpBy pending.length p.counts.originationFull } })
  else
    let entry : Origination := ⟨r.id, r.key, r.epoch, instantOf r.day r.expiryTime, zones, none, false⟩
    let n := n.onPau fun p => { p with
      table := p.table ++ [entry], counts := { p.counts with announceSent := bump p.counts.announceSent } }
    let dst := match ownersOf pending with
      | [a] => a
      | _ => 31
    n.enqueue e ⟨if r.cls = .alert then 0 else 1, dst, .announce (announceOf version r pending)⟩

/-! ### Withdrawing what this station sent (R114) -/

/-- Withdraw one origination entry: its flag is set, and a WITHDRAW of granularity ANNOUNCEMENT goes to each
owner that holds at least one open zone; an entry whose flag is set is passed over (R114). The owners are taken in the
order of the zone list: DESIGN CHOICE, log entry 58. The fields that the granularity does not use are 0: DESIGN CHOICE,
log entry 71. -/
def Net.withdrawEntry (e : Env) (n : Net) (o : Origination) : Net :=
  if o.withdrawn then n
  else
    let n := n.onPau fun p => p.revise o.id fun o => { o with withdrawn := true }
    (ownersOf (o.zones.filter fun z => !z.outcome.final)).foldl (fun n a =>
      Net.enqueue e ⟨1, a, .withdraw ⟨1, o.id.origin, o.id.seq, 0, 0, 0⟩⟩
        (n.onPau fun p => { p with counts := { p.counts with withdrawSent := bump p.counts.withdrawSent } })) n

/-- Withdraw every selected origination entry (R114), in table order: DESIGN CHOICE, log entry 66. -/
def Net.withdrawAll (e : Env) (sel : Origination → Bool) (n : Net) : Net :=
  (n.pau.table.filter sel).foldl (Net.withdrawEntry e) n

end Sys2Proof.Machine
end

