-- ==== Sys2Proof/Machine/Channels.lean ====
section
/-! DEFINITION. The Clip Fetch Unit: how segments play (R128), reads and the arbiter (R134 to R136), and the
channel allocator with joining and theft (R130 to R133). -/
namespace Sys2Proof.Machine

/-! ### Bodies and runs (R57, R126 to R128) -/

/-- The held body of an id (R66, R73). -/
def Composition.find (c : Composition) (id : AnnId) : Option Body :=
  match c.slots.toList.findSome? fun b => b.filter fun b => b.id = id with
  | some b => some b
  | none => c.evacSlot.filter fun b => b.id = id

/-- The segments a channel plays: those of its body, or the one PHRASE of a probe (R129, R165). -/
def Play.segsOf (p : Play) : Served → List Segment
  | .body id =>
    match p.cmu.find id with
    | some b => b.segs
    | none => []
  | .probe _ phrase => [.phrase phrase]

/-- The phrase a segment names, absent for a SILENCE (R57). -/
def Segment.clip : Segment → Option Nat
  | .phrase id => some id
  | .chime id _ => some id
  | .loop id _ => some id
  | .silence _ => none

/-- The length of a clip in blocks: a count of 0 means 65536 (R126). -/
def clipBlocks (d : DirEntry) : Nat := if d.count = 0 then 65536 else d.count

/-- The loop region, as offset and length: the whole clip when the loop length is 0 or the region runs past
the clip (R126). -/
def loopRegion (d : DirEntry) : Nat × Nat :=
  if d.loopLen = 0 || clipBlocks d < d.loopStart + d.loopLen then (0, clipBlocks d) else (d.loopStart, d.loopLen)

/-- A lookup finds its phrase missing when the read failed, the entry is not present, starts below block 129, or
runs past the store size (R127). -/
def lookupOf (size : Nat) : Option DirEntry → Lookup
  | none => .missing
  | some d => if !d.present || d.start < 129 || size < d.start + clipBlocks d then .missing else .found d

/-- The run of blocks of a segment: the total, the blocks of a whole pass, the passes, and the store block of a
pass's first block when the run is read from the store (R128). -/
structure Run where
  total : Nat
  passLen : Nat
  passes : Nat
  first : Option Nat
  deriving DecidableEq, Repr

/-- A run of zero-valued blocks in one pass. -/
def Run.silence (blocks : Nat) : Run := ⟨blocks, blocks, 1, none⟩

/-- The run of a segment by its directory entry (R128); a missing phrase plays 16 zero-valued blocks (R127). -/
def runOf (s : Segment) (entry : Option Lookup) : Run :=
  match s, entry with
  | .silence n, _ => Run.silence (ceilDiv (25 * n) 8)
  | _, none => Run.silence 16
  | _, some .missing => Run.silence 16
  | .phrase _, some (.found d) => ⟨clipBlocks d, clipBlocks d, 1, some d.start⟩
  | .chime _ r, some (.found d) => ⟨clipBlocks d * r, clipBlocks d, r, some d.start⟩
  | .loop _ sec, some (.found d) =>
    let t := ceilDiv (125 * sec) 2
    let region := loopRegion d
    ⟨t, region.2, ceilDiv t region.2, some (d.start + region.1)⟩

/-- The blocks of one pass: the last pass of a LOOP is cut where its duration ends (R128). -/
def Run.lengthOf (r : Run) (pass : Nat) : Nat := min r.passLen (r.total - pass * r.passLen)

/-- The run a channel is playing. -/
def Play.runAt (p : Play) (c : Channel) : Run :=
  match c.served with
  | some s =>
    match (p.segsOf s)[c.seg]? with
    | some seg => runOf seg c.segEntry
    | none => Run.silence 1
  | none => Run.silence 1

/-- The segment that follows the current one: the next in the body, segment 0 after the last of an EVAC body,
none otherwise (R128, R135). -/
def Play.following (p : Play) (c : Channel) : Option Nat :=
  match c.served with
  | some (.body id) =>
    let n := (p.segsOf (.body id)).length
    if c.seg + 1 < n then some (c.seg + 1) else if c.cls = .evac then some 0 else none
  | _ => none

/-- The block in play is the last of its pass (R128). -/
def Play.lastOfPass (p : Play) (c : Channel) : Bool := (p.runAt c).lengthOf c.pass ≤ c.blk + 1

/-- The pass in play is the last of its segment (R128). -/
def Play.lastPass (p : Play) (c : Channel) : Bool := (p.runAt c).passes ≤ c.pass + 1

/-! ### What a channel needs next (R131, R134, R135) -/

/-- What a channel's next-block place calls for. -/
inductive Want where
  /-- nothing: the place is full, or no block follows -/
  | nothing
  /-- a zero-valued block, ready at once -/
  | zero
  /-- a read of a store block -/
  | block (address : Nat)
  /-- the directory entry that names the block -/
  | entry
  deriving DecidableEq, Repr

/-- The first block of a run that is still to be looked up or read. -/
def wantFirst (s : Segment) (entry : Option Lookup) : Want :=
  match s.clip, entry with
  | none, _ => .zero
  | some _, none => .entry
  | some _, some l =>
    match (runOf s (some l)).first with
    | some a => .block a
    | none => .zero

/-- The block that a channel's next-block place is to take (R131 before the start, R134 after it). -/
def Play.wantBlock (p : Play) (c : Channel) : Want :=
  match c.served, c.next with
  | none, _ => .nothing
  | some _, some _ => .nothing
  | some s, none =>
    match c.state with
    | .free => .nothing
    | .granted => .nothing
    | .preparing =>
      match (p.segsOf s)[0]? with
      | some seg => wantFirst seg c.segEntry
      | none => .zero
    | .playing =>
      let r := p.runAt c
      let at_ (k : Nat) : Want := match r.first with
        | some a => .block (a + k)
        | none => .zero
      if c.blk + 1 < r.lengthOf c.pass then at_ (c.blk + 1)
      else if c.pass + 1 < r.passes then at_ 0
      else
        match p.following c with
        | none => .nothing
        | some k =>
          match (p.segsOf s)[k]? with
          | some seg => wantFirst seg c.nextEntry
          | none => .zero

/-- The phrase whose directory entry a channel is to look up: that of its first segment before it starts, that of
the following segment once half of the current one has begun (R131, R135). -/
def Play.wantEntry (p : Play) (c : Channel) : Option Nat :=
  match c.served with
  | none => none
  | some s =>
    match c.state with
    | .preparing =>
      if c.segEntry.isSome then none else ((p.segsOf s)[0]?).bind Segment.clip
    | .playing =>
      if c.dirWanted && c.nextEntry.isNone then
        match p.following c with
        | some k => ((p.segsOf s)[k]?).bind Segment.clip
        | none => none
      else none
    | _ => none

/-- A block fills the next-block place. A PREPARING channel thereby enters GRANTED, the grant going to its members; the
block boundary already taken is noted, since the channel starts at the next one (R131). -/
def Channel.fill (b : Block) (taken : Nat) (c : Channel) : Channel :=
  if c.state = .preparing then { c with next := some b, state := .granted, boundary := taken }
  else { c with next := some b }

/-- Fill the next-block place where no read is needed (R131). -/
def Play.fillNext (ch : Chan) (p : Play) : Play :=
  if p.wantBlock (p.chan ch) = .zero then p.onChan ch (Channel.fill .zero p.cfu.boundaryAt) else p

/-- The store block that holds the directory entry of a phrase (R125). -/
def directoryBlock (phrase : Nat) : Nat := 1 + phrase / 32

/-- Ask for the one read a channel may have outstanding, the block read before the directory read (R134). -/
def Play.askRead (ch : Chan) (p : Play) : Play :=
  let c := p.chan ch
  if c.read.isSome then p
  else
    match p.wantBlock c with
    | .block a => p.onChan ch fun c => { c with read := some ⟨.block a, c.cls, false⟩ }
    | _ =>
      match p.wantEntry c with
      | some f => p.onChan ch fun c => { c with read := some ⟨.directory f (directoryBlock f), c.cls, false⟩ }
      | none => p

/-! ### The read arbiter (R136) -/

/-- The channels in the order in which the arbiter takes them within one class: counting up from the one after
the last granted, wrapping from 5 to 0 (R136). -/
def arbiterOrder (last : Chan) : List Chan := (List.finRange 6).map fun k => last + 1 + k

/-- The class a waiting channel read is served at, absent when the channel has none: that of the channel (R136). A FREE
channel has no class, and its read, to be discarded, keeps the class it was asked for at: DESIGN CHOICE, log entry 49.
-/
def Clips.readClass (c : Clips) (ch : Chan) : Option AnnClass :=
  let x := c.channels.get ch
  x.read.map fun r => if x.state = .free then r.cls else x.cls

/-- The channel whose read is granted next: the most urgent class, and within it the arbiter's order (R136). -/
def Clips.nextRead (c : Clips) : Option Chan :=
  let order := arbiterOrder c.lastGranted
  [AnnClass.evac, .alert, .service, .info].findSome? fun k => order.find? fun ch => c.readClass ch = some k

/-- Grant the port when it is idle. The header read is at the port from the reset, so it goes first (R125, R136). -/
def Play.grantPort (p : Play) : Play :=
  match p.cfu.port with
  | some _ => p
  | none =>
    match p.cfu.nextRead with
    | some ch => { p with cfu := { p.cfu with port := some (.channel ch), lastGranted := ch } }
    | none => p

/-- Let a channel fill its next-block place, ask for its read, and have the port granted. -/
def Play.pump (ch : Chan) (p : Play) : Play := (p.fillNext ch |>.askRead ch).grantPort

/-! ### The allocator (R130 to R133) -/

/-- The requests of the waiting list in its order: by class, and within a class by their order of arrival (R130). -/
def insertRequest : List ChanRequest → ChanRequest → List ChanRequest
  | [], r => [r]
  | q :: rest, r => if moreUrgent r.cls q.cls then r :: q :: rest else q :: insertRequest rest r

/-- The body a request asks for, absent for a probe. -/
def Served.bodyId : Served → Option AnnId
  | .body id => some id
  | .probe _ _ => none

/-- Two requests may share a channel when they ask for the same body; a probe shares with nothing (R132). -/
def sameBody (a b : Served) : Bool := a.bodyId.isSome && a.bodyId = b.bodyId

/-- The lowest channel that satisfies a test. -/
def Play.findChan (p : Play) (test : Channel → Bool) : Option Chan := allChans.find? fun c => test (p.chan c)

/-- Change the Clip Fetch Unit. -/
def Play.onCfu (p : Play) (f : Clips → Clips) : Play := { p with cfu := f p.cfu }

/-- Assign a FREE channel to a request; every other waiting request for the same body is taken out of the list
and joins; the waiting requests without a victim are to seek again (R131, R133). -/
def Play.assign (ch : Chan) (r : ChanRequest) (p : Play) : Play :=
  let others := p.cfu.waiting.filter fun q => q.serial ≠ r.serial && sameBody q.served r.served
  let left := p.cfu.waiting.filter fun q => q.serial ≠ r.serial && !sameBody q.served r.served
  let marked (q : ChanRequest) : Bool := (p.findChan fun c => c.mark = some q.serial && c.state ≠ .free).isSome
  let p := p.onCfu fun f => { f with
    waiting := left.map fun q => { q with seek := !marked q }
    nextAssign := f.nextAssign + 1
    counts := { f.counts with assigned := bump f.counts.assigned, joined := bumpBy others.length f.counts.joined } }
  let p := p.onChan ch fun c => { Channel.reset with
    state := .preparing
    served := some r.served
    cls := r.cls
    members := others.foldl (fun m q => addOut m q.output) (addOut 0 r.output)
    assigned := p.cfu.nextAssign
    read := c.read
    boundary := c.boundary }
  p.pump ch

/-- A request reaches the allocator: it is joined to a PREPARING or GRANTED channel of its body, or granted a FREE
channel, or enters the waiting list (R130, R132). Of several FREE channels the lowest: DESIGN CHOICE, log entry 22. -/
def Play.newRequest (r : ChanRequest) (p : Play) : Play :=
  let joinable (c : Channel) : Bool :=
    (c.state = .preparing || c.state = .granted) && (c.served.any fun s => sameBody s r.served)
  match p.findChan joinable with
  | some ch =>
    (p.onChan ch fun c => { c with members := addOut c.members r.output }).onCfu fun f =>
      { f with counts := { f.counts with joined := bump f.counts.joined } }
  | none =>
    match p.findChan fun c => c.state = .free with
    | some ch => p.assign ch r
    | none => p.onCfu fun f => { f with waiting := insertRequest f.waiting r }

/-- One channel is newer than another: one that has not started is newer than any that has; unstarted ones rank
by assignment, started ones by start and then by assignment (R133). -/
def newer (a b : Channel) : Bool :=
  match a.start, b.start with
  | none, none => b.assigned < a.assigned
  | none, some _ => true
  | some _, none => false
  | some x, some y => y < x || (x = y && b.assigned < a.assigned)

/-- A channel is eligible as a victim of a class: not FREE, without a release mark, and serving a class less
urgent (R133). -/
def eligibleVictim (cls : AnnClass) (c : Channel) : Bool :=
  c.state ≠ .free && c.mark.isNone && moreUrgent cls c.cls

/-- The victim for a class: of the eligible channels one serving the least urgent class, and among those the
newest (R133). -/
def Play.victim (p : Play) (cls : AnnClass) : Option Chan :=
  (allChans.filter fun ch => eligibleVictim cls (p.chan ch)).foldl (fun best ch =>
    match best with
    | none => some ch
    | some b =>
      let x := p.chan ch
      let y := p.chan b
      if moreUrgent y.cls x.cls || (y.cls = x.cls && newer x y) then some ch else some b) none

/-- No cause of stopping. -/
def StopCause.clear : StopCause := ⟨none, false, false, false, false, false, false⟩

/-- A RENDERING or STOPPING entry takes a stop cause (R87). -/
def Entry.addCause (en : Entry) (f : StopCause → StopCause) : Entry :=
  match en.state with
  | .rendering => { en with state := .stopping (f StopCause.clear) }
  | .stopping c => { en with state := .stopping (f c) }
  | .queued => en
  | .starting => en

/-- The entry is being heard (R87). -/
def Entry.sounding (en : Entry) : Bool :=
  match en.state with
  | .rendering => true
  | .stopping _ => true
  | .queued => false
  | .starting => false

/-- Change the entries of a zone that satisfy a test. -/
def Zone.onEntries (z : Zone) (test : Entry → Bool) (f : Entry → Entry) : Zone :=
  { z with queue := z.queue.map fun en => if test en then f en else en }

/-- The members of a channel taken for another are told of the theft: each entry it feeds stops, at the next
block boundary when the taker is EVAC (R90). A probe plays on to its end (R165). -/
def Play.tellTheft (ch : Chan) (taker : AnnClass) (p : Play) : Play :=
  let c := p.chan ch
  match c.served with
  | some (.body id) =>
    (outsOf c.members).foldl (fun p o => p.onZone o fun z =>
      z.onEntries (fun en => en.id = id && en.sounding) fun en => en.addCause fun s =>
        { s with theft := true, atBlock := s.atBlock || taker = .evac }) p
  | _ => p

/-- A channel becomes FREE. A read it has outstanding runs to its completion and is discarded; a release mark
stays for the assignment when a request waits (R129, R131). -/
def Play.freeChan (ch : Chan) (p : Play) : Play :=
  p.onChan ch fun c => { Channel.reset with
    read := c.read.map fun r => { r with discard := true }
    mark := if p.cfu.waiting.isEmpty then none else c.mark
    boundary := c.boundary }

/-- The requests that the members of an unstarted channel make again when it is taken back (R84, R133, R165),
numbered from the next serial. -/
def retakenRequests (c : Channel) (serial : Nat) : List ChanRequest :=
  match c.served with
  | some s => (outsOf c.members).mapIdx fun i o => ⟨serial + i, o, c.cls, s, true⟩
  | none => []

/-- Carry the allocator on until nothing more is to be done: a FREE channel goes to its marked taker or to the
first waiting request; requests made again reach the allocator as new ones; and a request that is to seek
looks for a victim, which is taken back at once when it has not started and marked when it plays (R131, R133). Of several
that are to seek, the first in the waiting list seeks first, after the requests made again have entered it: DESIGN CHOICE,
log entry 73.
The first argument bounds the recursion; each round assigns, enters or ends the seeking of one request. -/
def Play.allocate : Nat → List ChanRequest → Play → Play
  | 0, _, p => p
  | fuel + 1, incoming, p =>
    match p.findChan (fun c => c.state = .free), p.cfu.waiting with
    | some ch, first :: rest =>
      let taker := (first :: rest).find? fun q => (p.chan ch).mark = some q.serial
      Play.allocate fuel incoming (p.assign ch (taker.getD first))
    | _, _ =>
      match incoming with
      | r :: rest => Play.allocate fuel rest (p.newRequest r)
      | [] =>
        match p.cfu.waiting.find? (·.seek) with
        | none => p
        | some w =>
          let p := p.onCfu fun f => { f with waiting := f.waiting.map fun q =>
            if q.serial = w.serial then { q with seek := false } else q }
          match p.victim w.cls with
          | none => Play.allocate fuel [] p
          | some ch =>
            let p := p.onCfu fun f => { f with counts := { f.counts with thefts := bump f.counts.thefts } }
            let marked := p.onChan ch fun c => { c with mark := some w.serial }
            if (p.chan ch).state = .playing then Play.allocate fuel [] (marked.tellTheft ch w.cls)
            else
              let again := retakenRequests (p.chan ch) p.cfu.nextSerial
              Play.allocate fuel again ((marked.freeChan ch).onCfu fun f =>
                { f with nextSerial := f.nextSerial + again.length })

/-- The rounds the allocator may take in one command: more than the eight outputs' requests can need. -/
def allocRounds : Nat := 256

/-- Ask the allocator for a channel (R130). -/
def Play.requestChan (o : Out) (cls : AnnClass) (s : Served) (p : Play) : Play :=
  let r : ChanRequest := ⟨p.cfu.nextSerial, o, cls, s, true⟩
  Play.allocate allocRounds [r] (p.onCfu fun f => { f with nextSerial := f.nextSerial + 1 })

/-- An output leaves a channel; the last to leave frees it, and the allocator carries on (R129, R131). -/
def Play.leaveChan (o : Out) (ch : Chan) (p : Play) : Play :=
  let p := p.onChan ch fun c => { c with members := dropOut c.members o }
  if (p.chan ch).members = 0 then Play.allocate allocRounds [] (p.freeChan ch) else p

/-- The channel that serves something with an output among its members. -/
def Play.chanOf (p : Play) (o : Out) (s : Served) : Option Chan :=
  p.findChan fun c => c.served = some s && c.members.getLsbD o.val

/-- The channel that serves this output's probe (R165). -/
def Play.probeChan (p : Play) (o : Out) : Option Chan :=
  p.findChan fun c => c.members.getLsbD o.val && (c.served.any fun s => s.bodyId.isNone)

/-- An output has a request waiting, or a channel assigned, for something. -/
def Play.hasRequest (p : Play) (o : Out) (s : Served) : Bool :=
  (p.cfu.waiting.any fun q => q.output = o && q.served = s) || (p.chanOf o s).isSome

/-- Withdraw a request, or give its channel back (R130). -/
def Play.withdrawRequest (o : Out) (s : Served) (p : Play) : Play :=
  let p := p.onCfu fun f => { f with waiting := f.waiting.filter fun q => !(q.output = o && q.served = s) }
  match p.chanOf o s with
  | some ch => p.leaveChan o ch
  | none => p

end Sys2Proof.Machine
end

