-- ==== Sys2Proof/Machine/Zones.lean ====
section
/-! DEFINITION. Zone Playout: zone states (R75), references (R69), starting (R82, R83), drops and removal
requests (R93, R94). -/
namespace Sys2Proof.Machine

/-! ### Zone states and the queue order (R75, R78) -/

/-- The zone state of R75, computed from what the zone holds. An output without an owned zone reads OFF unless it
plays an EVAC entry (R105). -/
def Zone.state (z : Zone) : ZoneState :=
  let playing : ZoneState :=
    if z.queue.any Entry.sounding then .rendering
    else if z.queue.any (fun en => en.state = .starting) then .starting
    else .idle
  match z.id with
  | none => if playing = .idle then .off else playing
  | some _ => if z.faulted then .faulted else if z.survey then .survey else playing

/-- A queue is ordered by class and then by arrival: a new entry stands behind those at least as urgent (R78). -/
def insertEntry : List Entry → Entry → List Entry
  | [], en => [en]
  | x :: rest, en => if moreUrgent en.cls x.cls then en :: x :: rest else x :: insertEntry rest en

/-- An entry is held back while evacuation is active, unless it is EVAC (R95). -/
def Play.holds (p : Play) (en : Entry) : Bool := p.evl.active && en.cls ≠ .evac

/-- The sync start instant of an entry, if any, has been reached (R83). -/
def Env.syncReached (e : Env) (en : Entry) : Bool :=
  match en.sync with
  | none => true
  | some i => e.reached i

/-- The expiry instant of an entry has been reached; EVAC entries hold none (R91). -/
def Env.expired (e : Env) (en : Entry) : Bool :=
  match en.expiry with
  | none => false
  | some i => e.reached i

/-- The sync window of a must-sync entry has closed: 2000 ms past its sync start instant (R118). -/
def Env.syncMissed (e : Env) (en : Entry) : Bool :=
  match en.sync with
  | none => false
  | some i => en.mustSync && e.reached (i.plus 2000)

/-- Change the entry of an id in a zone. -/
def Play.onEntry (p : Play) (o : Out) (id : AnnId) (f : Entry → Entry) : Play :=
  p.onZone o fun z => z.onEntries (fun en => en.id = id) f

/-! ### Starting (R81 to R84) -/

/-- A STARTING entry whose sync start instant has been reached asks for a channel (R83). -/
def Play.askChannel (e : Env) (o : Out) (en : Entry) (p : Play) : Play :=
  if e.syncReached en && !p.hasRequest o (.body en.id) then p.requestChan o en.cls (.body en.id) else p

/-- The head entry of an IDLE zone becomes STARTING unless the evacuation hold keeps it back (R82). -/
def Play.startHead (e : Env) (o : Out) (p : Play) : Play :=
  let z := p.zone o
  match z.queue with
  | [] => p
  | en :: _ =>
    if z.faulted || z.survey || (z.queue.any fun x => x.state ≠ .queued) || p.holds en then p
    else (p.onEntry o en.id fun x => { x with state := .starting }).askChannel e o en

/-- A STARTING entry returns to QUEUED, its request withdrawn or its channel given back (R82). It has been reported
QUEUED and nothing since, and is not reported again: DESIGN CHOICE, log entry 59. -/
def Play.unstart (o : Out) (p : Play) : Play :=
  match (p.zone o).queue.find? fun en => en.state = .starting with
  | none => p
  | some en =>
    (p.onEntry o en.id fun x => { x with state := .queued }).withdrawRequest o (.body en.id)

/-! ### References (R69) -/

/-- Change the held general body of an id. -/
def Composition.onBody (c : Composition) (id : AnnId) (f : Body → Body) : Composition :=
  { c with slots := mapIdx c.slots fun _ b => b.map fun b => if b.id = id then f b else b }

/-- Free every general body of count 0 that is not in hand: its slot becomes free and it leaves the allocation
order (R66, R69). -/
def Composition.sweep (c : Composition) : Composition :=
  let gone (b : Body) : Bool := b.refs = 0 && c.inHand ≠ some b.id
  { c with
    slots := mapIdx c.slots fun _ b => b.filter fun b => !gone b
    order := c.order.filter fun i => ((c.slots.get i).any fun b => !gone b) }

/-- A queue entry refers to its body (R69). -/
def Play.addRef (en : Entry) (p : Play) : Play :=
  if en.cls = .evac then
    { p with cmu := { p.cmu with evacSlot := p.cmu.evacSlot.map fun b => { b with refs := b.refs + 1 } } }
  else { p with cmu := p.cmu.onBody en.id fun b => { b with refs := b.refs + 1 } }

/-- The evacuation slot becomes empty at count 0, and then, evacuation having been released, the evacuation id
in use becomes absent (R73, R175). -/
def Play.sweepEvac (p : Play) : Play :=
  match p.cmu.evacSlot with
  | some b =>
    if b.refs = 0 then
      { p with
        cmu := { p.cmu with evacSlot := none }
        evl := { p.evl with idInUse := if p.evl.active then p.evl.idInUse else none } }
    else p
  | none => p

/-- A queue entry no longer refers to its body, which is freed at count 0 (R69). -/
def Play.releaseRef (en : Entry) (p : Play) : Play :=
  if en.cls = .evac then
    Play.sweepEvac { p with
      cmu := { p.cmu with evacSlot := p.cmu.evacSlot.map fun b => { b with refs := b.refs - 1 } } }
  else { p with cmu := (p.cmu.onBody en.id fun b => { b with refs := b.refs - 1 }).sweep }

/-! ### Leaving the queue (R77, R94, R104) -/

/-- A drop is counted under its reason (R104). The reasons of the Peer Announcement Unit and the Composition Unit
have their counts there. -/
def ZpcCounts.countDrop (c : ZpcCounts) : DropReason → ZpcCounts
  | .withdrawn => { c with withdrawn := bump c.withdrawn }
  | .expired => { c with expired := bump c.expired }
  | .preempted => { c with preempted := bump c.preempted }
  | .queueFull => { c with queueFull := bump c.queueFull }
  | .noBody => c
  | .displaced => { c with displaced := bump c.displaced }
  | .zoneFault => { c with zoneFault := bump c.zoneFault }
  | .syncMissed => { c with syncMissed := bump c.syncMissed }
  | .libraryMismatch => c
  | .callEnded => { c with callEnded := bump c.callEnded }
  | .evacActive => c
  | .restart => { c with restart := bump c.restart }
  | .notOwned => { c with notOwned := bump c.notOwned }

/-- Count a drop (R104). -/
def Play.countDrop (r : DropReason) (p : Play) : Play :=
  { p with zpc := { p.zpc with counts := p.zpc.counts.countDrop r } }

/-- Tell the Peer Announcement Unit an outcome of a REMOTE entry, under its reported zone (R94, R117). -/
def Play.tellEntry (en : Entry) (o : Outcome) (p : Play) : Play :=
  match en.origin with
  | .remote _ => p.onNet (Net.tell en.id en.cls en.reported o)
  | _ => p

/-- A drop is counted, and for a REMOTE entry reported, unless its reason is RESTART (R94, R103, R104). -/
def Play.noteDrop (en : Entry) (r : DropReason) (p : Play) : Play :=
  let p := p.countDrop r
  if r = .restart then p else p.tellEntry en (.dropped (reasonCode r))

/-- An entry that ends DONE is counted, and reported for a REMOTE entry (R86, R104). -/
def Play.noteDone (en : Entry) (p : Play) : Play :=
  let c := p.zpc.counts
  Play.tellEntry en .done { p with zpc := { p.zpc with counts := { c with done := bump c.done } } }

/-- Take an entry out of its queue and lower its body's count (R77). -/
def Play.takeOut (o : Out) (en : Entry) (p : Play) : Play :=
  (p.onZone o fun z => { z with queue := z.queue.filter fun x => x.id ≠ en.id }).releaseRef en

/-- A QUEUED or STARTING entry leaves the queue, its request withdrawn and the leaving noted; the zone of a STARTING
entry becomes IDLE, so its head may start (R94). -/
def Play.leaveWaiting (e : Env) (o : Out) (en : Entry) (note : Play → Play) (p : Play) : Play :=
  let p := note ((p.withdrawRequest o (.body en.id)).takeOut o en)
  if en.state = .starting then p.startHead e o else p

/-- Drop a QUEUED or STARTING entry (R94). -/
def Play.dropWaiting (e : Env) (o : Out) (r : DropReason) (p : Play) (en : Entry) : Play :=
  p.leaveWaiting e o en fun p => p.noteDrop en r

/-- A drop reason given to a stop cause: it replaces PREEMPT, THEFT and EVAC_END, and a drop reason already held is
kept (R87). -/
def StopCause.giveDrop (r : DropReason) (c : StopCause) : StopCause :=
  match c.drop with
  | some _ => c
  | .none => { c with drop := some r, preempt := false, theft := false, evacEnd := false }

/-- The entries that a request selects in a zone and that wait, QUEUED ones first, so that no entry of the
selection starts while the selection is being settled. -/
def Zone.waiting (z : Zone) (sel : Entry → Bool) : List Entry :=
  (z.queue.filter fun en => sel en && en.state = .queued) ++
    (z.queue.filter fun en => sel en && en.state = .starting)

/-- Settle a removal request in one zone: waiting entries are dropped; sounding ones are put in STOPPING with the
reason, or left to play with their stale mark set (R93). -/
def Play.removeIn (e : Env) (sel : Entry → Bool) (r : DropReason) (stop : Bool) (p : Play) (o : Out) : Play :=
  let p := ((p.zone o).waiting sel).foldl (Play.dropWaiting e o r) p
  p.onZone o fun z => z.onEntries (fun en => sel en && en.sounding) fun en =>
    if stop then en.addCause (StopCause.giveDrop r) else { en with stale := true }

/-- Settle a removal request in every zone (R93), one output after the other in ascending number: DESIGN CHOICE, log
entry 67. -/
def Play.removeAll (e : Env) (sel : Entry → Bool) (r : DropReason) (stop : Bool) (p : Play) : Play :=
  allOuts.foldl (Play.removeIn e sel r stop) p

/-- An entry STOPPING with a drop reason already (R87). -/
def Entry.dropHeld (en : Entry) : Bool :=
  match en.state with
  | .stopping c => c.drop.isSome
  | _ => false

/-- The number of entries a withdrawal removes or puts in STOPPING (R93, R120). An entry with an earlier drop reason
is not counted: DEDUCED, log entry 32. -/
def Play.countSelected (p : Play) (sel : Out → Entry → Bool) : Nat :=
  (allOuts.map fun o => ((p.zone o).queue.filter fun en => sel o en && !en.dropHeld).length).sum

end Sys2Proof.Machine
end

