-- ==== Sys2Proof/Machine/Survey.lean ====
section
/-! DEFINITION. The Voicing Survey Unit: starting, phases, scoring, completion and abort of a survey, and the
automatic attempts (R163 to R169). -/
namespace Sys2Proof.Machine

/-- Change the counts of the Voicing Survey Unit. -/
def Play.onSurveyCounts (p : Play) (f : SurveyCounts → SurveyCounts) : Play :=
  { p with vsu := { p.vsu with counts := f p.vsu.counts } }

/-- Change the working values of a running survey. -/
def Play.onWork (p : Play) (o : Out) (f : SurveyWork → SurveyWork) : Play :=
  p.onSurvey o fun v => { v with work := v.work.map f }

/-- The curve a probe renders with: that in force for the start probe, the candidate's own otherwise (R164, R166). -/
def Survey.probeCurve (v : Survey) : ProbeIndex → Nat
  | .active => v.curve
  | .candidate i =>
    match v.candidates[i]? with
    | some c => c.curve
    | none => 0

/-- The survey's zone is given back: no survey runs, the discard mark is set, and the head may start (R102, R167). -/
def Play.releaseZone (e : Env) (o : Out) (p : Play) : Play :=
  let p := p.onSurvey o fun v => { v with phase := .none, work := none }
  let p := p.onZone o fun z => { z with survey := false }
  (p.onLevel o fun l => { l with discard := true }).startHead e o

/-- The output leaves its probe channel and carries silence (R165). -/
def Play.leaveProbe (o : Out) (p : Play) : Play :=
  let p := p.onLevel o fun l => { l with out := .zero }
  match p.probeChan o with
  | some ch => p.leaveChan o ch
  | none => p

/-- A probe is rendering: its channel has started and its end has not come (R165). -/
def Survey.rendering (v : Survey) : Bool := v.phase = .probe && (v.work.any fun w => w.probeStart.isSome)

/-- Abort a survey (R168). The first cause gives the record its reason and the count; a later cause may only bring the
release forward. The zone is released at once, at the end of the probe (ITEM_QUEUED) or at the next block boundary
while a probe renders; a FAULTED zone is always released at once. When the record is written: DEDUCED, log entry 38.
-/
def Play.abortSurvey (e : Env) (o : Out) (reason : AbortReason) (p : Play) : Play :=
  let v := p.surveyAt o
  match v.work with
  | none => p
  | some w =>
    match w.abort with
    | some _ =>
      if reason = .zoneFaulted then p.releaseZone e o
      else if reason = .itemQueued || reason = .noChannel then p
      else p.onWork o fun w => { w with abort := some .blockBoundary }
    | none =>
      let record : SurveyRecord :=
        ⟨.aborted, some reason, some w.begun, some w.starter, w.nb, w.probes, none, none⟩
      let p := (p.onSurvey o fun v => { v with record := record }).onSurveyCounts fun c =>
        { c with aborted := bump c.aborted }
      let p := if v.phase = .probe && !v.rendering then p.withdrawRequest o (.probe o v.params.probe) else p
      if v.rendering && reason ≠ .zoneFaulted then
        p.onWork o fun w =>
          { w with abort := some (if reason = .itemQueued then .probeEnd else .blockBoundary) }
      else p.releaseZone e o

/-- A survey may start: RUNNING, an owned zone that is IDLE with an empty queue, evacuation not active (R163). -/
def Play.surveyAllowed (e : Env) (p : Play) (o : Out) : Bool :=
  e.running && (p.zone o).id.isSome && (p.zone o).state = .idle && (p.zone o).queue.isEmpty && !p.evl.active

/-- Start a survey: the zone is put in SURVEY and the survey enters BASELINE with its working values afresh; a
pending retry ends (R163). -/
def Play.beginSurvey (e : Env) (o : Out) (starter : SurveyStarter) (p : Play) : Play :=
  let work : SurveyWork :=
    { begun := e.now, starter := starter, entered := e.elapsed, levels := [], nb := none, bestScore := none,
      best := none, bestLp := 0, misses := 0, nextIndex := (p.surveyAt o).params.start, current := .active,
      asked := 0, probeStart := none, probeEnd := none, probes := [], abort := none }
  let p := p.onSurvey o fun v => { v with phase := .baseline, work := some work, retryAt := none }
  (p.onZone o fun z => { z with survey := true }).onSurveyCounts fun c => { c with started := bump c.started }

/-- Enter PROBE for an index and ask for a channel with a request of class INFO (R165). -/
def Play.enterProbe (e : Env) (o : Out) (i : ProbeIndex) (p : Play) : Play :=
  let p := p.onSurvey o fun v => { v with phase := .probe }
  let p := p.onWork o fun w =>
    { w with current := i, asked := e.elapsed, probeStart := none, probeEnd := none, levels := [] }
  p.requestChan o .info (.probe o (p.surveyAt o).params.probe)

/-- The survey is complete: IMPROVED with the best candidate's index and its P, or KEPT (R167). -/
def Play.completeSurvey (e : Env) (o : Out) (p : Play) : Play :=
  let v := p.surveyAt o
  match v.work with
  | none => p
  | some w =>
    let record (out : SurveyOutcome) (best : Option Nat) (offset : Option Int) : SurveyRecord :=
      ⟨out, none, some w.begun, some w.starter, w.nb, w.probes, best, offset⟩
    let p := match w.best with
      | some (.candidate i) =>
        let offset := clampInt (-16) 15 ((v.params.tref : Int) - ((w.bestLp : Int) - (w.nb.getD 0 : Int)))
        (p.onSurvey o fun v =>
          { v with preset := some i, offset := offset, record := record .improved (some i) (some offset) }).onSurveyCounts
          fun c => { c with improved := bump c.improved }
      | _ =>
        (p.onSurvey o fun v => { v with record := record .kept none none }).onSurveyCounts
          fun c => { c with kept := bump c.kept }
    p.releaseZone e o

/-- The first valid candidate at or above an index, up to 15 (R166). -/
def nextCandidate (l : List Candidate) (start : Nat) : Option Nat :=
  (List.range 16).find? fun i => start ≤ i && (l[i]?.any fun c => c.valid)

/-- Seek the next candidate: it is probed, or the search stops and the survey is complete (R166, R167). -/
def Play.seekCandidate (e : Env) (o : Out) (p : Play) : Play :=
  let v := p.surveyAt o
  match v.work with
  | none => p
  | some w =>
    match nextCandidate v.candidates w.nextIndex with
    | some i => (p.onWork o fun w => { w with nextIndex := i + 1 }).enterProbe e o (.candidate i)
    | none => p.completeSurvey e o

/-- The score of a probe (R166). -/
def probeScore (q : SurveyParams) (nb lp lt : Nat) : Int :=
  (q.a : Int) * ((lp : Int) - nb - q.b) + (16 - (q.a : Int)) * ((q.c : Int) - ((lt : Int) - nb))

/-- The floor of the mean of a list of level codes. -/
def meanLevel (l : List Nat) : Nat := l.sum / l.length

/-- Lp from the probe windows: their mean without the first, the one there is, or Nb (R165). -/
def probeLevel (nb : Nat) : List Nat → Nat
  | [] => nb
  | [l] => l
  | _ :: rest => meanLevel rest

/-- The TAIL window has ended: the probe is scored and listed, the best updated, and the search goes on or stops
(R165, R166). -/
def Play.scoreProbe (e : Env) (o : Out) (lt : Nat) (p : Play) : Play :=
  let v := p.surveyAt o
  match v.work with
  | none => p
  | some w =>
    let nb := w.nb.getD 0
    let lp := probeLevel nb w.levels
    let score := probeScore v.params nb lp lt
    let better : Bool := match w.bestScore with
      | some b => b < score
      | none => true
    let misses := if better then 0 else w.misses + 1
    let p := p.onWork o fun w => { w with
      probes := w.probes ++ [⟨w.current, v.probeCurve w.current, lp, lt, score⟩]
      bestScore := if better then some score else w.bestScore
      best := if better then some w.current else w.best
      bestLp := if better then lp else w.bestLp
      misses := misses }
    if v.params.lookBeyond < misses then p.completeSurvey e o else p.seekCandidate e o

/-- A meter window that ends now is handed to the survey of its zone (R141, R164, R165). It began 128 ms ago. A survey
that starts between two block boundaries is measured from that millisecond: DESIGN CHOICE, log entry 51. -/
def Play.surveyWindow (e : Env) (o : Out) (level : Nat) (p : Play) : Play :=
  let v := p.surveyAt o
  match v.work with
  | none => p
  | some w =>
    match v.phase with
    | .none => p
    | .baseline =>
      if w.entered + 128 ≤ e.elapsed then
        let levels := w.levels ++ [level]
        if levels.length < 4 then p.onWork o fun w => { w with levels := levels }
        else (p.onWork o fun w => { w with levels := [], nb := some (meanLevel levels) }).enterProbe e o .active
      else p
    | .probe =>
      if w.probeStart.any fun t => t < e.elapsed then p.onWork o fun w => { w with levels := w.levels ++ [level] }
      else p
    | .tail =>
      match w.probeEnd with
      | none => p
      | some t =>
        if t = e.elapsed && (w.probeStart.any fun t => t < e.elapsed) then
          p.onWork o fun w => { w with levels := w.levels ++ [level] }
        else if t + 128 ≤ e.elapsed then p.scoreProbe e o level
        else p

/-- The probe's channel starts: the probe begins, at the survey gain with its curve (R152, R165). -/
def Play.startProbe (e : Env) (o : Out) (p : Play) : Play :=
  let v := p.surveyAt o
  match v.work with
  | none => p
  | some w => (p.onWork o fun w => { w with probeStart := some e.elapsed }).gainAtProbe e o (v.probeCurve w.current)

/-- The probe ends at its phrase boundary: the channel is left, and the survey enters TAIL, or its zone is released
when an abort waits (R165, R168). -/
def Play.endProbe (e : Env) (o : Out) (p : Play) : Play :=
  let v := p.surveyAt o
  let p := p.leaveProbe o
  match v.phase, v.work with
  | .probe, some w =>
    if w.abort.isSome then p.releaseZone e o
    else (p.onSurvey o fun v => { v with phase := .tail }).onWork o fun w => { w with probeEnd := some e.elapsed }
  | _, _ => p

/-- A rendering probe is to be cut at this block boundary: its abort waits for it, or its survey has ended (R168). -/
def Survey.cutNow (v : Survey) : Bool :=
  v.phase ≠ .probe || (v.work.any fun w => w.abort = some .blockBoundary)

/-- Cut a rendering probe at a block boundary, releasing its zone when its survey still holds it (R168). -/
def Play.cutProbe (e : Env) (o : Out) (p : Play) : Play :=
  let v := p.surveyAt o
  let p := p.leaveProbe o
  if v.phase = .probe then p.releaseZone e o else p

/-! ### Automatic surveys (R163) -/

/-- An automatic attempt: the survey starts, or the retry becomes pending (R163). -/
def Play.attemptAuto (e : Env) (o : Out) (p : Play) : Play :=
  if p.surveyAllowed e o then p.beginSurvey e o .automatic
  else p.onSurvey o fun v => { v with retryAt := some e.elapsed }

/-- A pending retry ends refused: the record becomes REFUSED with no levels (R163). It holds no "Started by": DESIGN
CHOICE, log entry 50. -/
def Play.refuseAuto (p : Play) (o : Out) : Play :=
  if (p.surveyAt o).retryAt.isSome then
    (p.onSurvey o fun v =>
      { v with retryAt := none, record := { SurveyRecord.never with outcome := .refused } }).onSurveyCounts
      fun c => { c with refusedAuto := bump c.refusedAuto }
  else p

/-- The whole-second signal at the Voicing Survey Unit: an automatic survey is attempted when the clock minute becomes
the zone's automatic minute (R163). The first signal enters its minute: DEDUCED, log entry 36. The zones are taken in
ascending output number: DESIGN CHOICE, log entry 76. -/
def Play.surveySecond (e : Env) (p : Play) : Play :=
  let minute := clockMinute e.dayStart e.now.time
  let due (p : Play) (o : Out) : Bool :=
    e.running && (p.zone o).id.isSome && (p.surveyAt o).params.auto && (p.surveyAt o).params.autoMinute = minute &&
      p.vsu.lastMinute ≠ some minute
  let p := allOuts.foldl (fun q o => if due p o then q.attemptAuto e o else q) p
  { p with vsu := { p.vsu with lastMinute := some minute } }

end Sys2Proof.Machine
end

