-- ==== Sys2Proof/Machine/Admission.lean ====
section
/-! DEFINITION. Admission (R79, R80), preemption at admission (R88), and the faulted zones with their moves to the
fallback (R96 to R100). -/
namespace Sys2Proof.Machine

/-- A new entry for an offer: QUEUED at segment 0, pass 0, its replay allowance by its class (R77, R79). -/
def newEntry (id : AnnId) (cls : AnnClass) (origin : Origin) (key : Option ServiceKey) (epoch : Option (BitVec 8))
    (sync : Option Instant) (mustSync : Bool) (expiry : Option Instant) (zone : Nat) : Entry where
  id := id
  cls := cls
  origin := origin
  key := key
  epoch := epoch
  order := 0
  sync := sync
  mustSync := mustSync
  expiry := expiry
  allowance := if cls = .service || cls = .alert then 1 else 0
  state := .queued
  seg := 0
  pass := 0
  stale := false
  reported := zone

/-- A sounding entry less urgent than a new head is preempted: a RENDERING one takes PREEMPT, and the stop of any is
brought forward to the next block boundary when the newcomer is EVAC (R87, R88). -/
def Entry.preemptBy (cls : AnnClass) (en : Entry) : Entry :=
  if moreUrgent cls en.cls then
    match en.state with
    | .rendering => { en with state := .stopping { StopCause.clear with preempt := true, atBlock := cls = .evac } }
    | .stopping c => { en with state := .stopping { c with atBlock := c.atBlock || cls = .evac } }
    | .queued => en
    | .starting => en
  else en

/-- What a new entry does when it is the head of its zone: a less urgent STARTING entry returns to QUEUED, a less
urgent sounding one is preempted, and the head starts when its zone is IDLE (R82, R88). -/
def Play.headArrived (e : Env) (o : Out) (en : Entry) (p : Play) : Play :=
  match (p.zone o).queue with
  | [] => p
  | h :: _ =>
    if h.id = en.id then
      let p := if (p.zone o).queue.any fun x => x.state = .starting && moreUrgent en.cls x.cls then p.unstart o else p
      (p.onZone o fun z => z.onEntries (fun x => x.id ≠ en.id) (Entry.preemptBy en.cls)).startHead e o
    else p

/-- An entry enters a zone's queue in the order of R78; a survey of the zone is told of it (R79, R102). -/
def Play.enterZone (e : Env) (o : Out) (en : Entry) (p : Play) : Play :=
  let p := p.onZone o fun z =>
    { z with
      queue := insertEntry z.queue { en with order := z.nextOrder, state := .queued, seg := 0, pass := 0 }
      nextOrder := z.nextOrder + 1 }
  let p := if (p.zone o).survey then
      p.abortSurvey e o (if en.cls = .evac then .evacuation else .itemQueued)
    else p
  p.headArrived e o en

/-- The entry that a full queue gives up: its last QUEUED entry, the least urgent and latest (R80). -/
def Zone.leastQueued (z : Zone) : Option Entry := (z.queue.filter fun x => x.state = .queued).getLast?

/-- Tests 4 to 6 of R79: an expired offer and one that finds no room in a full queue are refused, and any other enters
the queue, in the place of the least urgent QUEUED entry where the queue is full (R80). What is told and counted at an
admission and at a refusal is the caller's: an offer and a moved entry differ there. -/
def Play.settleOffer (e : Env) (o : Out) (en : Entry) (welcome : Play → Play) (refuse : DropReason → Play → Play)
    (p : Play) : Play :=
  if e.expired en then refuse .expired p
  else if 8 ≤ (p.zone o).queue.length then
    match (p.zone o).leastQueued with
    | some x =>
      if moreUrgent en.cls x.cls then (welcome (p.dropWaiting e o .displaced x)).enterZone e o en
      else refuse .queueFull p
    | none => refuse .queueFull p
  else (welcome p).enterZone e o en

/-- An offer at a zone that is not FAULTED: taken, its reference is counted and QUEUED told; refused, it is dropped with
its reason (R79). -/
def Play.settleNew (e : Env) (o : Out) (en : Entry) (p : Play) : Play :=
  p.settleOffer e o en (fun p => (p.addRef en).tellEntry en .queued) fun r p => p.noteDrop en r

/-- The fallback of a zone for one entry: the configured output, carrying an owned zone that is not FAULTED and
whose queue does not hold the id (R97). -/
def Play.fallback (e : Env) (p : Play) (o : Out) (id : AnnId) : Option (Out × Nat) :=
  match e.zoneCfg o with
  | none => none
  | some c =>
    match c.fallback with
    | none => none
    | some f =>
      match (p.zone f).id with
      | none => none
      | some z =>
        if (p.zone f).faulted || (p.zone f).queue.any fun x => x.id = id then none else some (f, z)

/-- Move an entry of a faulted zone to the zone's fallback: REDIRECTED is told under the zone it was reported under, and
every later outcome, a refusal at the fallback among them, under the fallback's; its reference is lowered by a drop
alone. Without a qualifying fallback it is dropped with ZONE_FAULT, and with CALL_ENDED when its stale mark is set (R98,
R99). -/
def Play.moveAway (e : Env) (o : Out) (en : Entry) (p : Play) : Play :=
  let drop (en : Entry) (r : DropReason) (p : Play) : Play := (p.releaseRef en).noteDrop en r
  if en.stale then drop en .callEnded p
  else
    match p.fallback e o en.id with
    | some (f, z) =>
      let there := { en with reported := z }
      (p.tellEntry en (.redirected z)).settleOffer e f there id (drop there)
    | none => drop en .zoneFault p

/-- Settle an offer to a FAULTED zone as a move: one that the fallback takes is told REDIRECTED in place of QUEUED and is
a new reference; one that no fallback takes is dropped with ZONE_FAULT (R100). Its count stands under that reason:
DEDUCED, log entry 34. -/
def Play.redirect (e : Env) (o : Out) (en : Entry) (p : Play) : Play :=
  let refuse (p : Play) : Play := p.noteDrop en .zoneFault
  match p.fallback e o en.id with
  | some (f, z) =>
    let there := { en with reported := z }
    p.settleOffer e f there (fun p => (p.addRef there).tellEntry en (.redirected z)) fun _ p => refuse p
  | none => refuse p

/-- Settle an offer to one output by the tests of R79. Before RUNNING an output takes an EVAC offer as an owned zone
in IDLE would, unless its line is down (R105). -/
def Play.offer (e : Env) (o : Out) (en : Entry) (p : Play) : Play :=
  let z := p.zone o
  match z.id with
  | none =>
    if e.running || en.cls ≠ .evac then p.noteDrop en .notOwned
    else if z.queue.any fun x => x.id = en.id then p
    else if p.lineDown o then p.noteDrop en .zoneFault
    else p.settleNew e o en
  | some _ =>
    if z.queue.any fun x => x.id = en.id then p
    else if z.faulted then p.redirect e o en
    else p.settleNew e o en

/-- A line has validated SHORT or OPEN. An owned zone enters FAULTED: its survey ends, a sounding entry is to stop at
the next block boundary with FAULT, and the waiting entries are moved in queue order (R96, R98). Before RUNNING an
output drops its EVAC entry with ZONE_FAULT (R105). -/
def Play.faultZone (e : Env) (o : Out) (p : Play) : Play :=
  let z := p.zone o
  match z.id with
  | none =>
    let p := (z.waiting fun _ => true).foldl (Play.dropWaiting e o .zoneFault) p
    p.onZone o fun z => z.onEntries Entry.sounding fun en => en.addCause fun c =>
      { c.giveDrop .zoneFault with atBlock := true }
  | some _ =>
    if z.faulted then p
    else
      let p := p.onZone o fun z => { z with faulted := true }
      let p := p.abortSurvey e o .zoneFaulted
      let p := if z.queue.any Entry.sounding then p.onLevel o fun l => { l with discard := true } else p
      let p := p.onZone o fun z => z.onEntries Entry.sounding fun en => en.addCause fun c =>
        { c with fault := true, atBlock := true }
      let waiting := (p.zone o).queue.filter fun en => !en.sounding
      waiting.foldl (fun p en =>
        let p := (p.withdrawRequest o (.body en.id)).onZone o fun z =>
          { z with queue := z.queue.filter fun x => x.id ≠ en.id }
        p.moveAway e o en) p

end Sys2Proof.Machine
end

