-- ==== Sys2Proof/Machine/Compose.lean ====
section
/-! DEFINITION. Composition as a function of a template and a call snapshot: conditions (R58), fields (R59 to R62),
the segment limit (R63, R64) and the phrase-id checks (R65). -/
namespace Sys2Proof.Machine

/-- An element's condition flags pass against a snapshot; without a snapshot an element with a flag set is skipped
(R58, R73). -/
def Element.passes (el : Element) (snap : Option CallRec) : Bool :=
  match snap with
  | none => !el.onlyDelayed && el.onlyPresent.isNone
  | some r =>
    (!el.onlyDelayed || 1 ≤ r.delay) &&
      match el.onlyPresent with
      | none => true
      | some .coaches => r.coaches.isSome
      | some .callingPoints => !r.points.isEmpty

/-- How the calling points are rendered: the full list, or the cut form that keeps the first k (R62, R63). -/
inductive PointsForm where
  | full
  | cut (k : Nat)
  deriving DecidableEq, Repr

/-- A list of points with "and" (number base + 123) before the last when there are two or more (R62). -/
def joinPoints (number : Nat) (l : List Nat) : List Nat :=
  if 2 ≤ l.length then l.dropLast ++ [number + 123] ++ l.drop (l.length - 1) else l

/-- The phrase ids of the calling points in a form; the cut form ends in "and other stations" (R62, R63). -/
def pointPhrases (number : Nat) (points : List Nat) : PointsForm → List Nat
  | .full => joinPoints number points
  | .cut k => joinPoints number (points.take k) ++ [number + 122]

/-- The two phrases of a service minute: hour and minute of its clock time (R60). -/
def timePhrases (b : PhraseBases) (dayStart : Nat) (t : Int) : List Nat :=
  let m := clockOfMinute dayStart t
  [b.hour + m / 60, b.minute + m % 60]

/-- The phrase ids that a FIELD element renders from a snapshot (R59 to R62). -/
def fieldPhrases (b : PhraseBases) (dayStart : Nat) (form : PointsForm) (r : CallRec) : CallField → List Nat
  | .platform => [b.platform + r.platform]
  | .timeBooked => timePhrases b dayStart r.booked
  | .timeExpected => timePhrases b dayStart r.expected
  | .place => [r.place]
  | .callingPoints => pointPhrases b.number r.points form
  | .delay =>
    if r.delay < 1 then []
    else if r.delay ≤ 120 then [b.number + r.delay.toNat]
    else [b.number + 121]
  | .coaches =>
    match r.coaches with
    | some n => [b.number + n]
    | none => []
  | .operator => [b.operator + r.operator]

/-- The segments of one element; a FIELD renders no segment without a snapshot (R57, R73). -/
def elementSegments (b : PhraseBases) (dayStart : Nat) (form : PointsForm) (snap : Option CallRec) (el : Element) :
    List Segment :=
  match el.kind with
  | .phrase id => [.phrase id]
  | .silence n => [.silence n]
  | .chime id r => [.chime id r]
  | .toneLoop id s => [.loop id s]
  | .field f =>
    match snap with
    | some r => (fieldPhrases b dayStart form r f).map .phrase
    | none => []

/-- The expansion of a list of elements in list order, with the calling points in one form (R57). -/
def expandAs (b : PhraseBases) (dayStart : Nat) (form : PointsForm) (snap : Option CallRec) (t : List Element) :
    List Segment :=
  (t.filter fun el => el.passes snap).flatMap (elementSegments b dayStart form snap)

/-- What a composition gives: the segments, whether the calling points were cut, and whether the body was (R63, R64). -/
structure Expansion where
  segs : List Segment
  cut : Bool
  overflow : Bool
  deriving DecidableEq, Repr

/-- The largest k below the number given for which the expansion with the cut form of k points fits (R63). -/
def largestCut (fits : Nat → Bool) : Nat → Option Nat
  | 0 => none
  | k + 1 => if fits k then some k else largestCut fits k

/-- Fit an expansion within 24 segments: in full; else with the calling points cut to the largest k that fits; else
cut after its 24th segment (R63, R64). A list cut to k = 0 counts as cut: DEDUCED, log entry 26. -/
def fitTemplate (b : PhraseBases) (dayStart : Nat) (r : CallRec) (t : List Element) : Expansion :=
  let render (form : PointsForm) := expandAs b dayStart form (some r) t
  let listed := (t.filter fun el => el.passes (some r)).any fun el => el.kind = .field .callingPoints
  if (render .full).length ≤ 24 then ⟨render .full, false, false⟩
  else if listed && !r.points.isEmpty then
    match largestCut (fun k => (render (.cut k)).length ≤ 24) r.points.length with
    | some k => ⟨render (.cut k), true, false⟩
    | none => ⟨(render (.cut 0)).take 24, true, true⟩
  else ⟨(render .full).take 24, false, true⟩

/-- The 250 ms silence that replaces a segment whose phrase id is refused (R65). -/
def replacement : Segment := .silence 5

/-- The phrase id of a segment that the checks look at (R65). -/
def Segment.phraseId : Segment → Option Nat
  | .phrase id => some id
  | .chime id _ => some id
  | .loop id _ => some id
  | .silence _ => none

/-- A phrase id in the reserved range 4032..4095 of a SERVICE or INFO body (R65). -/
def reservedFor (cls : AnnClass) (id : Nat) : Bool :=
  4032 ≤ id && id ≤ 4095 && (cls = .service || cls = .info)

/-- The checks of one segment: an id above 4095 is replaced; then a reserved id in a SERVICE or INFO body (R65). -/
def checkSegment (cls : AnnClass) (s : Segment) : Segment :=
  match s.phraseId with
  | some id => if 4095 < id || reservedFor cls id then replacement else s
  | none => s

/-- At least one segment is replaced under the second check (R65). -/
def hasReserved (cls : AnnClass) (l : List Segment) : Bool :=
  l.any fun s => s.phraseId.any fun id => reservedFor cls id

/-- The body of the evacuation announcement: the list expanded with no snapshot, checked as class EVAC, or one
250 ms silence when it renders nothing (R73). -/
def evacSegments (b : PhraseBases) (dayStart : Nat) (l : List Element) : List Segment :=
  let segs := (expandAs b dayStart .full none l).map (checkSegment .evac)
  if segs.isEmpty then [replacement] else segs

/-- The built-in evacuation list: TONE_LOOP(4032, 8 s), PHRASE(4033), SILENCE(20 steps) (R171). -/
def builtInEvac : List Element :=
  [⟨.toneLoop 4032 8, false, none⟩, ⟨.phrase 4033, false, none⟩, ⟨.silence 20, false, none⟩]

/-- The segment that an ANNOUNCE carries, brought into range; a kind above 3 is taken as SILENCE with its argument
(R71, R184). -/
def takeSegment (s : RawSegment) : Segment :=
  if s.kind = 0 then .phrase s.phrase
  else if s.kind = 2 then .chime s.phrase (clampNat 1 8 s.arg)
  else if s.kind = 3 then .loop s.phrase (clampNat 1 60 s.arg)
  else .silence (clampNat 1 40 s.arg)

end Sys2Proof.Machine
end

