-- ==== Sys2Proof/Machine/Evac.lean ====
section
/-! DEFINITION. The Evacuation Logic: assertion (R171), the start gate (R172), re-offers (R174) and release (R175). -/
namespace Sys2Proof.Machine

/-- Change the Evacuation Logic. -/
def Play.onEvl (p : Play) (f : Evac → Evac) : Play := { p with evl := f p.evl }

/-- The entry of class EVAC of a zone, if it holds one. -/
def Zone.evacEntry (z : Zone) : Option Entry := z.queue.find? fun en => en.cls = .evac

/-- The phrase bases in force (R56). Without an accepted image R56 gives none, and they read 0: DESIGN CHOICE, log entry
19. -/
def Env.bases (e : Env) : PhraseBases :=
  match e.image with
  | some i => i.bases
  | none => ⟨0, 0, 0, 0, 0⟩

/-- The evacuation element list for the load state then standing: the configured one in RUNNING, the built-in one
otherwise (R171). -/
def Env.evacList (e : Env) : List Element :=
  match e.image with
  | some i => i.evacList
  | none => builtInEvac

/-- Fill the evacuation slot: a held body is kept; an empty slot takes the expanded list, with the own address and
sequence 0 as its id, and the id in use takes that id (R73, R171, R174). -/
def Play.fillEvac (e : Env) (p : Play) : Play :=
  match p.cmu.evacSlot with
  | some _ => p
  | none =>
    let id : AnnId := ⟨e.own, 0⟩
    let body : Body := ⟨id, .evac, .evac, none, none, evacSegments e.bases e.dayStart e.evacList, 0⟩
    { p with
      cmu := { p.cmu with evacSlot := some body }
      evl := { p.evl with idInUse := some id } }

/-- Offer the EVAC entry to one output: the evacuation id, class and origin EVAC, no expiry, sync start or service
key (R171). -/
def Play.offerEvac (e : Env) (p : Play) (o : Out) : Play :=
  match p.evl.idInUse with
  | some id => p.offer e o (newEntry id .evac .evac none none none false none ((p.zone o).id.getD 0))
  | none => p

/-- The outputs that hold a waiting EVAC entry. -/
def Play.evacWaiting (p : Play) : OutSet :=
  allOuts.foldl (fun m o =>
    if (p.zone o).queue.any fun en => en.cls = .evac && !en.sounding then addOut m o else m) 0

/-- The outputs the Evacuation Logic offers to: those that carry an owned zone in RUNNING, all eight before (R171). -/
def Play.evacTargets (e : Env) (p : Play) : List Out :=
  if e.running then allOuts.filter fun o => (p.zone o).id.isSome else allOuts

/-- The gate of R172: it opens when every counted EVAC entry still held is STARTING with its channel request at the
allocator, and at once when none is left. The block boundary last taken is noted with it. -/
def Play.gateCheck (p : Play) : Play :=
  if !p.evl.gateClosed then p
  else
    let ready (o : Out) : Bool :=
      match (p.zone o).evacEntry with
      | none => true
      | some en => en.state = .starting && p.hasRequest o (.body en.id)
    if (outsOf p.evl.counted).all ready then
      p.onEvl fun v => { v with gateClosed := false, openedAt := some p.cfu.boundaryAt, counted := 0 }
    else p

/-- Offer the EVAC entry again to one zone, the slot having been filled (R174). -/
def Play.reoffer (e : Env) (o : Out) (p : Play) : Play := (p.fillEvac e).offerEvac e o

/-- Offer the EVAC entry to outputs behind the closed gate; the outputs that thereby come to hold a waiting entry
count toward the gate (R172). -/
def Play.offerGated (e : Env) (l : List Out) (p : Play) : Play :=
  let before := p.evacWaiting
  let p := p.onEvl fun v => { v with gateClosed := true }
  let p := l.foldl (Play.offerEvac e) p
  p.onEvl fun v => { v with counted := v.counted ||| (p.evacWaiting &&& ~~~before) }

/-- The evacuation hold begins in one zone: an EVAC entry STOPPING for the release loses EVAC_END and plays on when
no cause is left (R175); a non-EVAC STARTING entry returns to QUEUED, a sounding one stops at the next block
boundary (R95), and a survey is aborted (R168). The zones are taken output by output: DESIGN CHOICE, log entry 61. -/
def Play.holdZone (e : Env) (p : Play) (o : Out) : Play :=
  let resume (en : Entry) : Entry :=
    match en.state with
    | .stopping c =>
      let c := { c with evacEnd := false }
      if { c with atBlock := false } = StopCause.clear then { en with state := .rendering }
      else { en with state := .stopping c }
    | _ => en
  let stop (en : Entry) : Entry :=
    match en.state with
    | .rendering => { en with state := .stopping { StopCause.clear with preempt := true, atBlock := true } }
    | .stopping c => { en with state := .stopping { c with atBlock := true } }
    | _ => en
  let p := p.onZone o fun z => z.onEntries (fun _ => true) fun en => if en.cls = .evac then resume en else stop en
  let p := if (p.zone o).queue.any fun en => en.cls ≠ .evac && en.state = .starting then p.unstart o else p
  p.abortSurvey e o .evacuation

/-- The debounced level becomes asserted (R170, R171): the hold begins, the gate closes, the slot is filled and the
EVAC entry offered in ascending output number. A slot that still holds a body keeps it, and the id in use is then
that body's (log entry 20). -/
def Play.assertEvac (e : Env) (p : Play) : Play :=
  let p := p.onEvl fun v => { v with
    active := true, assertions := bump v.assertions, gateClosed := true, counted := 0, idInUse := some ⟨e.own, 0⟩ }
  let p := allOuts.foldl (Play.holdZone e) p
  let p := p.fillEvac e
  let p := match p.cmu.evacSlot with
    | some b => p.onEvl fun v => { v with idInUse := some b.id }
    | none => p
  p.offerGated e (p.evacTargets e)

/-- The re-offers on entry to RUNNING, to every owned zone; they do not close the gate (R172, R174). The outputs are
taken in ascending number: DESIGN CHOICE, log entry 76. -/
def Play.reofferAll (e : Env) (p : Play) : Play :=
  if p.evl.active then
    let p := p.fillEvac e
    (p.evacTargets e).foldl (Play.offerEvac e) p
  else p

/-- The re-offers when a soft restart has emptied the queues, behind the closed gate (R172, R174). The outputs are taken
in ascending number: DESIGN CHOICE, log entry 76. -/
def Play.reofferRestart (e : Env) (p : Play) : Play :=
  if p.evl.active then
    let p := p.fillEvac e
    p.offerGated e (p.evacTargets e)
  else p

/-- End the EVAC entry of one output: a waiting one is removed DONE, a sounding one takes EVAC_END unless it holds a
drop reason (R87, R93, R175). -/
def Play.endEvac (e : Env) (p : Play) (o : Out) : Play :=
  let p := ((p.zone o).waiting fun en => en.cls = .evac).foldl
    (fun p en => p.leaveWaiting e o en fun p => p.noteDone en) p
  p.onZone o fun z => z.onEntries (fun en => en.cls = .evac && en.sounding) fun en =>
    en.addCause fun c => if c.drop.isSome then c else { c with evacEnd := true }

/-- The debounced level becomes released (R175): the hold ends, every EVAC entry is ended, each zone's discard mark is
set, and the heads that may start do. A slot whose body no entry refers to is emptied (log entry 20). The discard mark
of every output: DEDUCED, log entry 39. The zones are taken in ascending output number: DESIGN CHOICE, log entry 76. -/
def Play.releaseEvac (e : Env) (p : Play) : Play :=
  let p := p.onEvl fun v => { v with active := false }
  let p := allOuts.foldl (Play.endEvac e) p
  let p := { p with lvc := { p.lvc with outs := mapIdx p.lvc.outs fun _ l => { l with discard := true } } }
  let p := p.sweepEvac
  let p := if p.cmu.evacSlot.isNone then p.onEvl fun v => { v with idInUse := none } else p
  allOuts.foldl (fun p o => p.startHead e o) p

/-- A FAULTED zone whose line is up again and that has nothing left to stop returns to IDLE, takes the EVAC entry
while evacuation is active, and its head may start (R101, R174). An output without an owned zone is offered nothing
when its line is up again: DESIGN CHOICE, log entry 52. -/
def Play.recoverZone (e : Env) (o : Out) (p : Play) : Play :=
  let z := p.zone o
  if z.faulted && !p.lineDown o && !z.queue.any Entry.sounding then
    let p := p.onZone o fun z => { z with faulted := false }
    let p := if p.evl.active then p.reoffer e o else p
    p.startHead e o
  else p

end Sys2Proof.Machine
end

