-- ==== Sys2Proof/Machine/Playout.lean ====
section
/-! DEFINITION. What happens at the port and at the block boundaries: read completions (R134 to R138), channel
starts (R131), pass ends (R85, R86), stop points (R88, R89), block advances (R134, R137), and the instants at
which waiting entries are dropped or ask for a channel (R83, R91, R118). -/
namespace Sys2Proof.Machine

/-! ### Block boundaries

Every block boundary falls at the same moment on all outputs. The model takes the multiples of 16 ms of the
reference clock (log entry 10). -/

/-- A block boundary stands now (log entry 10). -/
def Env.atBoundary (e : Env) : Bool := e.elapsed % 16 = 0 && 0 < e.elapsed

/-- A PLAYING channel has a block boundary to go through. -/
def Env.boundaryOpen (e : Env) (c : Channel) : Bool :=
  c.state = .playing && e.atBoundary && c.boundary ≠ e.elapsed

/-- The pass in play is the last of the last segment of what the channel plays (R86). -/
def Play.wholeAfter (p : Play) (c : Channel) : Bool :=
  p.lastPass c && (c.served.all fun s => (p.segsOf s).length ≤ c.seg + 1)

/-- A pass ends at the block boundary standing now: the playing block is the last of its pass, and the block that
follows is ready or none follows. In an underrun the boundary ends no pass (R137). -/
def Play.passEndDue (e : Env) (p : Play) (ch : Chan) : Bool :=
  let c := p.chan ch
  e.boundaryOpen c && !c.passEnded && p.lastOfPass c &&
    (c.next.isSome || (p.lastPass c && (p.following c).isNone))

/-- The entry of an output that a channel feeds. -/
def Play.fedEntry (p : Play) (c : Channel) (o : Out) : Option Entry :=
  match c.served with
  | some (.body id) => (p.zone o).queue.find? fun en => en.id = id
  | _ => none

/-- An entry that stops at the next block boundary (R87). -/
def Entry.stopsAtBlock (en : Entry) : Bool :=
  match en.state with
  | .stopping c => c.atBlock
  | _ => false

/-- An entry in STOPPING. -/
def Entry.isStopping (en : Entry) : Bool :=
  match en.state with
  | .stopping _ => true
  | _ => false

/-- The members of a channel whose entry is at its stop point: the next boundary, or the next block boundary where
the cause calls for that (R87). -/
def Play.stopDue (e : Env) (p : Play) (ch : Chan) : List Out :=
  let c := p.chan ch
  (outsOf c.members).filter fun o =>
    match p.fedEntry c o with
    | none => false
    | some en =>
      if c.passEnded then en.isStopping
      else en.stopsAtBlock && e.boundaryOpen c && !p.passEndDue e ch

/-! ### Leaving a channel and settling (R86 to R89, R101, R103, R174) -/

/-- An entry that a soft restart has reached (R103, R197). -/
def Entry.restarting (en : Entry) : Bool :=
  match en.state with
  | .stopping c => c.restart
  | _ => false

/-- A soft restart is in progress: an entry it reached has not been dropped yet (R197). -/
def Play.restartInProgress (p : Play) : Bool := allOuts.any fun o => (p.zone o).queue.any Entry.restarting

/-- What follows when an entry has ended or stopped in a zone: silence, the note of the block boundary (R83), the
return from FAULTED (R101) or the start of the head (R82), and the re-offers of R174. -/
def Play.afterStop (e : Env) (o : Out) (en : Entry) (p : Play) : Play :=
  let p := (p.onZone o fun z => { z with lastStop := some ⟨e.elapsed, en.order⟩ }).fallSilent e o
  let p := if (p.zone o).faulted then p.recoverZone e o else p.startHead e o
  if !p.evl.active then p
  else if en.restarting then (if p.restartInProgress then p else p.reofferRestart e)
  else if en.cls = .evac && (p.zone o).id.isSome && !(p.zone o).faulted && (p.zone o).evacEntry.isNone then
    p.reoffer e o
  else p

/-- A RENDERING entry, or one STOPPING with PREEMPT or THEFT alone, ends DONE with its body heard whole (R86, R89). -/
def Play.endDone (e : Env) (o : Out) (en : Entry) (p : Play) : Play :=
  (((p.withdrawRequest o (.body en.id)).takeOut o en).noteDone en).afterStop e o en

/-- The PREEMPT test at the stop point: a more urgent entry still stands in the queue, or the evacuation hold
applies (R88). -/
def Play.stillPreempted (p : Play) (o : Out) (en : Entry) : Bool :=
  ((p.zone o).queue.any fun x => x.id ≠ en.id && moreUrgent x.cls en.cls) || p.holds en

/-- A STOPPING entry plays on: PREEMPT is all it holds, and the test of R88 finds it no more. -/
def Play.playsOn (p : Play) (o : Out) (en : Entry) (c : StopCause) : Bool :=
  c.drop.isNone && !c.theft && !c.fault && !c.evacEnd && !p.stillPreempted o en

/-- Settle an entry at its stop point by its stop cause (R89). Causes that come together: DESIGN CHOICE, log entry 33.
-/
def Play.settleStop (e : Env) (o : Out) (en : Entry) (c : StopCause) (p : Play) : Play :=
  let p := p.withdrawRequest o (.body en.id)
  let drop (r : DropReason) : Play := (p.takeOut o en).noteDrop en r
  let p := match c.drop with
    | some r => drop r
    | none =>
      if c.evacEnd then (p.takeOut o en).noteDone en
      else if c.fault then
        (p.onZone o fun z => { z with queue := z.queue.filter fun x => x.id ≠ en.id }).moveAway e o en
      else if en.stale then drop .callEnded
      else if en.allowance = 1 then
        let back : Entry := { en with state := .queued, seg := 0, pass := 0, allowance := 0 }
        let p := (p.onEntry o en.id fun _ => back).tellEntry back .queued
        if e.expired back then p.dropWaiting e o .expired back else p
      else drop .preempted
  p.afterStop e o en

/-! ### Pass ends (R85, R86) -/

/-- A pass ends for one member: a body played whole ends its entry, unless it is EVAC while evacuation is active;
otherwise the entry takes the new position, and the gain of a RENDERING one is computed (R85, R86, R145). -/
def Play.memberPass (e : Env) (c : Channel) (whole : Bool) (seg pass : Nat) (p : Play) (o : Out) : Play :=
  match p.fedEntry c o with
  | none => p
  | some en =>
    let moved (p : Play) : Play := p.onEntry o en.id fun x => { x with seg := seg, pass := pass }
    match en.state with
    | .rendering =>
      if whole && !(en.cls = .evac && p.evl.active) then p.endDone e o en
      else (moved p).computeGain e o en.cls false
    | .stopping s =>
      if !whole then moved p
      else if s.drop.isNone && !s.fault && !s.evacEnd then p.endDone e o en
      else p.settleStop e o en s
    | _ => p

/-- The position after a pass: the next pass, or the following segment at pass 0 with the entry read ahead. -/
def Channel.afterPass (c : Channel) (next : Option Nat) : Channel :=
  match next with
  | none => { c with pass := c.pass + 1, blk := 0, passEnded := true }
  | some seg => { c with
      seg := seg, pass := 0, blk := 0, segEntry := c.nextEntry, nextEntry := none, dirWanted := false, passEnded := true }

/-- The block boundary standing now has been taken: a grant that comes after it waits for the next one (R131).
DESIGN CHOICE, log entry 43: a boundary counts as taken from its first command on. -/
def Play.takeBoundary (e : Env) (p : Play) : Play := p.onCfu fun f => { f with boundaryAt := e.elapsed }

/-- A clip pass ends at a block boundary (R85, R86, R165). The members are taken in ascending output number: DESIGN
CHOICE, log entry 76. -/
def Play.passEnd (e : Env) (ch : Chan) (p : Play) : Play :=
  if !p.passEndDue e ch then p
  else
    let p := p.takeBoundary e
    let c := p.chan ch
    match c.served with
    | none => p
    | some (.probe o _) => p.endProbe e o
    | some (.body _) =>
      let next : Option Nat := if p.lastPass c then some ((p.following c).getD 0) else none
      let p := (outsOf c.members).foldl
        (Play.memberPass e c (p.wholeAfter c) (next.getD c.seg) (if next.isSome then 0 else c.pass + 1)) p
      if (p.chan ch).state = .playing && (p.chan ch).assigned = c.assigned then
        p.onChan ch fun c => c.afterPass next
      else p

/-! ### Stop points (R88, R89) -/

/-- One member reaches its stop point: it plays on, its gain computed where the point is a boundary (R88), or is
settled (R89). -/
def Play.memberStop (e : Env) (c : Channel) (p : Play) (o : Out) : Play :=
  match p.fedEntry c o with
  | none => p
  | some en =>
    match en.state with
    | .stopping s =>
      if p.playsOn o en s then
        let p := p.onEntry o en.id fun x => { x with state := .rendering }
        if c.passEnded then p.computeGain e o en.cls false else p
      else p.settleStop e o en s
    | _ => p

/-- The members of a channel at their stop points are settled (R89), in ascending output number: DESIGN CHOICE, log
entry 76. -/
def Play.stopPoint (e : Env) (ch : Chan) (p : Play) : Play :=
  if (p.stopDue e ch).isEmpty then p
  else (p.stopDue e ch).foldl (Play.memberStop e (p.chan ch)) (p.takeBoundary e)

/-! ### Block advances (R134, R135, R137) -/

/-- Report UNDERRUN once for each member of a channel (R137), in ascending output number: DESIGN CHOICE, log entry
72. -/
def Play.underrunFaults (e : Env) (c : Channel) (p : Play) : Play :=
  (outsOf c.members).foldl (fun p o => p.fault e .underrun (e.faultSource o)) p

/-- The block a channel plays is carried to the outputs of its members. -/
def Play.carryAll (c : Channel) (b : Block) (p : Play) : Play :=
  (outsOf c.members).foldl (fun p o => p.carry o b) p

/-- The blocks of the current segment begun so far reach half of its total: the directory entry of the following
segment is wanted (R135). -/
def Play.halfBegun (p : Play) (c : Channel) : Bool :=
  let r := p.runAt c
  ceilDiv r.total 2 ≤ c.pass * r.passLen + c.blk + 1

/-- A PLAYING channel goes through a block boundary (R134, R137, R168): a probe to be cut is cut; an empty next-block
place is an underrun; otherwise the next block comes into play and the following read is asked for. -/
def Play.blockAdvance (e : Env) (ch : Chan) (p : Play) : Play :=
  let c := p.chan ch
  if !e.boundaryOpen c || p.passEndDue e ch || !(p.stopDue e ch).isEmpty then p
  else
    let p := p.takeBoundary e
    let cut : Option Out := match c.served with
      | some (.probe o _) => if (p.surveyAt o).cutNow then some o else none
      | _ => none
    match cut, c.next with
    | some o, _ => p.cutProbe e o
    | none, none =>
      let p := if c.silent then p else p.underrunFaults e c
      let p := p.onCfu fun f => { f with counts := { f.counts with underruns := bump f.counts.underruns } }
      (p.onChan ch fun c => { c with playing := some .zero, silent := true, boundary := e.elapsed }).carryAll c .zero
    | none, some b =>
      let p := p.onChan ch fun c => { c with
        playing := some b, next := none, silent := false, passEnded := false, boundary := e.elapsed
        blk := if c.passEnded then c.blk else c.blk + 1 }
      let half := p.halfBegun (p.chan ch)
      ((p.onChan ch fun c => { c with dirWanted := c.dirWanted || half }).carryAll c b).pump ch

/-! ### Channel starts (R83, R131, R172) -/

/-- A GRANTED channel starts at the block boundary standing now, unless that boundary was taken before the grant. One
serving the evacuation body needs the gate open, and opened before that boundary was taken (R131, R172). -/
def Play.startDue (e : Env) (p : Play) (ch : Chan) : Bool :=
  let c := p.chan ch
  c.state = .granted && e.atBoundary && c.boundary ≠ e.elapsed &&
    !(c.cls = .evac && (p.evl.gateClosed || p.evl.openedAt = some e.elapsed))

/-- Another entry of the zone ended or stopped at the block boundary standing now, so that the start of this one is
back-to-back (R83, R149). -/
def Zone.backToBack (z : Zone) (e : Env) (en : Entry) : Bool :=
  z.lastStop.any fun m => m.elapsed = e.elapsed && m.order ≠ en.order

/-- One member starts: its entry enters RENDERING at segment 0, pass 0, its sync start instant gone, PLAYING is told
and the gain is computed as for a start back-to-back or from idle (R83, R118, R145, R149). -/
def Play.memberStart (e : Env) (c : Channel) (p : Play) (o : Out) : Play :=
  match p.fedEntry c o with
  | none => p
  | some en =>
    if en.state = .starting then
      let p := p.onEntry o en.id fun x => { x with state := .rendering, seg := 0, pass := 0, sync := none }
      (p.tellEntry en .playing).gainAtStart e o en.cls (!(p.zone o).backToBack e en)
    else p

/-- A channel starts (R131). The members are taken in ascending output number: DESIGN CHOICE, log entry 76. -/
def Play.channelStart (e : Env) (ch : Chan) (p : Play) : Play :=
  if !p.startDue e ch then p
  else
    let p := p.takeBoundary e
    let c := p.chan ch
    let p := match c.served with
      | some (.probe o _) => p.startProbe e o
      | _ => (outsOf c.members).foldl (Play.memberStart e c) p
    let p := p.onChan ch fun c => { c with
      state := .playing, start := some e.elapsed, boundary := e.elapsed, playing := c.next, next := none
      seg := 0, pass := 0, blk := 0 }
    let half := p.halfBegun (p.chan ch)
    ((p.onChan ch fun c => { c with dirWanted := half }).carryAll c (c.next.getD .zero)).pump ch

/-! ### Read completions (R127, R134 to R138) -/

/-- The channel read at the port, of the kind asked for. -/
def Play.portRead (p : Play) (kind : ReadKind → Bool) : Option (Chan × ChanRead) :=
  match p.cfu.port with
  | some (.channel ch) =>
    match (p.chan ch).read with
    | some r => if kind r.kind then some (ch, r) else none
    | none => none
  | _ => none

/-- The read at the port has completed: the port is idle and the channel has no read outstanding (R136). -/
def Play.readDone (ch : Chan) (p : Play) : Play :=
  (p.onChan ch fun c => { c with read := none }).onCfu fun f => { f with port := none }

/-- A read of a block. -/
def ReadKind.isBlock : ReadKind → Bool
  | .block _ => true
  | .directory _ _ => false

/-- A block read that the port reports as failed is counted (R138, R139). -/
def Play.countRead (result : Option (List Int)) (p : Play) : Play :=
  if result.isSome then p
  else p.onCfu fun f => { f with counts := { f.counts with readFailures := bump f.counts.readFailures } }

/-- A block read at the port completes: its block, or zeros for a failed read, fills the next-block place, and a
PREPARING channel enters GRANTED; a read no longer wanted is discarded (R131, R134, R136, R138). Every failed read
reports UNDERRUN, whether or not the channel is inside a run of inserted blocks: DESIGN CHOICE, log entry 53. -/
def Play.blockRead (e : Env) (result : Option (List Int)) (p : Play) : Play :=
  match p.portRead ReadKind.isBlock with
  | none => p
  | some (ch, r) =>
    let p := (p.readDone ch).countRead result
    if r.discard then p.pump ch
    else
      let p := if result.isSome then p else p.underrunFaults e (p.chan ch)
      let b : Block := match result with
        | some samples => .audio samples
        | none => .zero
      (p.onChan ch (Channel.fill b p.cfu.boundaryAt)).pump ch

/-- A directory read at the port completes: the entry is held for the first segment of a PREPARING channel, or as
the next entry of a PLAYING one; a missing phrase is reported and counted (R127, R131, R135, R138). -/
def Play.directoryRead (e : Env) (result : Option DirEntry) (p : Play) : Play :=
  match p.portRead fun k => !k.isBlock with
  | none => p
  | some (ch, r) =>
    let p := p.readDone ch
    if r.discard then p.pump ch
    else
      let found := lookupOf p.cfu.size result
      let phrase := match r.kind with
        | .directory f _ => f
        | .block _ => 0
      let p := if found = .missing then
          (p.fault e .phraseMissing phrase).onCfu fun f =>
            { f with counts := { f.counts with missing := bump f.counts.missing } }
        else p
      (p.onChan ch fun c =>
        if c.state = .playing then { c with nextEntry := some found } else { c with segEntry := some found }).pump ch

/-! ### Instants of waiting entries (R83, R91, R118) -/

/-- Drop in every zone the waiting entries of an id that satisfy a test, one output after the other in ascending number:
DESIGN CHOICE, log entry 67. -/
def Play.dropAllWaiting (e : Env) (sel : Entry → Bool) (r : DropReason) (p : Play) : Play :=
  allOuts.foldl (fun p o => ((p.zone o).waiting sel).foldl (Play.dropWaiting e o r) p) p

/-- The STARTING entries of an id whose sync start instant has been reached ask for a channel (R83), in ascending output
number: DESIGN CHOICE, log entry 22. -/
def Play.syncStart (e : Env) (id : AnnId) (p : Play) : Play :=
  allOuts.foldl (fun p o =>
    match (p.zone o).queue.find? fun en => en.id = id && en.state = .starting with
    | some en => p.askChannel e o en
    | none => p) p

/-! ### The end of a command (R117, R172) -/

/-- A command of the block boundary standing now is due at a channel. -/
def Play.boundaryDue (e : Env) (p : Play) : Bool :=
  allChans.any fun ch => e.boundaryOpen (p.chan ch) || !(p.stopDue e ch).isEmpty || p.startDue e ch

/-- What a command does at its end: the outcomes of a block boundary that has been taken whole are reported, then those
of the command, one ZONE_REPORT for each announcement (R117); and the start gate opens when it may (R172). -/
def Play.finish (e : Env) (p : Play) : Play :=
  let p := if p.boundaryDue e then p else p.onNet (Net.flushHeld e)
  (p.onNet (Net.flush e)).gateCheck

/-- What a command of a block boundary does at its end: its outcomes are held until no command of that boundary is due,
and then reported, the boundary being one event (R117); and the start gate opens when it may (R172). -/
def Play.finishBoundary (e : Env) (p : Play) : Play :=
  let p := p.onNet fun n => n.onPau fun q => { q with held := q.held ++ q.outbox, outbox := [] }
  (if p.boundaryDue e then p else p.onNet (Net.flushHeld e)).gateCheck

end Sys2Proof.Machine
end

