-- ==== Sys2Proof/Machine/Bodies.lean ====
section
/-! DEFINITION. The body store: slots and displacement (R66, R70), sequence numbers (R67), local composition (R68),
remote allocation (R71, R72) and the admission of an ANNOUNCE (R115). -/
namespace Sys2Proof.Machine

/-! ### Slots (R66, R67, R70) -/

/-- Change the Composition Unit. -/
def Play.onCmu (p : Play) (f : Composition → Composition) : Play := { p with cmu := f p.cmu }

/-- Change the counts of the Composition Unit. -/
def Play.onCmuCounts (p : Play) (f : CmuCounts → CmuCounts) : Play :=
  p.onCmu fun c => { c with counts := f c.counts }

/-- The free general slot of lowest number (R66). -/
def Composition.freeSlot (c : Composition) : Option (Fin 32) :=
  (List.finRange 32).find? fun i => (c.slots.get i).isNone

/-- A held general body may be displaced for a class: it is less urgent, and every entry that refers to it is
QUEUED (R70). -/
def Play.displaceable (p : Play) (cls : AnnClass) (b : Body) : Bool :=
  moreUrgent cls b.cls &&
    allOuts.all fun o => (p.zone o).queue.all fun en => en.id ≠ b.id || en.state = .queued

/-- The body to be displaced for a class: of the eligible ones, of the least urgent class, and among those the
newest in the allocation order (R70). -/
def Play.displacementVictim (p : Play) (cls : AnnClass) : Option Body :=
  let eligible := (p.cmu.order.filterMap fun i => p.cmu.slots.get i).filter (p.displaceable cls)
  eligible.foldl (fun best b =>
    match best with
    | none => some b
    | some x => if moreUrgent b.cls x.cls then some x else some b) none

/-- A general slot for a newcomer: a free one, or one made free by displacement (R68, R70, R72). -/
def Play.obtainSlot (e : Env) (cls : AnnClass) (p : Play) : Option (Fin 32) × Play :=
  match p.cmu.freeSlot with
  | some i => (some i, p)
  | none =>
    match p.displacementVictim cls with
    | none => (none, p)
    | some v =>
      let p := (p.removeAll e (fun en => en.id = v.id) .displaced false).onCmuCounts fun c =>
        { c with displaced := bump c.displaced }
      (p.cmu.freeSlot, p)

/-- Hold a body in a slot, the newest in the allocation order, and in hand until its operation ends (R66, R69). -/
def Composition.hold (c : Composition) (i : Fin 32) (b : Body) : Composition :=
  { c with slots := upd c.slots i fun _ => some b, order := c.order ++ [i], inHand := some b.id }

/-- The operation that held a body in hand ends: a body of count 0 is freed (R68, step 9; R72). -/
def Composition.release (c : Composition) : Composition := Composition.sweep { c with inHand := none }

/-- A sequence number is carried by a held body of this station's origin, or by an origination entry (R67). -/
def Play.seqTaken (e : Env) (p : Play) (n : Nat) : Bool :=
  (p.cmu.slots.toList.any fun b => b.any fun b => b.id = ⟨e.own, n⟩) || p.net.pau.table.any fun o => o.id = ⟨e.own, n⟩

/-- The sequence number that a local body takes: the next sequence, passing over those taken (R67). -/
def Play.nextSequence (e : Env) (p : Play) : Nat :=
  (((List.range 2047).map fun k => (p.cmu.nextSeq - 1 + k) % 2047 + 1).find? fun n => !p.seqTaken e n).getD p.cmu.nextSeq

/-! ### Composing a local request (R68) -/

/-- An announcement request of the Trigger Unit (R50): the number of the trigger that issued it, its template, class,
call snapshot, zone set, request time, expiry in milliseconds and sync flag. Its must-sync flag is clear and its
origin LOCAL. -/
structure Request where
  trigger : Fin 32
  template : Nat
  cls : AnnClass
  snap : CallRec
  zones : ZoneSet
  issued : Instant
  expiryMs : Nat
  sync : Bool
  deriving DecidableEq, Repr

/-- The sync start of a request: its request time plus 1500 ms, when its sync flag is set (R52). -/
def Request.syncTime (r : Request) : Option Nat := if r.sync then some (r.issued.time + 1500) else none

/-- The service key of a call (R17, R50). -/
def CallRec.key (r : CallRec) : ServiceKey := ⟨r.code, some r.kind⟩

/-- The body that a request's template gives, with the counts and faults of its expansion: steps 1 to 3 of R68
(R63, R64, R65). -/
def Play.expandRequest (e : Env) (r : Request) (p : Play) : List Segment × Play :=
  let template := match e.image with
    | some i => i.templates[r.template]?.getD []
    | none => []
  let x := fitTemplate e.bases e.dayStart r.snap template
  let p := if x.cut then p.onCmuCounts fun c => { c with truncated := bump c.truncated } else p
  let p := if x.overflow then p.fault e .templateOverflow r.template else p
  let p := if hasReserved r.cls x.segs then p.fault e .reservedPhrase e.own else p
  (x.segs.map (checkSegment r.cls), p)

/-- Offer an announcement to the owned zones of a set, in ascending zone id (R68, R115). -/
def Play.offerZones (e : Env) (zones : ZoneSet) (entry : Nat → Entry) (p : Play) : Play :=
  (zonesOf zones).foldl (fun p z =>
    match e.outOfZone z with
    | some o => p.offer e o (entry z)
    | none => p) p

/-- The zones of a set that this station does not own, ascending. -/
def Env.foreignZones (e : Env) (zones : ZoneSet) : List Nat :=
  (zonesOf zones).filter fun z => (e.outOfZone z).isNone

/-- Compose a local request and hand it out (R68). -/
def Play.compose (e : Env) (r : Request) (p : Play) : Play :=
  let (segs, p) := p.expandRequest e r
  if segs.isEmpty then p.onCmuCounts fun c => { c with empty := bump c.empty }
  else
    match p.obtainSlot e r.cls with
    | (none, p) => p.onCmuCounts fun c => { c with noBody := bump c.noBody }
    | (some slot, p) =>
      let seq := p.nextSequence e
      let id : AnnId := ⟨e.own, seq⟩
      let key := some r.snap.key
      let epoch := some r.snap.epoch
      let p := p.onCmu fun c =>
        { c.hold slot ⟨id, r.cls, .own, key, epoch, segs, 0⟩ with nextSeq := seq % 2047 + 1 }
      let p := p.onCmuCounts fun c => { c with composed := bump c.composed }
      let sync := r.syncTime.map fun t => instantOf r.issued.day t
      let p := p.offerZones e r.zones
        (newEntry id r.cls .own key epoch sync false (some (r.issued.plus r.expiryMs)))
      let foreign := e.foreignZones r.zones
      let p := if foreign.isEmpty then p
        else p.onNet (Net.originate e p.cfu.version
          ⟨id, r.cls, key, epoch, r.issued.day, r.issued.time + r.expiryMs, r.syncTime, segs, foreign⟩)
      p.onCmu Composition.release

/-! ### Remote bodies (R71, R72) -/

/-- What the Composition Unit answers to a remote allocation (R71, R72). -/
inductive RemoteBody where
  | empty
  | noBody
  | body (cls : AnnClass)
  deriving DecidableEq, Repr

/-- The checks of R71 on the segment list of an ANNOUNCE, with their count and fault. -/
def Play.checkRemote (e : Env) (f : AnnounceFrame) (p : Play) : List Segment × Play :=
  let cls := classTaken f.cls
  let p := if 24 < f.segs.length then p.onCmuCounts fun c => { c with remoteCut := bump c.remoteCut } else p
  let segs := (f.segs.take 24).map takeSegment
  let p := if hasReserved cls segs then p.fault e .reservedPhrase f.origin else p
  (segs.map (checkSegment cls), p)

/-- The service key of an ANNOUNCE: its service code, when it carries one (R184). -/
def announceKey (f : AnnounceFrame) : Option ServiceKey :=
  if f.codePresent then (codeOf f.code).map fun c => ⟨c, none⟩ else none

/-- A remote allocation: the body held under the id is handed back with its own class; otherwise a slot is obtained
and a body of count 0 held (R72). A second copy takes the held body's class: DEDUCED, log entry 30. -/
def Play.allocateRemote (e : Env) (f : AnnounceFrame) (p : Play) : RemoteBody × Play :=
  if f.segs.isEmpty then (.empty, p)
  else
    let id : AnnId := ⟨f.origin, f.seq⟩
    let (segs, p) := p.checkRemote e f
    match p.cmu.slots.toList.findSome? fun b => b.filter fun b => b.id = id with
    | some b => (.body b.cls, p.onCmu fun c => { c with inHand := some id })
    | none =>
      match p.obtainSlot e (classTaken f.cls) with
      | (none, p) => (.noBody, p.onCmuCounts fun c => { c with noBody := bump c.noBody })
      | (some slot, p) =>
        let body : Body := ⟨id, classTaken f.cls, .remote f.origin, announceKey f, none, segs, 0⟩
        (.body (classTaken f.cls), p.onCmu fun c => c.hold slot body)

/-! ### Admitting an announcement from another station (R115) -/

/-- Change the counts of the Peer Announcement Unit. -/
def Play.onPauCounts (p : Play) (f : PauCounts → PauCounts) : Play :=
  p.onNet fun n => n.onPau fun q => { q with counts := f q.counts }

/-- Tell one outcome for every zone of a list. -/
def Play.tellZones (f : AnnounceFrame) (zones : List Nat) (o : Outcome) (p : Play) : Play :=
  zones.foldl (fun p z => p.onNet (Net.tell ⟨f.origin, f.seq⟩ (classTaken f.cls) z o)) p

/-- The zones that a singly addressed frame names and this station does not own are reported NOT_OWNED (R115). One that
names no zone at all gives no outcome, and so no report: DESIGN CHOICE, log entry 48. -/
def Play.tellNotOwned (f : AnnounceFrame) (zones : List Nat) (p : Play) : Play :=
  (p.tellZones f zones (.dropped (reasonCode .notOwned))).onPauCounts fun c =>
    { c with notOwned := bumpBy zones.length c.notOwned }

/-- The sync start instant of an ANNOUNCE, when it carries one (R116, R184). -/
def announceSync (f : AnnounceFrame) : Option Instant :=
  if f.syncPresent then some (instantOf f.syncDay f.syncTime) else none

/-- The frame is must-sync and its sync window has closed: 2000 ms past its sync start (R115, R118). -/
def Env.windowClosed (e : Env) (f : AnnounceFrame) : Bool :=
  match announceSync f with
  | some i => f.mustSync && e.reached (i.plus 2000)
  | none => false

/-- Steps 1 to 5 of R115 for the owned zones named, then the NOT_OWNED outcomes. An empty segment list discards the
whole frame without a report. The source byte is not tested (R179), so an ANNOUNCE from outside 1..30 is settled like
another and its report goes to that byte: DESIGN CHOICE, log entry 11. -/
def Play.admitRemote (e : Env) (src : Nat) (f : AnnounceFrame) (owned others : List Nat) (p : Play) : Play :=
  let cls := classTaken f.cls
  let dropAll (r : DropReason) (count : PauCounts → PauCounts) (p : Play) : Play :=
    ((p.tellZones f owned (.dropped (reasonCode r))).onPauCounts count).tellNotOwned f others
  if f.libVersion ≠ p.cfu.version then
    dropAll .libraryMismatch (fun c => { c with libraryMismatch := bumpBy owned.length c.libraryMismatch })
      (p.fault e .libraryMismatch f.origin)
  else if p.evl.active && (cls = .service || cls = .info) then
    dropAll .evacActive (fun c => { c with evacActive := bumpBy owned.length c.evacActive }) p
  else if e.windowClosed f then
    dropAll .syncMissed (fun c => { c with syncMissed := bumpBy owned.length c.syncMissed }) p
  else
    match p.allocateRemote e f with
    | (.empty, p) => p.onPauCounts fun c => { c with emptyAnnounce := bump c.emptyAnnounce }
    | (.noBody, p) => dropAll .noBody (fun c => { c with noBody := bumpBy owned.length c.noBody }) p
    | (.body held, p) =>
      let entry := newEntry ⟨f.origin, f.seq⟩ held (.remote src) (announceKey f) none (announceSync f) f.mustSync
        (some (instantOf f.expiryDay f.expiryTime))
      ((p.offerZones e f.zones entry).onCmu Composition.release).tellNotOwned f others

/-- An ANNOUNCE from another station (R115). -/
def Play.announce (e : Env) (env : Envelope) (f : AnnounceFrame) (p : Play) : Play :=
  let owned := (zonesOf f.zones).filter fun z => (e.outOfZone z).isSome
  let others := if env.dst = 31 then [] else e.foreignZones f.zones
  if env.src = e.own then p
  else if owned.isEmpty then p.tellNotOwned f others
  else
    (p.onPauCounts fun c => { c with announceReceived := bump c.announceReceived }).admitRemote e env.src f owned others

end Sys2Proof.Machine
end

