-- ==== Sys2Proof/Machine/Peers.lean ====
section
/-! DEFINITION. The Peer Announcement Unit's other exchanges: the owner map (R106, R107), ZONE_REPORTs at the
originator (R111), deadlines and retirement (R112, R113), withdrawals from the link (R119, R120) and their
answers (R121). -/
namespace Sys2Proof.Machine

/-! ### The owner map (R106, R107) -/

/-- One zone of a beacon's owned zone set that another station may own: ZONE_OWNER_CONFLICT where a further claimant
holds its place; the lower address has it (R107, step 3). -/
def Net.claimZone (e : Env) (src : Nat) (evac : Bool) (n : Net) (z : Nat) : Net :=
  if h : z < 64 then
    let take (n : Net) : Net := n.onPau fun p =>
      { p with owners := upd p.owners ⟨z, h⟩ fun _ => some ⟨src, e.elapsed, evac⟩ }
    match n.pau.owners.get ⟨z, h⟩ with
    | none => take n
    | some o =>
      if o.owner = src then take n
      else if src < o.owner then take (Net.report e .zoneOwnerConflict z n)
      else Net.report e .zoneOwnerConflict z n
  else n

/-- A beacon of another station at the owner map: the zones it gave up, the claims on this station's zones, and its
other claims, in this order (R107). Within the second and the third step the zones are taken in ascending zone id:
DESIGN CHOICE, log entry 56. A source outside 1..30 is no station and is passed over (log entry 11). -/
def Net.ownerBeacon (e : Env) (src : Nat) (f : BeaconFrame) (n : Net) : Net :=
  if src = e.own || src < 1 || 30 < src then n
  else
    let n := n.onPau fun p =>
      { p with owners := mapIdx p.owners fun z o => o.filter fun o => !(o.owner = src && !f.zones.getLsbD z.val) }
    let own (z : Nat) : Bool := (e.outOfZone z).isSome
    let n := ((zonesOf f.zones).filter own).foldl (fun n z => Net.report e .zoneOwnerConflict z n) n
    ((zonesOf f.zones).filter fun z => !own z).foldl (Net.claimZone e src f.evacActive) n

/-- An owner-map entry is removed 3 s after its owner's last beacon (R106). -/
def Net.expireOwner (e : Env) (z : Fin 64) (n : Net) : Net :=
  n.onPau fun p => { p with owners := upd p.owners z fun o => o.filter fun o => e.elapsed < o.heard + 3000 }

/-! ### Zone reports at the originator (R111) -/

/-- The outcome that a report's entry gives; absent outside 1..5 (R183, R184). -/
def reportResult (i : ReportItem) : Option Outcome :=
  if i.outcome = 1 then some .queued
  else if i.outcome = 2 then some .playing
  else if i.outcome = 3 then some .done
  else if i.outcome = 4 then some (.dropped i.detail)
  else if i.outcome = 5 then some (.redirected i.detail)
  else none

/-- The zone that REDIRECTED adds to a zone list: QUEUED, the report's source as owner, unless the list holds it. A
detail above 63 names no terminus zone and adds none (log entry 12). A source byte outside 1..30 is held as the owner:
DESIGN CHOICE, log entry 11. -/
def addRedirect (src z : Nat) (l : List OrigZone) : List OrigZone :=
  if 63 < z || l.any (fun x => x.zone = z) then l else l ++ [⟨z, some src, .queued⟩]

/-- Apply one entry of a report to the origination entry of an id (R111). -/
def Peers.applyItem (id : AnnId) (src : Nat) (p : Peers) (i : ReportItem) : Peers :=
  match p.find id, reportResult i with
  | some o, some r =>
    match o.zones.find? fun z => z.zone = i.zone with
    | none => { p with counts := { p.counts with strayOutcome := bump p.counts.strayOutcome } }
    | some z =>
      if z.outcome.final then p
      else
        let set (l : List OrigZone) : List OrigZone := l.map fun x => if x.zone = i.zone then { x with outcome := r } else x
        let zones := match r with
          | .redirected n => addRedirect src n (set o.zones)
          | _ => set o.zones
        { p with
          table := p.table.map fun x => if x.id = id then { x with zones := zones } else x
          counts := p.counts.countOutcome r }
  | _, _ => p

/-- A ZONE_REPORT whose id carries this station's address (R111). An entry whose zones are then all final retires
(R113). -/
def Peers.zoneReport (own src : Nat) (f : ZoneReportFrame) (p : Peers) : Peers :=
  let id : AnnId := ⟨f.origin, f.seq⟩
  if f.origin ≠ own then p
  else
    match p.find id with
    | none => { p with counts := { p.counts with lateReport := bump p.counts.lateReport } }
    | some _ => (f.items.foldl (Peers.applyItem id src) p).revise id fun o => o

/-! ### Deadlines and retirement (R110, R112, R113) -/

/-- The ANNOUNCE of an id has been sent whole: the first-report deadline is 2000 ms from now (R110). -/
def Net.announceSent (e : Env) (id : AnnId) (n : Net) : Net :=
  n.onPau fun p =>
    { p with table := p.table.map fun o => if o.id = id then { o with deadline := some (e.elapsed + 2000) } else o }

/-- The first-report deadline of an id stands reached. -/
def Net.deadlineDue (e : Env) (id : AnnId) (n : Net) : Bool :=
  match n.pau.find id with
  | some o => o.deadline.any fun t => t ≤ e.elapsed
  | none => false

/-- At the first-report deadline every PENDING zone becomes NO_RESPONSE, with PEER_SILENT once for each owner that
held one (R112). The deadline is tested once. The owners are reported in the order of the zone list: DESIGN CHOICE, log
entry 57. -/
def Net.deadline (e : Env) (id : AnnId) (n : Net) : Net :=
  match n.pau.find id with
  | none => n
  | some o =>
    let owners := ownersOf (o.zones.filter fun z => z.outcome = .pending)
    let n := n.onPau fun p => (p.revise id fun o => { o with deadline := none }).giveUp id fun x => x = .pending
    owners.foldl (fun n a => Net.report e .peerSilent a n) n

/-- The expiry instant of an origination plus 5000 ms is reached (R113). -/
def Net.retireDue (e : Env) (id : AnnId) (n : Net) : Bool :=
  match n.pau.find id with
  | some o => e.reached (o.expiry.plus 5000)
  | none => false

/-- Retirement by time: every open zone becomes NO_RESPONSE and the entry leaves the table (R113). -/
def Net.retire (id : AnnId) (n : Net) : Net := n.onPau fun p => p.giveUp id fun o => !o.final

/-! ### Withdrawal requests from the link (R119, R120, R121) -/

/-- The granularity performed: SERVICE with a blank code is NONE, ZONES with threshold EVAC keeps ZONES (R120). -/
def performedGranularity (f : WithdrawFrame) : Nat := if f.granularity = 2 && f.code = 0 then 0 else f.granularity

/-- The entry's service key carries a service code. -/
def Entry.hasCode (en : Entry) (c : Code) : Bool := en.key.any fun k => k.code = c

/-- The entries that a WITHDRAW selects; EVAC entries are never selected (R119, R120). -/
def withdrawSelects (f : WithdrawFrame) (zone : Option Nat) (en : Entry) : Bool :=
  en.cls ≠ .evac &&
    match performedGranularity f with
    | 1 => en.id = ⟨f.origin, f.seq⟩
    | 2 => en.id.origin = f.origin && en.hasCode f.code
    | 3 => en.id.origin = f.origin
    | 4 => max 1 f.threshold ≤ classCode en.cls && zone.any fun z => f.zones.getLsbD z
    | _ => false

/-- A WITHDRAW from another station: the entries selected in the owned zones are dropped or stopped with WITHDRAWN,
their outcomes are reported, and then a WITHDRAW_DONE answers one that removed something or was addressed singly
(R117, R119, R120). A source byte outside 1..30 is answered like another: DESIGN CHOICE, log entry 11. The zones are
settled in ascending output number: DESIGN CHOICE, log entry 67. -/
def Play.withdraw (e : Env) (env : Envelope) (f : WithdrawFrame) (p : Play) : Play :=
  if env.src = e.own then p
  else
    let sel (p : Play) (o : Out) (en : Entry) : Bool := withdrawSelects f (p.zone o).id en
    let removed := p.countSelected (sel p)
    let p := p.onPauCounts fun c => { c with withdrawReceived := bump c.withdrawReceived }
    let p := allOuts.foldl (fun p o => Play.removeIn e (sel p o) .withdrawn true p o) p
    if removed = 0 && env.dst = 31 then p
    else p.onNet fun n => Net.enqueue e ⟨1, env.src, .withdrawDone
      ⟨f.granularity, performedGranularity f, f.origin, f.seq, f.code, f.zones, f.threshold, removed⟩⟩ (n.flush e)

/-- A WITHDRAW_DONE that answers an ANNOUNCEMENT withdrawal of this station (R121). -/
def Peers.withdrawDone (own : Nat) (env : Envelope) (f : WithdrawDoneFrame) (p : Peers) : Peers :=
  if env.dst = own && f.requested = 1 && f.origin = own then
    { p with counts := { p.counts with
      withdrawAnswer := bump p.counts.withdrawAnswer, withdrawnItems := bumpBy f.removed p.counts.withdrawnItems } }
  else p

end Sys2Proof.Machine
end

