-- ==== Sys2Proof/Machine/Triggers.lean ====
section
/-! DEFINITION. The Trigger Unit: matching (R41, R42), LEAD instants and firings (R44 to R48) and announcement
requests (R50 to R54). -/
namespace Sys2Proof.Machine

/-- Change the Trigger Unit. -/
def State.onTgu (s : State) (f : Triggers → Triggers) : State := { s with tgu := f s.tgu }

/-- Change the Call Table. -/
def State.onCtb (s : State) (f : CallTable → CallTable) : State := { s with ctb := f s.ctb }

/-- Change the call record at an index, whether held or leaving. -/
def CallTable.onRec (c : CallTable) (i : Fin 96) (f : CallRec → CallRec) : CallTable :=
  { c with places := upd c.places i fun q =>
      match q with
      | .free => .free
      | .held r => .held (f r)
      | .leaving r => .leaving (f r) }

/-- The record of a place, whether held or leaving. -/
def Place.rec? : Place → Option CallRec
  | .free => none
  | .held r => some r
  | .leaving r => some r

/-- The trigger entries in force, with their numbers (R39, R40). Before an image is accepted the unit holds none; what
the fields of a disabled entry then hold, R40 does not give: DESIGN CHOICE, log entry 19. -/
def State.triggers (s : State) : List (Fin 32 × Trigger) :=
  match s.cfl.image with
  | some i => (List.finRange 32).filterMap fun k => i.triggers[k.val]?.map fun t => (k, t)
  | none => []

/-! ### Matching (R41) -/

/-- A value matches under a mask: their exclusive-or has no set bit where the mask has one (R41). -/
def maskMatch {w : Nat} (value mask field : BitVec w) : Bool := (value ^^^ field) &&& mask = 0

/-- The call-kind select of an entry accepts a kind (R41). -/
def KindSelect.accepts : KindSelect → CallKind → Bool
  | .any, _ => true
  | .arr, k => k = .arr
  | .dep, k => k = .dep

/-- A trigger entry matches a call's fixed properties, at a platform (R41). -/
def Trigger.accepts (t : Trigger) (r : CallRec) (platform : Nat) : Bool :=
  t.select.accepts r.kind &&
    maskMatch t.platValue t.platMask (BitVec.ofNat 6 platform) &&
    maskMatch t.catValue t.catMask (BitVec.ofNat 3 r.category) &&
    maskMatch t.opValue t.opMask (BitVec.ofNat 4 r.operator) &&
    (t.minDelay = 0 || (t.minDelay : Int) ≤ r.delay)

/-! ### Requests (R50 to R54) -/

/-- The zone set of a request: the zones configured for the zone platforms, when the entry's flag asks for them, and
the entry's extra zone set (R51). -/
def Env.requestZones (e : Env) (t : Trigger) (platforms : List Nat) : ZoneSet :=
  (if t.platformZones then platforms.foldl (fun z p => z ||| e.platformZones p) 0 else 0) ||| t.extra

/-- Issue a request, or withhold it while the clock is UNSET or when its zone set is empty (R53, R54). The UNSET test
comes first: DEDUCED, log entry 37. -/
def State.issue (snap : CallRec) (platforms : List Nat) (s : State) (t : Fin 32 × Trigger) : State :=
  let e := s.env
  let zones := e.requestZones t.2 platforms
  if s.sck.state = .unset then s.onTgu fun g => { g with unsetHeld := bump g.unsetHeld }
  else if zones = 0 then s.onTgu fun g => { g with noZone := bump g.noZone }
  else
    let r : Request := ⟨t.1, t.2.template, t.2.cls, snap, zones, e.now, t.2.expiry * 1000, t.2.sync⟩
    (s.onTgu fun g => { g with issued := bump g.issued }).onPlay fun e p => p.compose e r

/-- Of the matching entries in ascending number the first requests, and each other whose additive flag is set (R42,
R46). -/
def requesters : List (Fin 32 × Trigger) → List (Fin 32 × Trigger)
  | [] => []
  | first :: rest => first :: rest.filter fun t => t.2.additive

/-- Count a hit for each entry of a list (R42, R46). -/
def Triggers.hit (g : Triggers) (l : List (Fin 32 × Trigger)) : Triggers :=
  { g with hits := l.foldl (fun v t => upd v t.1 bump) g.hits }

/-- Count a skip for each entry of a list (R46). -/
def Triggers.skip (g : Triggers) (l : List (Fin 32 × Trigger)) : Triggers :=
  { g with skips := l.foldl (fun v t => upd v t.1 bump) g.skips }

/-- STATE matching of a call event (R42). -/
def State.stateMatch (ev : CallEvent) (r : CallRec) (platform : Nat) (platforms : List Nat) (s : State) : State :=
  let found := s.triggers.filter fun t =>
    t.2.enabled && t.2.kind = .state && t.2.event = some ev && t.2.accepts r platform
  (requesters found).foldl (State.issue r platforms) (s.onTgu fun g => g.hit found)

/-! ### LEAD triggers (R44 to R48) -/

/-- The LEAD instant of an entry for a record, as a signed station time (R44). -/
def leadInstant (t : Trigger) (r : CallRec) : Int := r.expected * 60000 - (t.lead : Int) * 1000

/-- The live states of a call (R2). -/
def CallState.live : CallState → Bool
  | .booked => true
  | .approaching => true
  | .atPlatform => true
  | .departed => false
  | .complete => false
  | .cancelled => false

/-- A pair of a record and an enabled LEAD entry is due at a station time (R46). -/
def leadDue (time : Int) (r : CallRec) (t : Fin 32 × Trigger) : Bool :=
  t.2.enabled && t.2.kind = .lead && t.2.accepts r r.platform && leadInstant t.2 r ≤ time &&
    !r.fired.getLsbD t.1.val

/-- A due pair is stale: it lies more than the stale limit past its instant (R46). -/
def leadStale (time : Int) (r : CallRec) (t : Fin 32 × Trigger) : Bool :=
  leadInstant t.2 r + (t.2.stale : Int) * 1000 < time

/-- The fired set with the flags of some entries set (R46). -/
def setFired (fired : BitVec 32) (l : List (Fin 32 × Trigger)) : BitVec 32 :=
  l.foldl (fun v t => v ||| (1#32 <<< t.1.val)) fired

/-- Evaluate the LEAD triggers of one held record: the due pairs are settled as one firing (R45, R46). -/
def State.evaluate (s : State) (i : Fin 96) : State :=
  match s.ctb.places.get i with
  | .held r =>
    if s.sck.state = .unset || !r.state.live then s
    else
      let time : Int := s.sck.time
      let due := s.triggers.filter (leadDue time r)
      let stale := due.filter (leadStale time r)
      let fresh := due.filter fun t => !leadStale time r t
      let s := s.onTgu fun g => (g.skip stale).hit fresh
      let s := s.onCtb fun c => c.onRec i fun r => { r with fired := setFired r.fired due }
      (requesters fresh).foldl (State.issue r [r.platform]) s
  | _ => s

/-- Evaluate every held record, in ascending index (R45). -/
def State.evaluateAll (s : State) : State := (List.finRange 96).foldl State.evaluate s

/-- The flags that a re-arm clears: those of LEAD entries whose instants lie after the station time (R48). -/
def rearmed (triggers : List (Fin 32 × Trigger)) (time : Int) (r : CallRec) : BitVec 32 :=
  triggers.foldl (fun v t =>
    if t.2.kind = .lead && time < leadInstant t.2 r then v &&& ~~~(1#32 <<< t.1.val) else v) r.fired

/-- Re-arm a record after an epoch change (R48). -/
def State.rearm (i : Fin 96) (s : State) : State :=
  s.onCtb fun c => c.onRec i fun r => { r with fired := rearmed s.triggers s.sck.time r }

end Sys2Proof.Machine
end

