-- ==== Sys2Proof/Machine/Calls.lean ====
section
/-! DEFINITION. The Call Table: frame checks (R6, R7), call events and stale items (R14 to R17), creation and eviction
(R8, R23), timetable frames (R8 to R13), berth edges (R18 to R21), retirement (R22) and day changes (R24, R25). -/
namespace Sys2Proof.Machine

/-! ### Places and keys (R3) -/

/-- The places in ascending index. -/
def allPlaces : List (Fin 96) := List.finRange 96

/-- The held records with their indexes, ascending. -/
def CallTable.held (c : CallTable) : List (Fin 96 × CallRec) :=
  allPlaces.filterMap fun i =>
    match c.places.get i with
    | .held r => some (i, r)
    | _ => none

/-- The held record of a key (R3). -/
def CallTable.find (c : CallTable) (code : Code) (kind : CallKind) : Option (Fin 96 × CallRec) :=
  c.held.find? fun x => x.2.code = code && x.2.kind = kind

/-- The free place of lowest index (R3). -/
def CallTable.freePlace (c : CallTable) : Option (Fin 96) := allPlaces.find? fun i => c.places.get i = .free

/-- Put something in a place. -/
def CallTable.put (c : CallTable) (i : Fin 96) (q : Place) : CallTable := { c with places := upd c.places i fun _ => q }

/-- Change the counters of the Call Table. -/
def State.countCtb (s : State) (f : CtbCounts → CtbCounts) : State := s.onCtb fun c => { c with counts := f c.counts }

/-- A frame well formed but not applied is counted (R26). -/
def State.ignoreFrame (s : State) : State := s.countCtb fun c => { c with ignored := bump c.ignored }

/-- A malformed timetable frame is counted (R6). -/
def State.malformedCall (s : State) : State := s.countCtb fun c => { c with malformed := bump c.malformed }

/-- The expected time: booked time plus delay, clamped (R4). -/
def expectedTime (booked delay : Int) : Int := clampInt (-1440) 2879 (booked + delay)

/-- A record is qualified (R4). -/
def CallRec.qualify (r : CallRec) : CallRec := { r with qualified := r.expected }

/-- The epoch increments, wrapping, and the record is qualified (R4, R14). -/
def CallRec.nextEpoch (r : CallRec) : CallRec := { r with epoch := r.epoch + 1 }.qualify

/-- A record enters a state: a change of state sets the state entry; the retire hold is that of the state (R5). The
state entry changes with the state alone: DEDUCED, log entry 25. -/
def CallRec.enter (r : CallRec) (st : CallState) (now : Instant) : CallRec :=
  { r with
    state := st
    entered := if r.state = st then r.entered else now
    hold := match st with
      | .booked => none
      | .approaching => none
      | .atPlatform => none
      | .departed => some 120
      | .complete => some 120
      | .cancelled => some 1800 }

/-! ### Call events (R14 to R17) -/

/-- The events at which a sounding item of an earlier epoch is stopped (R17, R93). CREATED with a changed epoch, at a
reinstatement, stands in neither rule's list for a sounding item, which is left to play: DESIGN CHOICE, log entry 46. -/
def CallEvent.stops : CallEvent → Bool
  | .platformChanged => true
  | .alteredAway => true
  | .cancelled => true
  | .created => false
  | .approaching => false
  | .atPlatform => false
  | .departed => false
  | .complete => false
  | .delayed => false

/-- Remove what carries a service key: LOCAL entries of the zones, with CALL_ENDED, and the originations (R17, R23,
R25, R93, R114). -/
def Play.removeCalls (e : Env) (sel : Option ServiceKey → Option (BitVec 8) → Bool) (stop : Bool) (p : Play) : Play :=
  (p.removeAll e (fun en => en.origin = .own && sel en.key en.epoch) .callEnded stop).onNet
    (Net.withdrawAll e fun o => sel o.key o.epoch)

/-- Steps 2 to 5 of a call event on the record at an index, its step 1 having been made (R16). -/
def State.callEvent (i : Fin 96) (ev : CallEvent) (changed : Bool) (platform : Nat) (platforms : List Nat)
    (s : State) : State :=
  match (s.ctb.places.get i).rec? with
  | none => s
  | some r =>
    let s := if changed then s.onPlay fun e p =>
        p.removeCalls e (fun k ep => k = some r.key && ep ≠ some r.epoch) ev.stops
      else s
    let s := s.stateMatch ev r platform platforms
    if ev = .alteredAway then s.onCtb fun c => c.put i .free
    else (if changed then s.rearm i else s).evaluate i

/-- A held record changes and an event without a change of platform is raised for it (R15). -/
def State.raise (i : Fin 96) (r : CallRec) (ev : CallEvent) (changed : Bool) (s : State) : State :=
  (s.onCtb fun c => c.put i (.held r)).callEvent i ev changed r.platform [r.platform]

/-- A live record goes to an uncovered platform: it leaves the table by ALTERED_AWAY (R14, R15). Until then
its place is neither free nor held, and no LEAD trigger is evaluated for it (R14, R45; log entry 24). -/
def State.alterAway (i : Fin 96) (old new : CallRec) (s : State) : State :=
  (s.onCtb fun c => c.put i (.leaving new.nextEpoch)).callEvent i .alteredAway true old.platform [old.platform]

/-- A live record moves to another covered platform and returns to BOOKED (R5, R15). -/
def State.move (i : Fin 96) (old new : CallRec) (s : State) : State :=
  let r := (new.enter .booked s.env.now).nextEpoch
  (s.onCtb fun c => c.put i (.held r)).callEvent i .platformChanged true r.platform [old.platform, r.platform]

/-- A change of booked time or delay: DELAYED when the expected time lies at least the requalify threshold from the
qualified time, otherwise silent with an evaluation at once (R4). -/
def State.retime (i : Fin 96) (r : CallRec) (s : State) : State :=
  let threshold : Nat := match s.cfl.image with
    | some m => m.requalify
    | none => 2
  if threshold ≤ (r.expected - r.qualified).natAbs then s.raise i r.nextEpoch .delayed true
  else (s.onCtb fun c => c.put i (.held r)).evaluate i

/-! ### Frame checks (R6, R7) -/

/-- The minutes added to a frame's booked time, by the difference of its service day from the station's; absent when
the day cannot be aligned (R7). -/
def State.alignment (s : State) (day : Day) : Option Int :=
  if s.sck.state = .unset || day = s.sck.day then some 0
  else if day = s.sck.day + 1 then some 1440
  else if day + 1 = s.sck.day then some (-1440)
  else none

/-- The fields of a frame brought into range (R6). A category above 7 or an operator above 15 leaves the value held
open: it is a free value (log entry 6). A forms code that is no service code is held as carried: DESIGN CHOICE, log
entry 47. -/
def alignFields (kind : CallKind) (shift : Int) (f : CallFields) : CallFields :=
  { f with
    booked := f.booked + shift
    delay := clampInt (-60) 720 f.delay
    category := if f.category ≤ 7 then f.category else Config.categoryBeyond f.category % 8
    operator := if f.operator ≤ 15 then f.operator else Config.operatorBeyond f.operator % 16
    coaches := min 24 f.coaches
    forms := if kind = .arr then f.forms else 0
    points := f.points.take 16 }

/-- A booked time within the range of service minutes (R6). -/
def bookedOk (b : Int) : Bool := -1440 ≤ b && b ≤ 2879

/-- The check of a timetable frame (R6, R7): its kind and the alignment of its day, absent when it is malformed. -/
def State.checkKey (s : State) (k : CallKeyFields) : Option (CallKind × Int) :=
  if codeOk k.code then
    match kindOf k.kind, s.alignment k.day with
    | some kind, some shift => some (kind, shift)
    | _, _ => none
  else none

/-- The check of a platform number (R6). -/
def platformOk (p : Nat) : Bool := 1 ≤ p && p ≤ 48

/-- The check of the call fields of a frame and their alignment (R6, R7). -/
def checkFields (kind : CallKind) (shift : Int) (f : CallFields) : Option CallFields :=
  if bookedOk f.booked && bookedOk (f.booked + shift) then some (alignFields kind shift f) else none

/-- Every field of a record that a frame carries, taken from the frame (R8, R9). -/
def CallRec.take (r : CallRec) (platform : Nat) (f : CallFields) : CallRec :=
  { r with
    platform := platform
    booked := f.booked
    delay := f.delay
    expected := expectedTime f.booked f.delay
    category := f.category
    operator := f.operator
    place := f.place
    points := f.points
    coaches := if f.coaches = 0 then none else some f.coaches
    forms := codeOf f.forms }

/-- A new record: BOOKED, epoch 0, fired set clear, qualified (R8). -/
def newCall (code : Code) (kind : CallKind) (platform : Nat) (f : CallFields) (altered : Bool) (now : Instant) :
    CallRec :=
  let blank : CallRec :=
    { code := code, kind := kind, platform := platform, booked := 0, delay := 0, expected := 0, qualified := 0,
      category := 0, operator := 0, place := 0, points := [], coaches := none, forms := none, state := .booked,
      entered := now, hold := none, alteredIn := altered, epoch := 0, fired := 0 }
  (blank.take platform f).qualify

/-! ### Creation and eviction (R8, R23) -/

/-- The element of a list that beats all before it, the first among equals. -/
def pickBy {α : Type} (better : α → α → Bool) (l : List α) : Option α :=
  l.foldl (fun best x =>
    match best with
    | none => some x
    | some b => if better x b then some x else some b) none

/-- The record to evict for a new one (R23). -/
def CallTable.victim (c : CallTable) (new : CallRec) : Option (Fin 96 × CallRec) :=
  let lessHold (a b : Fin 96 × CallRec) : Bool := a.2.hold.getD 0 < b.2.hold.getD 0
  match pickBy lessHold (c.held.filter fun x => x.2.state = .departed || x.2.state = .complete) with
  | some x => some x
  | none =>
    match pickBy lessHold (c.held.filter fun x => x.2.state = .cancelled) with
    | some x => some x
    | none => pickBy (fun a b => b.2.expected < a.2.expected)
        (c.held.filter fun x => x.2.state = .booked && new.expected < x.2.expected)

/-- A new record takes its place and its event passes through R16 (R8, R12). -/
def State.install (i : Fin 96) (r : CallRec) (s : State) : State :=
  s.raise i r (if r.alteredIn then .platformChanged else .created) false

/-- Create a record: at the lowest free place, in the place of an evicted record, or not at all (R8, R23). -/
def State.create (r : CallRec) (s : State) : State :=
  match s.ctb.freePlace with
  | some i => s.install i r
  | none =>
    let s := s.onPlay fun e p => p.fault e .callTableFull r.platform
    match s.ctb.victim r with
    | none => s.countCtb fun c => { c with refused := bump c.refused }
    | some (i, old) =>
      let s := s.onPlay fun e p => p.removeCalls e (fun k _ => k = some old.key) false
      (s.countCtb fun c => { c with evicted := bump c.evicted }).install i r

/-! ### Timetable frames (R8 to R13) -/

/-- A CALL_SET that passed its checks (R8, R9, R10). -/
def State.applySet (kind : CallKind) (f : CallSetFrame) (fields : CallFields) (s : State) : State :=
  let covered := s.env.covers f.platform
  match s.ctb.find f.key.code kind with
  | none => if covered then s.create (newCall f.key.code kind f.platform fields f.alteration s.env.now) else s
  | some (i, r) =>
    let new := r.take f.platform fields
    match r.state with
    | .departed => s.ignoreFrame
    | .complete => s.ignoreFrame
    | .cancelled =>
      if covered then
        s.raise i { (new.enter .booked s.env.now).nextEpoch with alteredIn := false } .created true
      else s.onCtb fun c => c.put i .free
    | _ =>
      if !covered then s.alterAway i r new
      else if f.platform ≠ r.platform then s.move i r new
      else if new.booked = r.booked && new.delay = r.delay then s.onCtb fun c => c.put i (.held new)
      else s.retime i new

/-- A CALL_SET (R6, R8, R9, R10). -/
def State.callSet (f : CallSetFrame) (s : State) : State :=
  match s.checkKey f.key with
  | none => s.malformedCall
  | some (kind, shift) =>
    if !platformOk f.platform then s.malformedCall
    else
      match checkFields kind shift f.fields with
      | none => s.malformedCall
      | some fields => s.applySet kind f fields

/-- A CALL_DELAY (R6, R11). -/
def State.callDelay (f : CallDelayFrame) (s : State) : State :=
  match s.checkKey f.key with
  | none => s.malformedCall
  | some (kind, _) =>
    match s.ctb.find f.key.code kind with
    | none => s
    | some (i, r) =>
      let delay := clampInt (-60) 720 f.delay
      if !r.state.live then s.ignoreFrame
      else if delay = r.delay then s
      else s.retime i { r with delay := delay, expected := expectedTime r.booked delay }

/-- A CALL_PLATFORM that passed its checks (R12). -/
def State.applyPlatform (kind : CallKind) (f : CallPlatformFrame) (fields : Option CallFields) (s : State) : State :=
  let covered := s.env.covers f.platform
  match s.ctb.find f.key.code kind with
  | none =>
    if !covered then s
    else
      match fields with
      | some x => s.create (newCall f.key.code kind f.platform x true s.env.now)
      | none => s.ignoreFrame
  | some (i, r) =>
    let new := { r with platform := f.platform }
    match r.state with
    | .departed => s.ignoreFrame
    | .complete => s.ignoreFrame
    | .cancelled =>
      if !covered then s.onCtb fun c => c.put i .free
      else if f.platform = r.platform then s.ignoreFrame
      else s.onCtb fun c => c.put i (.held new)
    | _ =>
      if !covered then s.alterAway i r new
      else if f.platform = r.platform then s.ignoreFrame
      else s.move i r new

/-- A CALL_PLATFORM (R6, R12). -/
def State.callPlatform (f : CallPlatformFrame) (s : State) : State :=
  match s.checkKey f.key with
  | none => s.malformedCall
  | some (kind, shift) =>
    if !platformOk f.platform then s.malformedCall
    else
      match f.complete with
      | none => s.applyPlatform kind f none
      | some x =>
        match checkFields kind shift x with
        | none => s.malformedCall
        | some y => s.applyPlatform kind f (some y)

/-- A CALL_CANCEL (R6, R13). -/
def State.callCancel (f : CallKeyFields) (s : State) : State :=
  match s.checkKey f with
  | none => s.malformedCall
  | some (kind, _) =>
    match s.ctb.find f.code kind with
    | none => s
    | some (i, r) =>
      match r.state with
      | .cancelled => s
      | .departed => s.ignoreFrame
      | .complete => s.ignoreFrame
      | _ => s.raise i (r.enter .cancelled s.env.now).nextEpoch .cancelled true

/-! ### Berth inputs (R18 to R21) -/

/-- A raw input changes: its count begins again (R18). -/
def Debounce.change (level : Bool) (elapsed : Nat) (d : Debounce) : Debounce :=
  if d.raw = level then d else { d with raw := level, since := elapsed }

/-- A level is to be taken: the input has held a level other than the debounced one for 2 s (R18). -/
def Debounce.due (level : Bool) (elapsed : Nat) (d : Debounce) : Bool :=
  d.raw = level && d.level ≠ some level && d.since + 2000 ≤ elapsed

/-- The input of a group. -/
def CallTable.line (c : CallTable) (l : BerthLine) (i : Fin 8) : Debounce :=
  match l with
  | .occupancy => c.occupancy.get i
  | .approach => c.approach.get i

/-- Change the input of a group. -/
def CallTable.onInput (c : CallTable) (l : BerthLine) (i : Fin 8) (f : Debounce → Debounce) : CallTable :=
  match l with
  | .occupancy => { c with occupancy := upd c.occupancy i f }
  | .approach => { c with approach := upd c.approach i f }

/-- The covered platforms tied to an input, in ascending platform number (R18). -/
def State.platformsOf (s : State) (l : BerthLine) (i : Fin 8) : List Nat :=
  match s.cfl.image with
  | none => []
  | some m =>
    let tied (p : PlatformCfg) : Bool := match l with
      | .occupancy => p.occupancy = i
      | .approach => p.approach = i
    (List.range 49).filter fun n => m.platforms.any fun p => p.platform = n && tied p

/-- A debounced level is taken; unless it is the first, or the part is not RUNNING, it is a berth edge that acts on
each covered platform tied to the input (R18). -/
def State.takeLevel (l : BerthLine) (i : Fin 8) (level : Bool) (act : State → Nat → State) (s : State) : State :=
  let d := s.ctb.line l i
  if d.due level s.elapsed then
    let s := s.onCtb fun c => c.onInput l i fun d => { d with level := some level }
    if d.level.isSome && s.cfl.load = .running then (s.platformsOf l i).foldl act s else s
  else s

/-- The expected time of a record lies within some milliseconds of station time, either side; any does while the
clock is UNSET (R19, R20). -/
def State.near (s : State) (ms : Nat) (r : CallRec) : Bool :=
  s.sck.state = .unset || (r.expected * 60000 - (s.sck.time : Int)).natAbs ≤ ms

/-- The held record that satisfies a test, of earliest expected time and then lowest index (R19, R20). -/
def State.earliest (s : State) (test : CallRec → Bool) : Option (Fin 96 × CallRec) :=
  pickBy (fun a b => a.2.expected < b.2.expected) (s.ctb.held.filter fun x => test x.2)

/-- The approach input of a platform becomes asserted (R19). -/
def State.approachPlatform (s : State) (platform : Nat) : State :=
  match s.earliest fun r => r.platform = platform && r.kind = .arr && r.state = .booked && s.near 1800000 r with
  | some (i, r) => s.raise i (r.enter .approaching s.env.now) .approaching false
  | none => s.countCtb fun c => { c with unmatched := bump c.unmatched }

/-- A record enters AT_PLATFORM (R20). -/
def State.atPlatform (i : Fin 96) (r : CallRec) (s : State) : State :=
  s.raise i (r.enter .atPlatform s.env.now) .atPlatform false

/-- The occupancy input of a platform becomes asserted (R20). -/
def State.occupyPlatform (s : State) (platform : Nat) : State :=
  match s.earliest fun r => r.platform = platform && r.kind = .arr && r.state = .approaching with
  | some (i, r) =>
    let s := s.atPlatform i r
    match r.forms with
    | none => s
    | some code =>
      match s.ctb.find code .dep with
      | some (j, d) => if d.state = .booked && d.platform = platform then s.atPlatform j d else s
      | none => s
  | none =>
    match s.earliest fun r => r.platform = platform && r.kind = .dep && r.state = .booked && s.near 3600000 r with
    | some (i, r) => s.atPlatform i r
    | none => s.onPlay fun e p => p.fault e .platformUnexpected platform

/-- One AT_PLATFORM record of a platform ends: DEP in DEPARTED, ARR in COMPLETE (R21). -/
def State.leavePlatform (platform : Nat) (s : State) (i : Fin 96) : State :=
  match s.ctb.places.get i with
  | .held r =>
    if r.platform = platform && r.state = .atPlatform then
      match r.kind with
      | .dep => s.raise i (r.enter .departed s.env.now).nextEpoch .departed true
      | .arr => s.raise i (r.enter .complete s.env.now).nextEpoch .complete true
    else s
  | _ => s

/-- The occupancy input of a platform becomes clear: every AT_PLATFORM record ends, in ascending index (R21). -/
def State.vacatePlatform (s : State) (platform : Nat) : State := allPlaces.foldl (State.leavePlatform platform) s

/-! ### Retirement and day changes (R22, R24, R25) -/

/-- Change every held record, or free its place. -/
def CallTable.mapHeld (c : CallTable) (f : CallRec → Option CallRec) : CallTable :=
  { c with places := mapIdx c.places fun _ q =>
      match q with
      | .held r =>
        match f r with
        | some r => .held r
        | none => .free
      | q => q }

/-- One elapsed second of a record: its retire hold, if present, decreases, and at 0 the record is removed (R22). -/
def CallRec.retire (r : CallRec) : Option CallRec :=
  match r.hold with
  | none => some r
  | some h => if h ≤ 1 then none else some { r with hold := some (h - 1) }

/-- An elapsed second of the table (R22). -/
def CallTable.second (c : CallTable) : CallTable := { c.mapHeld CallRec.retire with seconds := c.seconds + 1 }

/-- A record at a rollover; one expected before −60 is removed (R24). -/
def CallRec.rollOver (r : CallRec) : Option CallRec :=
  let booked := r.booked - 1440
  let expected := expectedTime booked r.delay
  if expected < -60 then none
  else some { r with booked := booked, expected := expected, qualified := max (-1440) (r.qualified - 1440) }

/-- The table rolls over (R24). -/
def State.rollOver (s : State) : State := s.onCtb fun c => c.mapHeld CallRec.rollOver

/-- The table is cleared: LOCAL items and originations that carry a service key are withdrawn, then every place is
freed (R25). -/
def State.clearTable (s : State) : State :=
  (s.onPlay fun e p => p.removeCalls e (fun k _ => k.isSome) false).onCtb fun c =>
    { c with places := Vector.replicate 96 .free }

end Sys2Proof.Machine
end

