-- ==== Sys2Proof/Machine/Clock.lean ====
section
/-! DEFINITION. The Service Clock: sources (R29), adoption, steps and day changes (R30 to R32, R34), holdover (R33),
and the whole-second and quiet-hours signals (R35, R37). -/
namespace Sys2Proof.Machine

/-- Change the Service Clock. -/
def State.onSck (s : State) (f : Clock → Clock) : State := { s with sck := f s.sck }

/-! ### Signals (R35, R37) -/

/-- A clock minute lies in the window [start, end), which wraps past midnight when start is greater than end (R37). -/
def inWindow (start stop minute : Nat) : Bool :=
  if start < stop then start ≤ minute && minute < stop
  else if stop < start then start ≤ minute || minute < stop
  else false

/-- The level that the quiet-hours signal takes now (R37). -/
def State.quietNow (s : State) : Bool :=
  match s.cfl.image with
  | some i => s.sck.state ≠ .unset && inWindow i.quietStart i.quietEnd (clockMinute i.dayStart s.sck.time)
  | none => false

/-- The quiet-hours signal changes level; when it clears, every pending automatic retry ends (R37, R163). -/
def State.settleQuiet (s : State) : State :=
  let level := s.quietNow
  if level = s.sck.quiet then s
  else
    let s := s.onSck fun c => { c with quiet := level }
    if level then s else s.onPlay fun _ p => allOuts.foldl Play.refuseAuto p

/-- The whole-second signal: LEAD evaluation of every held record, and the automatic surveys (R35, R45, R163). The
Trigger Unit acts first: DESIGN CHOICE, log entry 68. -/
def State.wholeSecond (s : State) : State :=
  (s.onSck fun c => { c with secondDue := false }).evaluateAll.onPlay Play.surveySecond

/-! ### Applying a beacon's time (R30 to R32, R34) -/

/-- Station time and day take a beacon's values; the clock is LOCKED with no pending step (R30, R31, R32). A change of
the quiet-hours signal is taken at once, before the request to the Call Table and the whole-second signal: DESIGN CHOICE,
log entry 55. -/
def State.setTime (day : Day) (time : Nat) (s : State) : State :=
  (s.onSck fun c => { c with
    state := .locked, day := day, time := time, pendingStep := none, dayEndDue := false }).settleQuiet

/-- The whole-second signal after a beacon was applied, when station time then lies in a different whole second of its
day than before (R35; log entry 13). -/
def State.secondAfter (old : Clock) (s : State) : State :=
  if s.sck.day = old.day && s.sck.time / 1000 = old.time / 1000 then s else s.wholeSecond

/-- The instants held in the zones and the origination table are shifted by a day step (R92, R108). -/
def Play.shiftInstants (by_ : Day) (p : Play) : Play :=
  let entry (en : Entry) : Entry :=
    { en with sync := en.sync.map fun i => i.shift by_, expiry := en.expiry.map fun i => i.shift by_ }
  let p := { p with zpc := { p.zpc with
    zones := mapIdx p.zpc.zones fun _ z => { z with queue := z.queue.map entry } } }
  p.onNet fun n => n.onPau fun q =>
    { q with table := q.table.map fun o => { o with expiry := o.expiry.shift by_ } }

/-- Report TIME_STEP with the sender's address as source (R31, R32). -/
def State.reportStep (src : Nat) (s : State) : State := s.onPlay fun e p => p.fault e .timeStep src

/-- A source beacon of the station's own day (R31). TIME_STEP is reported before the whole-second signal: DESIGN CHOICE,
log entry 69. -/
def State.sameDayBeacon (src time : Nat) (s : State) : State :=
  let old := s.sck
  let offset : Int := (time : Int) - (old.time : Int)
  let hold (s : State) : State := s.onSck fun c => { c with pendingStep := some ⟨src, offset⟩ }
  if offset.natAbs ≤ 2000 then (s.setTime old.day time).secondAfter old
  else
    match old.pendingStep with
    | none => hold s
    | some q =>
      if q.address = src && (offset - q.offset).natAbs ≤ 100 then
        ((s.setTime old.day time).reportStep src).secondAfter old
      else hold s

/-- A source beacon of another day (R32): the boundary straddle, an advance by one, or a day step. TIME_STEP is
reported first, at a day step the held instants are shifted next, and the Call Table acts after that: DESIGN CHOICE, log
entry 69. -/
def State.otherDayBeacon (src : Nat) (day : Day) (time : Nat) (s : State) : State :=
  let old := s.sck
  let diff := dayDiff day old.day
  let offset : Int := diff * 86400000 + (time : Int) - (old.time : Int)
  if diff = -1 && -2000 ≤ offset && offset ≤ 0 then
    s.onSck fun c => { c with state := .locked, pendingStep := none }
  else
    let s := s.setTime day time
    if diff = 1 then
      let s := if offset.natAbs ≤ 2000 then s else s.reportStep src
      s.rollOver.secondAfter old
    else
      let s := (s.reportStep src).onPlay fun _ p => p.shiftInstants (day - old.day)
      s.clearTable.secondAfter old

/-- A source beacon is recorded and applied by the clock's state and day (R30, R31, R32). -/
def State.sourceBeacon (src : Nat) (f : BeaconFrame) (s : State) : State :=
  let old := s.sck
  let s := s.onSck fun c => { c with lastSource := some ⟨s.elapsed, src⟩ }
  if old.state = .unset then (s.setTime f.day f.time).secondAfter old
  else if f.day = old.day then s.sameDayBeacon src f.time
  else s.otherDayBeacon src f.day f.time

/-! ### Sources (R29) -/

/-- A heard-list entry is live for 3 s (R29). -/
def heardLive (elapsed : Nat) (t : Option Nat) : Bool := t.any fun t => elapsed < t + 3000

/-- The lowest address whose heard-list entry is live (R29). -/
def Clock.lowestLive (c : Clock) (elapsed : Nat) : Option Nat :=
  ((List.finRange 31).find? fun a => 1 ≤ a.val && heardLive elapsed (c.heard.get a)).map (·.val)

/-- The selection is made afresh; a change of source discards the pending step (R29). -/
def Clock.reselect (c : Clock) (elapsed : Nat) : Clock :=
  let sel := c.lowestLive elapsed
  { c with selected := sel, pendingStep := if sel = c.selected then c.pendingStep else none }

/-- A beacon at the Service Clock (R29 to R32). One whose time-capable flag is clear, whose time lies outside a day,
or whose source is no station address is not used for time (log entry 11). -/
def State.timeBeacon (src : Nat) (f : BeaconFrame) (s : State) : State :=
  if h : f.timeCapable = true ∧ f.time < dayMs ∧ 1 ≤ src ∧ src < 31 then
    let s := s.onSck fun c =>
      Clock.reselect { c with heard := upd c.heard ⟨src, h.2.2.2⟩ fun _ => some s.elapsed } s.elapsed
    if s.sck.selected = some src then s.sourceBeacon src f else s
  else s

/-! ### What happens as time runs (R28, R29, R33, R37) -/

/-- Station time reaches the end of the day: it becomes 0, the day advances by one, the Call Table rolls over, and the
whole-second signal follows (R28, R34, R35). -/
def State.dayEnd (s : State) : State :=
  ((s.onSck fun c => { c with time := 0, day := c.day + 1, dayEndDue := false }).rollOver).wholeSecond

/-- The heard-list entry of an address has aged out. -/
def State.heardDue (s : State) (a : Fin 31) : Bool := (s.sck.heard.get a).any fun t => t + 3000 ≤ s.elapsed

/-- A heard-list entry is removed, and the source selected afresh (R29). -/
def State.expireHeard (a : Fin 31) (s : State) : State :=
  s.onSck fun c => Clock.reselect { c with heard := upd c.heard a fun _ => none } s.elapsed

/-- 5 s have elapsed since the last source beacon of a LOCKED clock (R33). -/
def State.holdoverDue (s : State) : Bool :=
  s.sck.state = .locked && s.sck.lastSource.any fun m => m.elapsed + 5000 ≤ s.elapsed

/-- The clock enters HOLDOVER; the pending step is discarded and TIME_HOLDOVER reported (R33). -/
def State.holdover (s : State) : State :=
  let src := match s.sck.lastSource with
    | some m => m.address
    | none => 0
  (s.onSck fun c => { c with state := .holdover, pendingStep := none }).onPlay fun e p => p.fault e .timeHoldover src

end Sys2Proof.Machine
end

