-- ==== Sys2Proof/Machine/Lines.lean ====
section
/-! DEFINITION. The Line Supervision Unit (R155 to R159) and the meter windows (R141, R143). -/
namespace Sys2Proof.Machine

/-! ### Supervision words (R155 to R157) -/

/-- The class of a word against limits (R156). -/
def classify (l : Limits) (w : SupWord) : LineClass :=
  if w.impedance < l.zlow then .short
  else if l.zhigh < w.impedance then .opened
  else if l.lmax < w.leakage then .leak
  else .ok

/-- The status that a class validates. -/
def LineClass.status : LineClass → LineStatus
  | .ok => .ok
  | .short => .short
  | .opened => .opened
  | .leak => .leak

/-- The validation counters after a word of a class (R157). -/
def Line.validate (l : Line) (c : LineClass) : Line :=
  if c.status = l.status then { l with candidate := none, run := 0 }
  else if l.candidate = some c then
    if 2 ≤ l.run then { l with status := c.status, candidate := none, run := 0 } else { l with run := l.run + 1 }
  else { l with candidate := some c, run := 1 }

/-- A word that passed its check is taken: stored, the missed-cycle count cleared, classified and validated (R155). -/
def Line.takeWord (l : Line) (w : SupWord) : Line :=
  let c := classify l.limits w
  { l with last := some ⟨w.impedance, w.leakage, c⟩, missed := 0, wordTaken := true }.validate c

/-- A cycle ends for an output: a missed one counts up to 3, where the status becomes UNKNOWN (R155, R158). -/
def Line.endCycle (l : Line) : Line :=
  if !l.supervised || l.wordTaken then { l with wordTaken := false }
  else if l.missed = 2 then { l with missed := 3, status := .unknown, candidate := none, run := 0 }
  else { l with missed := min 3 (l.missed + 1) }

/-- The fault reported on entry to a status by a word (R159). -/
def LineStatus.fault : LineStatus → Option FaultKind
  | .short => some .lineShort
  | .opened => some .lineOpen
  | .leak => some .lineLeak
  | .ok => none
  | .unknown => none

/-- A validated status has changed: the zone enters FAULTED or may leave it, and the status's fault is reported
(R96, R101, R159). -/
def Play.statusChanged (e : Env) (o : Out) (p : Play) : Play :=
  let p := if p.lineDown o then p.faultZone e o else p.recoverZone e o
  match (p.lineAt o).status.fault with
  | some k => p.fault e k (e.faultSource o)
  | none => p

/-- Change the Line Supervision Unit. -/
def Play.onLsu (p : Play) (f : Supervision → Supervision) : Play := { p with lsu := f p.lsu }

/-- A supervision word arrives on a sense input (R155). -/
def Play.supervisionWord (e : Env) (o : Out) (w : SupWord) (p : Play) : Play :=
  let l := p.lineAt o
  if !l.supervised then p
  else if !w.checkOk then p.onLsu fun u => { u with corrupt := bump u.corrupt }
  else
    let q := p.onLine o fun l => l.takeWord w
    if (q.lineAt o).status = l.status then q else q.statusChanged e o

/-- One output at the end of a supervision cycle (R155, R158). -/
def Play.endCycleAt (e : Env) (p : Play) (o : Out) : Play :=
  let l := p.lineAt o
  let p := p.onLine o Line.endCycle
  if l.supervised && !l.wordTaken then
    let p := p.onLsu fun u => { u with missed := bump u.missed }
    if l.missed = 2 then
      let p := if l.status = .unknown then p else p.recoverZone e o
      p.fault e .supervisionLost (e.faultSource o)
    else p
  else p

/-- A supervision cycle of 2000 ms has run its time (R155). -/
def Play.cycleDue (e : Env) (p : Play) : Bool := (p.lsu.cycles + 1) * 2000 ≤ e.elapsed

/-- A supervision cycle ends for all eight outputs (R155, R158), in ascending output number: DESIGN CHOICE, log entry
74. -/
def Play.cycleEnd (e : Env) (p : Play) : Play :=
  (allOuts.foldl (Play.endCycleAt e) p).onLsu fun u => { u with cycles := u.cycles + 1 }

/-! ### Meter windows (R141, R143, R144) -/

/-- A meter window ends now: at every eighth block boundary (R141). -/
def Play.windowDue (e : Env) (p : Play) : Bool :=
  e.elapsed % 128 = 0 && 0 < e.elapsed && p.lvc.windowAt ≠ e.elapsed

/-- The samples a sense input takes in one millisecond, at 16 kHz (R141). -/
def samplesPerMs : Nat := 16

/-- A sample of a sense input: a free value within −32768..32767 (R142, log entry 18). -/
def senseAt (input index : Nat) : Int := clampInt (-32768) 32767 (Config.senseSample input index)

/-- A sample is taken by the meter: its square is added to the accumulator (R140, R141). -/
def Level.accumulate (x : Int) (l : Level) : Level :=
  { l with accSum := l.accSum + x.natAbs ^ 2, accCount := l.accCount + 1 }

/-- The samples of one millisecond enter the accumulators of all eight sense inputs, in every load state and zone state
(R141). -/
def Play.meter (p : Play) : Play :=
  let first := p.lvc.sampled
  { p with lvc := { p.lvc with
    outs := mapIdx p.lvc.outs fun o l =>
      (List.range samplesPerMs).foldl (fun l k => l.accumulate (senseAt o.val (first + k))) l
    sampled := first + samplesPerMs } }

/-- The level code of the window that ends: that of the accumulator, with what was heard beyond it (R141, R142). -/
def Level.code (sum : Nat) (l : Level) : Nat := levelCode (l.accSum + sum)

/-- The level values of an output at a window end: the sum of squares gives the level code, the accumulator empties,
and an eligible window of an owned zone is counted, or discarded under the discard mark (R141 to R144). -/
def Level.window (owned : Bool) (sum : Nat) (l : Level) : Level :=
  let code := l.code sum
  let closed := { l with last := code, accSum := 0, accCount := 0, spoiled := false }
  if owned && !l.spoiled then
    if l.discard then { closed with discard := false } else { closed with n16 := noiseAfter l.n16 code }
  else closed

/-- One output at a window end: its level values, and the level for a survey of its zone (R141). -/
def Play.windowAt (e : Env) (sums : Vector Nat 8) (p : Play) (o : Out) : Play :=
  (p.onLevel o fun l => l.window (p.zone o).id.isSome (sums.get o)).surveyWindow e o ((p.levelAt o).code (sums.get o))

/-- A meter window ends on all eight sense inputs, at a block boundary (R141), in ascending output number: DESIGN CHOICE,
log entry 75. -/
def Play.windowEnd (e : Env) (sums : Vector Nat 8) (p : Play) : Play :=
  let p := p.takeBoundary e
  allOuts.foldl (Play.windowAt e sums) { p with lvc := { p.lvc with windowAt := e.elapsed } }

end Sys2Proof.Machine
end

