-- ==== Sys2Proof/Machine/Image.lean ====
section
/-! DEFINITION. The configuration image: its layout (R185), its acceptance (R186) and the bringing of its values into
range, with the count of clamps (R187). -/
namespace Sys2Proof.Machine

/-! ### Reading bytes -/

/-- The byte at an offset; 0 past the end. -/
def byteAt (l : List Nat) (i : Nat) : Nat := l[i]?.getD 0

/-- The two bytes at an offset, most significant first (R178, R185). -/
def wordAt (l : List Nat) (i : Nat) : Nat := byteAt l i * 256 + byteAt l (i + 1)

/-- The bit of a weight 2^k in a byte. -/
def bitAt (b k : Nat) : Bool := b.testBit k

/-- A byte as a two's complement number (R178). -/
def signedByte (b : Nat) : Int := if b < 128 then b else (b : Int) - 256

/-- A zone set of eight bytes: zone z is the bit of weight 2^(z mod 8) in byte floor(z / 8) (R178). -/
def zoneSetAt (l : List Nat) (i : Nat) : ZoneSet :=
  BitVec.ofNat 64 ((List.range 8).foldl (fun acc k => acc + byteAt l (i + k) * 256 ^ k) 0)

/-! ### Bringing values into range (R187) -/

/-- A value with the count of clamps made on the way to it. -/
abbrev Clamped (α : Type) := α × Nat

/-- A number brought to the nearest end of its range, counted when it changes (R187). -/
def within (lo hi v : Nat) : Clamped Nat :=
  let c := clampNat lo hi v
  (c, if c = v then 0 else 1)

/-- A number brought to at most a limit. -/
def upTo (hi v : Nat) : Clamped Nat := within 0 hi v

/-- The base offset B brought into −64..+63 (R187). -/
def clampBase (v : Int) : Clamped Int :=
  let c := clampInt (-64) 63 v
  (c, if c = v then 0 else 1)

/-- Zlow and Zhigh, each at most 1023 and then Zlow below Zhigh (R187). A limit that both rows change counts twice: DESIGN
CHOICE, log entry 62. -/
def clampLimits (low high : Nat) : Clamped (Nat × Nat) :=
  let l := upTo 1023 low
  let h := upTo 1023 high
  if l.1 < h.1 then ((l.1, h.1), l.2 + h.2)
  else
    let high := min 1023 (l.1 + 1)
    let low := if l.1 < high then l.1 else high - 1
    ((low, high), l.2 + h.2 + (if high = h.1 then 0 else 1) + (if low = l.1 then 0 else 1))

/-- Gmin and Gmax, each a gain code, Gmin not above Gmax (R187). A Gmin that both rows change counts twice: DESIGN
CHOICE, log entry 62. -/
def clampGains (gmin gmax : Nat) : Clamped (Nat × Nat) :=
  let l := upTo 200 gmin
  let h := upTo 200 gmax
  if h.1 < l.1 then ((h.1, h.1), l.2 + h.2 + 1) else ((l.1, h.1), l.2 + h.2)

/-! ### Elements and lists (R185, R187) -/

/-- The field of a FIELD argument (R185). -/
def fieldOf (a : Nat) : Option CallField :=
  [CallField.platform, .timeBooked, .timeExpected, .place, .callingPoints, .delay, .coaches, .operator][a]?

/-- The kind of an element from its code, phrase id and argument; absent when it is set aside (R185, R187). -/
def elementKind (code phrase arg : Nat) : Option (Clamped ElementKind) :=
  if code = 0 then some (.phrase phrase, 0)
  else if code = 1 then
    let n := within 1 40 arg
    some (.silence n.1, n.2)
  else if code = 2 then
    let n := within 1 8 arg
    some (.chime phrase n.1, n.2)
  else if code = 3 then
    let n := within 1 60 arg
    some (.toneLoop phrase n.1, n.2)
  else if code = 4 then (fieldOf arg).map fun f => (.field f, 0)
  else none

/-- The element of four bytes at an offset; one set aside is absent and counted (R185, R187). -/
def elementAt (l : List Nat) (i : Nat) : Clamped (Option Element) :=
  let control := byteAt l i
  match elementKind (control % 8) (wordAt l (i + 1)) (byteAt l (i + 3)) with
  | none => (none, 1)
  | some k =>
    let present : Option PresentField :=
      if bitAt control 5 then some (if bitAt control 6 then .callingPoints else .coaches) else none
    (some ⟨k.1, bitAt control 4, present⟩, k.2)

/-- A list of elements: its count, at most 20, and its elements at an offset; the list closes up over those set
aside (R185, R187). -/
def elementList (l : List Nat) (count start : Nat) : Clamped (List Element) :=
  let n := upTo 20 count
  let els := (List.range n.1).map fun k => elementAt l (start + 4 * k)
  (els.filterMap (·.1), n.2 + (els.map (·.2)).sum)

/-! ### Zone records (R185, R187) -/

/-- The sixteen candidates at an offset (R185). -/
def candidatesAt (l : List Nat) (i : Nat) : List Candidate :=
  (List.range 16).map fun k => ⟨bitAt (byteAt l (i + k)) 7, byteAt l (i + k) % 8⟩

/-- The zone record at an offset for an output, its fallback not yet tested, brought into range (R185, R187). -/
def zoneRecord (l : List Nat) (i : Nat) (o : Out) : Clamped ZoneCfg :=
  let b := clampBase (signedByte (byteAt l (i + 2)))
  let gains := clampGains (byteAt l (i + 3)) (byteAt l (i + 4))
  let qcap := upTo 200 (byteAt l (i + 5))
  let noise := upTo 240 (byteAt l (i + 7))
  let limits := clampLimits (wordAt l (i + 8)) (wordAt l (i + 10))
  let preset := upTo 15 (byteAt l (i + 13))
  let start := upTo 15 (byteAt l (i + 14))
  let look := upTo 15 (byteAt l (i + 15))
  let a := upTo 16 (byteAt l (i + 16))
  let b' := upTo 63 (byteAt l (i + 17))
  let c := upTo 63 (byteAt l (i + 18))
  let gs := upTo 200 (byteAt l (i + 21))
  let tref := upTo 120 (byteAt l (i + 22))
  let auto := upTo 1439 (wordAt l (i + 24))
  let params : SurveyParams :=
    ⟨start.1, look.1, a.1, b'.1, c.1, wordAt l (i + 19), gs.1, tref.1, byteAt l (i + 23) ≠ 0, auto.1⟩
  ({ output := o, zone := byteAt l (i + 1), base := b.1, gmin := gains.1.1, gmax := gains.1.2, qcap := qcap.1,
     fallback := if h : byteAt l (i + 6) < 8 then some ⟨byteAt l (i + 6), h⟩ else none, noise := noise.1,
     limits := ⟨limits.1.1, limits.1.2, byteAt l (i + 12)⟩, preset := preset.1, params := params,
     candidates := candidatesAt l (i + 26) },
   b.2 + gains.2 + qcap.2 + noise.2 + limits.2 + preset.2 + start.2 + look.2 + a.2 + b'.2 + c.2 + gs.2 + tref.2 + auto.2)

/-- A fallback byte above 7 that is not the code 255 of "none" is a value brought into range (R187). -/
def fallbackClamp (b : Nat) : Nat := if 7 < b && b ≠ 255 then 1 else 0

/-- Take one zone record after those kept: one that names a bad or taken output, or a bad or owned zone, is set aside
(R187). -/
def takeZone (l : List Nat) (acc : Clamped (List ZoneCfg)) (k : Nat) : Clamped (List ZoneCfg) :=
  let i := 33 + 42 * k
  let z := byteAt l (i + 1)
  if h : byteAt l i < 8 then
    let o : Out := ⟨byteAt l i, h⟩
    if 63 < z || acc.1.any (fun c => c.output = o || c.zone = z) then (acc.1, acc.2 + 1)
    else
      let r := zoneRecord l i o
      (acc.1 ++ [r.1], acc.2 + r.2 + fallbackClamp (byteAt l (i + 6)))
  else (acc.1, acc.2 + 1)

/-- A fallback that names the zone's own output, or one that carries no owned zone, becomes none (R187). -/
def settleFallback (zones : List ZoneCfg) (z : ZoneCfg) : Clamped ZoneCfg :=
  match z.fallback with
  | none => (z, 0)
  | some f =>
    if f = z.output || !zones.any (fun c => c.output = f) then ({ z with fallback := none }, 1) else (z, 0)

/-- The zone records of an image (R185, R187). -/
def zonesAt (l : List Nat) : Clamped (List ZoneCfg) :=
  let n := upTo 8 (byteAt l 32)
  let kept := (List.range n.1).foldl (takeZone l) ([], 0)
  let settled := kept.1.map (settleFallback kept.1)
  (settled.map (·.1), n.2 + kept.2 + (settled.map (·.2)).sum)

/-! ### Platform records (R185, R187) -/

/-- Take one platform record after those kept (R185, R187). -/
def takePlatform (l : List Nat) (acc : Clamped (List PlatformCfg)) (k : Nat) : Clamped (List PlatformCfg) :=
  let i := 370 + 4 * k
  let n := byteAt l i
  if h : byteAt l (i + 2) < 8 ∧ byteAt l (i + 3) < 8 then
    if n < 1 || 48 < n || acc.1.any (fun c => c.platform = n) then (acc.1, acc.2 + 1)
    else (acc.1 ++ [⟨n, BitVec.ofNat 8 (byteAt l (i + 1)), ⟨_, h.1⟩, ⟨_, h.2⟩⟩], acc.2)
  else (acc.1, acc.2 + 1)

/-- The platform records of an image (R185, R187). -/
def platformsAt (l : List Nat) : Clamped (List PlatformCfg) :=
  let n := upTo 8 (byteAt l 369)
  let kept := (List.range n.1).foldl (takePlatform l) ([], 0)
  (kept.1, n.2 + kept.2)

/-! ### Trigger records (R185, R187) -/

/-- The call event of an event code, in the order of R39 (R185). -/
def eventOf (code : Nat) : Option CallEvent :=
  [CallEvent.created, .approaching, .atPlatform, .departed, .complete, .cancelled, .platformChanged, .alteredAway,
    .delayed][code]?

/-- The class of a trigger: EVAC, or a class above 3, becomes ALERT (R187). -/
def triggerClass (code : Nat) : Clamped AnnClass :=
  if code = 1 then (.alert, 0)
  else if code = 2 then (.service, 0)
  else if code = 3 then (.info, 0)
  else (.alert, 1)

/-- The call-kind select of a trigger: above 2, ANY (R187). -/
def selectOf (code : Nat) : Clamped KindSelect :=
  if code = 0 then (.arr, 0) else if code = 1 then (.dep, 0) else if code = 2 then (.any, 0) else (.any, 1)

/-- The trigger record at an offset (R185, R187). -/
def triggerAt (l : List Nat) (i : Nat) : Clamped Trigger :=
  let flags := byteAt l i
  let lead := bitAt flags 1
  let event := eventOf (byteAt l (i + 1))
  let badEvent := !lead && event.isNone
  let leadTime := upTo 7200 (wordAt l (i + 2))
  let stale := upTo 600 (wordAt l (i + 4))
  let select := selectOf (byteAt l (i + 6))
  let minDelay := upTo 720 (wordAt l (i + 11))
  let template := upTo 23 (byteAt l (i + 13))
  let cls := triggerClass (byteAt l (i + 14))
  let expiry := within 10 3600 (wordAt l (i + 23))
  ({ enabled := bitAt flags 0 && !badEvent, kind := if lead then .lead else .state, event := event,
     lead := leadTime.1, stale := stale.1, select := select.1,
     platValue := BitVec.ofNat 6 (byteAt l (i + 7)), platMask := BitVec.ofNat 6 (byteAt l (i + 8)),
     catValue := BitVec.ofNat 3 (byteAt l (i + 9) / 16), catMask := BitVec.ofNat 3 (byteAt l (i + 9)),
     opValue := BitVec.ofNat 4 (byteAt l (i + 10) / 16), opMask := BitVec.ofNat 4 (byteAt l (i + 10)),
     minDelay := minDelay.1, template := template.1, cls := cls.1, platformZones := bitAt flags 2,
     extra := zoneSetAt l (i + 15), expiry := expiry.1, additive := bitAt flags 3, sync := bitAt flags 4 },
   (if badEvent then 1 else 0) + leadTime.2 + stale.2 + select.2 + minDelay.2 + template.2 + cls.2 + expiry.2)

/-! ### The image (R185, R186, R187) -/

/-- The relay routing byte (R185). -/
def routingOf (b : Nat) : Routing := ⟨bitAt b 0, bitAt b 1, bitAt b 2, bitAt b 3, bitAt b 4⟩

/-- The values of an accepted image, brought into range, with the clamped-value count (R185, R187, R192). How clamps
are counted: DEDUCED, log entry 29; a nonzero flag byte is set: DESIGN CHOICE, log entry 28. -/
def takeImage (l : List Nat) : Clamped Image :=
  let dayStart := upTo 1439 (wordAt l 6)
  let requalify := within 1 15 (byteAt l 8)
  let quietStart := upTo 1439 (wordAt l 9)
  let quietEnd := upTo 1439 (wordAt l 11)
  let m0 := upTo 60 (byteAt l 13)
  let m1 := upTo 60 (byteAt l 14)
  let m2 := upTo 60 (byteAt l 15)
  let m3 := upTo 60 (byteAt l 16)
  let fevac := upTo 200 (byteAt l 17)
  let slew := within 1 40 (byteAt l 18)
  let zones := zonesAt l
  let platforms := platformsAt l
  let templates := (List.range 24).map fun t => elementList l (byteAt l (402 + 81 * t)) (403 + 81 * t)
  let triggers := (List.range 32).map fun k => triggerAt l (2346 + 25 * k)
  let evac := elementList l (byteAt l 31) 3146
  ({ format := byteAt l 2, check := wordAt l 3, address := byteAt l 5, dayStart := dayStart.1,
     requalify := requalify.1, quietStart := quietStart.1, quietEnd := quietEnd.1, marginEvac := m0.1,
     marginAlert := m1.1, marginService := m2.1, marginInfo := m3.1, fevac := fevac.1, slew := slew.1,
     bases := ⟨wordAt l 19, wordAt l 21, wordAt l 23, wordAt l 25, wordAt l 27⟩, routing := routingOf (byteAt l 29),
     lock := byteAt l 30 ≠ 0, zones := zones.1, platforms := platforms.1, templates := templates.map (·.1),
     triggers := triggers.map (·.1), evacList := evac.1 },
   dayStart.2 + requalify.2 + quietStart.2 + quietEnd.2 + m0.2 + m1.2 + m2.2 + m3.2 + fevac.2 + slew.2 + zones.2 +
     platforms.2 + (templates.map (·.2)).sum + (triggers.map (·.2)).sum + evac.2)

/-- The check word of an image: the sum modulo 65536 of every byte but its own two (R186). -/
def imageSum (l : List Nat) : Nat := (l.sum - byteAt l 3 - byteAt l 4) % 65536

/-- The image length that format 1 has (R185). -/
def imageLength : Nat := 3226

/-- What the configuration load settles on the bytes delivered: the tests of R186 in their order. -/
def loadImage (bytes : Option (List Byte)) : ConfigResult :=
  match bytes with
  | none => .failed .unreadable
  | some raw =>
    let l := (raw.take imageLength).map BitVec.toNat
    if l.length < 5 then .failed .unreadable
    else if wordAt l 0 ≠ imageLength then .failed .badLength
    else if l.length < imageLength then .failed .unreadable
    else if byteAt l 2 ≠ 1 then .failed .badFormat
    else if wordAt l 3 ≠ imageSum l then .failed .badCheck
    else if byteAt l 5 < 1 || 30 < byteAt l 5 then .failed .badAddress
    else
      let r := takeImage l
      .accepted r.1 (min 65535 r.2)

end Sys2Proof.Machine
end

