-- ==== Sys2Proof/Machine/Wire.lean ====
section
/-! DEFINITION. Frames as bytes: the envelope and its check (R178), the payload layouts (R183), the judging of a
received frame (R179, R184), and the bytes of the frames this station sends. -/
namespace Sys2Proof.Machine

/-! ### Numbers as bytes (R178) -/

/-- One byte. -/
def be1 (n : Nat) : List Nat := [n % 256]

/-- Two bytes, most significant first. -/
def be2 (n : Nat) : List Nat := [n / 256 % 256, n % 256]

/-- Four bytes, most significant first. -/
def be4 (n : Nat) : List Nat := [n / 16777216 % 256, n / 65536 % 256, n / 256 % 256, n % 256]

/-- A signed number in two bytes, in two's complement. -/
def beSigned (x : Int) : List Nat := be2 (x % 65536).toNat

/-- A zone set in eight bytes: zone z in byte floor(z / 8). -/
def zoneBytes (z : ZoneSet) : List Nat := (List.range 8).map fun k => z.toNat / 256 ^ k % 256

/-- Flags at weights 1, 2, 4 and so on. -/
def flagByte : List Bool → Nat
  | [] => 0
  | b :: rest => (if b then 1 else 0) + 2 * flagByte rest

/-- The four bytes at an offset, most significant first. -/
def longAt (l : List Nat) (i : Nat) : Nat := wordAt l i * 65536 + wordAt l (i + 2)

/-- The two bytes at an offset as a two's complement number. -/
def signedAt (l : List Nat) (i : Nat) : Int := if wordAt l i < 32768 then wordAt l i else (wordAt l i : Int) - 65536

/-- The service code in the six bytes at an offset. -/
def codeAt (l : List Nat) (i : Nat) : Code :=
  BitVec.ofNat 48 ((List.range 6).foldl (fun acc k => acc * 256 + byteAt l (i + k)) 0)

/-- The service day in the two bytes at an offset. -/
def dayAt (l : List Nat) (i : Nat) : Day := BitVec.ofNat 16 (wordAt l i)

/-! ### The check (R178) -/

/-- One bit of the cyclic redundancy check with generator 0x1021. -/
def crcBit (c : BitVec 16) : BitVec 16 := if c.getLsbD 15 then (c <<< 1) ^^^ 0x1021#16 else c <<< 1

/-- One byte of the check, most significant bit first. -/
def crcByte (c : BitVec 16) (b : Nat) : BitVec 16 :=
  let c := c ^^^ (BitVec.ofNat 16 b <<< 8)
  crcBit (crcBit (crcBit (crcBit (crcBit (crcBit (crcBit (crcBit c)))))))

/-- The check of a run of bytes: initial value 0xFFFF, no final inversion. -/
def crc (l : List Nat) : Nat := (l.foldl crcByte 0xFFFF#16).toNat

/-! ### Payloads received (R183, R184) -/

/-- What every timetable frame carries. -/
def keyAt (l : List Nat) : CallKeyFields := ⟨codeAt l 0, byteAt l 6, dayAt l 7⟩

/-- The kind byte of a timetable frame is 0 or 1 (R184). -/
def keyOk (l : List Nat) : Bool := byteAt l 6 ≤ 1

/-- The call fields, which stand at one offset in a CALL_SET and a complete CALL_PLATFORM. -/
def fieldsAt (l : List Nat) : CallFields where
  booked := signedAt l 11
  delay := signedAt l 13
  category := byteAt l 15
  operator := byteAt l 16
  place := wordAt l 17
  coaches := byteAt l 19
  forms := codeAt l 20
  points := (List.range (byteAt l 26)).map fun k => wordAt l (27 + 2 * k)

/-- The length of a payload of call fields agrees with its calling-point count. -/
def fieldsLength (l : List Nat) : Bool := 27 ≤ l.length && l.length = 27 + 2 * byteAt l 26

/-- The payload of an ANNOUNCE. -/
def announceAt (l : List Nat) : AnnounceFrame where
  origin := byteAt l 0
  seq := wordAt l 1
  cls := byteAt l 3
  libVersion := wordAt l 4
  codePresent := bitAt (byteAt l 6) 0
  syncPresent := bitAt (byteAt l 6) 1
  mustSync := bitAt (byteAt l 6) 2
  code := codeAt l 7
  zones := zoneSetAt l 13
  expiryDay := dayAt l 21
  expiryTime := longAt l 23
  syncDay := dayAt l 27
  syncTime := longAt l 29
  segs := (List.range (byteAt l 33)).map fun k =>
    ⟨byteAt l (34 + 4 * k), wordAt l (35 + 4 * k), byteAt l (37 + 4 * k)⟩

/-- The values that make an ANNOUNCE malformed are absent; an absent sync start is passed over (R184). -/
def announceOk (src : Nat) (f : AnnounceFrame) : Bool :=
  f.cls ≤ 3 && f.seq ≤ 2047 && f.origin = src && f.expiryTime < 172800000 && (!f.syncPresent || f.syncTime < 172800000)

/-- The values that make a WITHDRAW malformed are absent; a threshold that the granularity does not use is not
examined (R184). The threshold is examined for ZONES alone: DEDUCED, log entry 31. -/
def withdrawOk (f : WithdrawFrame) : Bool := f.granularity ≤ 4 && (f.granularity ≠ 4 || f.threshold ≤ 3)

/-- The maintenance row of a request code, and the row of an unknown code (R198). -/
def maintRow (h : MaintHead) (code : Nat) (args : List Byte) : Instr :=
  if code = 0x01 then .queryCall h args
  else if code = 0x02 then .queryZone h args
  else if code = 0x03 then .queryFault h args
  else if code = 0x04 then .querySurvey h args
  else if code = 0x05 then .queryCounters h args
  else if code = 0x10 then .clearFault h args
  else if code = 0x20 then .surveyStart h args
  else if code = 0x21 then .surveyAbort h args
  else if code = 0x30 then .limitSet h args
  else if code = 0x31 then .limitLock h args
  else if code = 0x40 then .restart h args
  else .maintRequestUnknown h code args

/-- The bytes of a list. -/
def asBytes (l : List Nat) : List Byte := l.map fun n => BitVec.ofNat 8 n

/-- A kind byte of the frame kind table (R183). -/
def knownKind (k : Nat) : Bool :=
  [0x01, 0x10, 0x11, 0x12, 0x13, 0x20, 0x21, 0x22, 0x23, 0x30, 0x40, 0x41].contains k

/-- The frame row that a payload of a kind spells; absent for a malformed payload (R183, R184). -/
def payloadRow (env : Envelope) (kind : Nat) (l : List Nat) : Option Instr :=
  if kind = 0x01 then
    if l.length = 18 && byteAt l 1 = 1 then
      some (.beacon env ⟨bitAt (byteAt l 0) 0, bitAt (byteAt l 0) 1, bitAt (byteAt l 0) 2, byteAt l 1, dayAt l 2,
        longAt l 4, wordAt l 8, zoneSetAt l 10⟩)
    else none
  else if kind = 0x10 then
    if fieldsLength l && keyOk l then
      some (.callSet env ⟨keyAt l, bitAt (byteAt l 9) 0, byteAt l 10, fieldsAt l⟩)
    else none
  else if kind = 0x11 then
    if l.length = 11 && keyOk l then some (.callDelay env ⟨keyAt l, signedAt l 9⟩) else none
  else if kind = 0x12 then
    if 11 ≤ l.length && keyOk l then
      if byteAt l 10 = 1 then
        if fieldsLength l then some (.callPlatform env ⟨keyAt l, byteAt l 9, some (fieldsAt l)⟩) else none
      else if l.length = 11 then some (.callPlatform env ⟨keyAt l, byteAt l 9, none⟩)
      else none
    else none
  else if kind = 0x13 then
    if l.length = 9 && keyOk l then some (.callCancel env (keyAt l)) else none
  else if kind = 0x20 then
    if 34 ≤ l.length && l.length = 34 + 4 * byteAt l 33 && announceOk env.src (announceAt l) then
      some (.announce env (announceAt l))
    else none
  else if kind = 0x21 then
    if 4 ≤ l.length && l.length = 4 + 3 * byteAt l 3 then
      some (.zoneReport env ⟨byteAt l 0, wordAt l 1, (List.range (byteAt l 3)).map fun k =>
        ⟨byteAt l (4 + 3 * k), byteAt l (5 + 3 * k), byteAt l (6 + 3 * k)⟩⟩)
    else none
  else if kind = 0x22 then
    let f : WithdrawFrame := ⟨byteAt l 0, byteAt l 1, wordAt l 2, codeAt l 4, zoneSetAt l 10, byteAt l 18⟩
    if l.length = 19 && withdrawOk f then some (.withdraw env f) else none
  else if kind = 0x23 then
    if l.length = 21 then
      some (.withdrawDone env ⟨byteAt l 0, byteAt l 1, byteAt l 2, wordAt l 3, codeAt l 5, zoneSetAt l 11, byteAt l 19,
        byteAt l 20⟩)
    else none
  else if kind = 0x30 then
    if l.length = 10 then
      some (.faultNoticeReceived env ⟨byteAt l 0, byteAt l 1, wordAt l 2, dayAt l 4, longAt l 6⟩)
    else none
  else if kind = 0x40 then
    if 2 ≤ l.length && l.length ≤ 34 then
      some (maintRow ⟨env, byteAt l 1⟩ (byteAt l 0) (asBytes (l.drop 2)))
    else none
  else if kind = 0x41 then
    if 4 ≤ l.length && l.length ≤ 250 then
      some (.maintReplyReceived env ⟨byteAt l 0, byteAt l 1, byteAt l 2, byteAt l 3, asBytes (l.drop 4)⟩)
    else none
  else none

/-! ### Judging a received frame (R179) -/

/-- What the tests of R179 make of a frame. -/
inductive Verdict where
  | envelope
  | badCheck
  | wrongDest
  | unknownKind
  | malformed
  /-- the frame is good: the row it spells -/
  | good (row : Instr)
  deriving DecidableEq, Repr

/-- The destination is this station's own address or 31; an own address of 0 admits 31 alone (R179). -/
def destOk (own dst : Nat) : Bool := dst = 31 || (own ≠ 0 && dst = own)

/-- Judge a frame, given from its length byte to its check, by the tests of R179 in their order. -/
def judge (own : Nat) (raw : List Byte) : Verdict :=
  let l := raw.map BitVec.toNat
  if l.isEmpty || 250 < byteAt l 0 || l.length ≠ byteAt l 0 + 6 then .envelope
  else if crc (l.take (byteAt l 0 + 4)) ≠ wordAt l (byteAt l 0 + 4) then .badCheck
  else if !destOk own (byteAt l 2) then .wrongDest
  else if !knownKind (byteAt l 3) then .unknownKind
  else
    match payloadRow ⟨byteAt l 1, byteAt l 2⟩ (byteAt l 3) ((l.drop 4).take (byteAt l 0)) with
    | some i => .good i
    | none => .malformed

/-! ### The frames this station sends (R178, R183) -/

/-- The payload of an ANNOUNCE (R183). -/
def announceBytes (f : AnnounceFrame) : List Nat :=
  be1 f.origin ++ be2 f.seq ++ be1 f.cls ++ be2 f.libVersion ++ [flagByte [f.codePresent, f.syncPresent, f.mustSync]] ++
    codeBytes f.code ++ zoneBytes f.zones ++ be2 f.expiryDay.toNat ++ be4 f.expiryTime ++ be2 f.syncDay.toNat ++
    be4 f.syncTime ++ be1 f.segs.length ++ f.segs.flatMap fun s => be1 s.kind ++ be2 s.phrase ++ be1 s.arg

/-- The payload of a ZONE_REPORT (R183). -/
def zoneReportBytes (f : ZoneReportFrame) : List Nat :=
  be1 f.origin ++ be2 f.seq ++ be1 f.items.length ++ f.items.flatMap fun i => [i.zone % 256, i.outcome % 256, i.detail % 256]

/-- The payload of a WITHDRAW (R183). -/
def withdrawBytes (f : WithdrawFrame) : List Nat :=
  be1 f.granularity ++ be1 f.origin ++ be2 f.seq ++ codeBytes f.code ++ zoneBytes f.zones ++ be1 f.threshold

/-- The payload of a WITHDRAW_DONE (R183). -/
def withdrawDoneBytes (f : WithdrawDoneFrame) : List Nat :=
  be1 f.requested ++ be1 f.performed ++ be1 f.origin ++ be2 f.seq ++ codeBytes f.code ++ zoneBytes f.zones ++
    be1 f.threshold ++ be1 f.removed

/-- The payload of a FAULT_NOTICE (R183). -/
def faultNoticeBytes (f : FaultNoticeFrame) : List Nat :=
  be1 f.index ++ be1 f.kind ++ be2 f.source ++ be2 f.day.toNat ++ be4 f.time

/-- The payload of a beacon of this station: time-capable clear, load state RUNNING (R182, R183). -/
def beaconBytes (f : BeaconFill) : List Nat :=
  [flagByte [false, f.evacActive, f.faultPending], 1] ++ be2 f.day.toNat ++ be4 f.time ++ be2 f.libVersion ++
    zoneBytes f.zones

/-- The code of a refusal reason, 0 for none (R183). -/
def refusalCode : Option RefuseReason → Nat
  | none => 0
  | some .busy => 1
  | some .locked => 2
  | some .range => 3
  | some .unknown => 4

/-- The routing byte of the fault relay (R185). -/
def routingByte (r : Routing) : Nat := flagByte [r.line, r.playout, r.calls, r.link, r.config]

/-- The seventeen bytes of one record of a QUERY_FAULT reply (R198). An invalid record holds nothing that is read (R193):
its bytes after the index are free values (log entry 63). -/
def faultRecordBytes (r : Nat × Option FaultRecord) : List Nat :=
  match r.2 with
  | some f =>
    [128 + r.1 % 16] ++ be1 (faultCode f.kind) ++ be2 f.source ++ be2 f.first.day.toNat ++ be4 f.first.time ++
      be2 f.last.day.toNat ++ be4 f.last.time ++ be1 f.count
  | none => [r.1 % 16] ++ (List.range 16).map fun k => Config.invalidRecordByte r.1 k % 256

/-- The content bytes of a reply, for the requests whose reply layout the manual gives (R198, log entry 14). The bytes of
the overflow flag and of the relay state are 1 or 0: DESIGN CHOICE, log entry 64. -/
def contentBytes : ReplyContent → Option (List Nat)
  | .none => some []
  | .fault v => some (v.records.flatMap faultRecordBytes ++
      [if v.overflow then 1 else 0] ++ be1 v.lost ++ [if v.relay then 1 else 0] ++ [routingByte v.routing])
  | .call _ => none
  | .zone _ => none
  | .survey _ => none
  | .counters _ => none

/-- The kind byte of a frame this station sends (R183). -/
def TxPayload.kind : TxPayload → Nat
  | .beacon _ => 0x01
  | .announce _ => 0x20
  | .zoneReport _ => 0x21
  | .withdraw _ => 0x22
  | .withdrawDone _ => 0x23
  | .faultNotice _ => 0x30
  | .maintReply _ _ _ _ => 0x41

/-- The payload bytes of a frame this station sends; absent for a beacon not yet filled and for a reply whose content
layout the manual does not give (R183, log entry 14). -/
def TxPayload.bytes : TxPayload → Option (List Nat)
  | .beacon none => none
  | .beacon (some f) => some (beaconBytes f)
  | .announce f => some (announceBytes f)
  | .zoneReport f => some (zoneReportBytes f)
  | .withdraw f => some (withdrawBytes f)
  | .withdrawDone f => some (withdrawDoneBytes f)
  | .faultNotice f => some (faultNoticeBytes f)
  | .maintReply code tag refused content =>
    (contentBytes content).map fun c =>
      be1 code ++ be1 tag ++ [if refused.isSome then 1 else 0, refusalCode refused] ++ c

/-- A whole frame from its length byte to its check, high byte of the check first (R178). -/
def frameOf (src dst kind : Nat) (payload : List Nat) : List Byte :=
  let l := be1 payload.length ++ be1 src ++ be1 dst ++ be1 kind ++ payload
  asBytes (l ++ be2 (crc l))

/-- The bytes of a frame this station sends (R178, R183). -/
def TxFrame.bytes (own : Nat) (f : TxFrame) : Option (List Byte) :=
  f.payload.bytes.map fun p => frameOf own f.dst f.payload.kind p

end Sys2Proof.Machine
end

