-- ==== Sys2Proof/Machine/Link.lean ====
section
/-! DEFINITION. The Link Interface: receiving (R179), the idle count and sending (R180, R181), and beacons (R182). -/
namespace Sys2Proof.Machine

/-- Change the blocks of `Net`, reading the surroundings. -/
def State.onNet (s : State) (f : Env → Net → Net) : State := s.onPlay fun e p => p.onNet (f e)

/-- Change the Link Interface. -/
def State.onLki (s : State) (f : LinkUnit → LinkUnit) : State :=
  s.onNet fun _ n => { n with lki := f n.lki }

/-- Change the counts of the Link Interface. -/
def LinkUnit.count (l : LinkUnit) (f : LinkCounts → LinkCounts) : LinkUnit := { l with counts := f l.counts }

/-- Every command ends by reporting the outcomes it gave rise to, and by testing the start gate (R117, R172). -/
def State.finish (s : State) : State := s.onPlay Play.finish

/-- Every command of a block boundary ends by holding its outcomes until the boundary has been taken whole, and by testing
the start gate (R117, R172). -/
def State.finishBoundary (s : State) : State := s.onPlay Play.finishBoundary

/-! ### Receiving (R179, R180, R184) -/

/-- A frame has ended on the link: the idle count starts from 0 (R180). -/
def LinkUnit.frameEnds (l : LinkUnit) : LinkUnit := { l with idle := 0, busy := false }

/-- A frame of a row is received: one for another station, or holding a value that R184 calls malformed, is discarded
and counted; a good one is counted and handed on (R179). -/
def State.receive (env : Envelope) (ok : Bool) (act : State → State) (s : State) : State :=
  let s := s.onLki LinkUnit.frameEnds
  if !destOk s.cfl.own env.dst then s.onLki fun l => l.count fun c => { c with wrongDest := bump c.wrongDest }
  else if !ok then s.onLki fun l => l.count fun c => { c with malformed := bump c.malformed }
  else act (s.onLki fun l => l.count fun c => { c with good := bump c.good })

/-- In LOADING and UNCONFIGURED a good frame is discarded without a further count (R179). -/
def State.whenRunning (act : State → State) (s : State) : State := if s.cfl.load = .running then act s else s

/-- A frame that fails a test of R179 is discarded with that test's count. A frame that passes them all is the row it
spells, and no discard (log entry 15). -/
def State.discard (raw : List Byte) (s : State) : State :=
  match judge s.cfl.own raw with
  | .good _ => s
  | v => (s.onLki LinkUnit.frameEnds).onLki fun l => l.count fun c =>
    match v with
    | .envelope => { c with envelope := bump c.envelope }
    | .badCheck => { c with badCheck := bump c.badCheck }
    | .wrongDest => { c with wrongDest := bump c.wrongDest }
    | .unknownKind => { c with unknownKind := bump c.unknownKind }
    | .malformed => { c with malformed := bump c.malformed }
    | .good _ => c

/-! ### Sending (R180, R181, R182) -/

/-- The gap of a frame: urgency × 32 plus the own address (R180). -/
def gapOf (own : Nat) (f : TxFrame) : Nat := f.urgency * 32 + own

/-- The fault-pending flag: the Fault Log holds at least one valid record (R182, R193). -/
def FaultLog.pending (f : FaultLog) : Bool := f.records.toList.any Option.isSome

/-- The contents of a beacon as it is begun: the time and day the clock will hold at the end of the frame, 0 and 0 in
UNSET (R182; the frame's duration is a free value, log entry 5). -/
def beaconFill (e : Env) (p : Play) : BeaconFill :=
  let at_ : Instant := if e.clock = .unset then ⟨0, 0⟩ else
    let t := e.now.time + Config.frameMs 18
    ⟨e.now.day + BitVec.ofNat 16 (t / dayMs), t % dayMs⟩
  ⟨at_.day, at_.time, p.cfu.version, e.ownedZones, p.evl.active, p.net.flt.pending⟩

/-- A frame as it is begun: a beacon is filled (R182). -/
def TxFrame.begin (fill : BeaconFill) (f : TxFrame) : TxFrame :=
  match f.payload with
  | .beacon _ => { f with payload := .beacon (some fill) }
  | _ => f

/-- The idle count rises to a value; when it reaches the gap of the head frame of a station with an address, that
frame is begun and leaves the queue (R180; the count is carried by the command, log entry 16). -/
def State.gapReached (idle : Nat) (s : State) : State :=
  s.onPlay fun e p => p.onNet fun n =>
    let l := n.lki
    if l.busy || idle < l.idle then n
    else
      match l.queue, l.sending with
      | f :: rest, none =>
        if e.running && gapOf e.own f ≤ idle then
          { n with lki := { l with
            queue := rest, sending := some (f.begin (beaconFill e p)), idle := 0, busy := true } }
        else { n with lki := { l with idle := idle } }
      | _, _ => { n with lki := { l with idle := idle } }

/-- A frame of this station has been sent whole: it is counted, and an ANNOUNCE takes its first-report deadline (R110,
R181, R192). -/
def Net.frameSent (e : Env) (n : Net) : Net :=
  match n.lki.sending with
  | none => n
  | some f =>
    let l := { n.lki.frameEnds with sending := none }
    let n := { n with lki := l.count fun c => { c with sent := bump c.sent } }
    match f.payload with
    | .announce a => n.announceSent e ⟨a.origin, a.seq⟩
    | _ => n

/-- A beacon stands in the transmit queue. -/
def LinkUnit.beaconQueued (l : LinkUnit) : Bool := l.queue.any fun f => f.payload = .beacon none

/-- A beacon is due: it is queued, unless the previous one still stands in the queue (R182). -/
def Net.beaconDue (e : Env) (n : Net) : Net :=
  let n := { n with lki := { n.lki with beaconAt := n.lki.beaconAt + 1000 } }
  if n.lki.beaconQueued then
    { n with lki := n.lki.count fun c => { c with heldBeacon := bump c.heldBeacon } }
  else n.enqueue e ⟨2, 31, .beacon none⟩

end Sys2Proof.Machine
end

