-- ==== Sys2Proof/Machine/Start.lean ====
section
/-! DEFINITION. Start-up: power-on reset (R188), the two reads of LOADING (R125, R186), entry to RUNNING (R189) and
to UNCONFIGURED (R190), and the soft restart (R191). -/
namespace Sys2Proof.Machine

/-- Change the Configuration Loader. -/
def State.onCfl (s : State) (f : Loader → Loader) : State := { s with cfl := f s.cfl }

/-- A power-on or pin reset: every block at its reset values; the raw levels of the pins are what they are, their counts
begin at the reset, and the sense inputs go on with the samples that follow (R18, R170, R188). What stays: DESIGN
CHOICE, log entry 23. -/
def State.powerOn (s : State) : State :=
  let raw (d : Debounce) : Debounce := { Debounce.reset with raw := d.raw }
  { State.reset with
    play := { Play.reset with
      evl := { Evac.reset with raw := s.play.evl.raw }
      lvc := { Levels.reset with sampled := s.play.lvc.sampled } }
    ctb := { CallTable.reset with
      occupancy := mapIdx s.ctb.occupancy fun _ d => raw d, approach := mapIdx s.ctb.approach fun _ d => raw d }
    pending := s.pending }

/-! ### Entry to RUNNING (R75, R105, R140, R152, R160, R162, R174, R189) -/

/-- The zone of an output takes its id, FAULTED when its line is SHORT or OPEN (R75). An output given no owned zone
drops the EVAC entry it holds with NOT_OWNED, a sounding one at the next block boundary (R105). A waiting entry is
dropped at once: DEDUCED, log entry 35. -/
def Play.startZone (e : Env) (p : Play) (o : Out) : Play :=
  match e.zoneCfg o with
  | some z => p.onZone o fun q => { q with id := some z.zone, faulted := p.lineDown o }
  | none =>
    let p := ((p.zone o).waiting fun _ => true).foldl (Play.dropWaiting e o .notOwned) p
    p.onZone o fun z => z.onEntries Entry.sounding fun en =>
      en.addCause fun c => { c.giveDrop .notOwned with atBlock := true }

/-- The level values of an output on entry to RUNNING; a zone that renders an EVAC entry has its gain computed at once,
and an output without a zone keeps 180 while it plays (R140, R152). -/
def Play.startLevel (e : Env) (p : Play) (o : Out) : Play :=
  let playing := (p.zone o).queue.any Entry.sounding
  match e.zoneCfg o with
  | some z =>
    let p := p.onLevel o fun l => { l with n16 := z.noise * 16, discard := false, gain := z.gmin, target := none }
    if playing then p.computeGain e o .evac true else p
  | none => p.onLevel o fun l =>
      { l with n16 := 0, discard := false, gain := if playing then 180 else 0, target := none }

/-- The line of an output on entry to RUNNING (R160). -/
def Play.startLine (e : Env) (p : Play) (o : Out) : Play :=
  p.onLine o fun l =>
    match e.zoneCfg o with
    | some z => { l with limits := z.limits, candidate := none, run := 0 }
    | none => { l with status := .unknown, candidate := none, run := 0, missed := 0, last := none, supervised := false }

/-- The survey values of an output on entry to RUNNING (R162). -/
def Play.startSurvey (e : Env) (p : Play) (o : Out) : Play :=
  match e.zoneCfg o with
  | some z => p.onSurvey o fun v =>
      { v with candidates := z.candidates, params := z.params, preset := some z.preset, offset := 0, retryAt := none }
  | none => p

/-- Each block of `Play` takes its part of the image, the EVAC entries are offered again, and the first beacon is queued
(R174, R182, R189). The blocks and the outputs are taken in one order: DESIGN CHOICE, log entry 76. -/
def Play.start (e : Env) (lock : Bool) (p : Play) : Play :=
  let p := allOuts.foldl (Play.startZone e) p
  let p := allOuts.foldl (Play.startSurvey e) p
  let p := allOuts.foldl (Play.startLevel e) p
  let p := allOuts.foldl (Play.startLine e) p
  let p := p.onLsu fun u => { u with lock := u.lock || lock }
  let p := p.reofferAll e
  p.onNet fun n =>
    Net.enqueue e ⟨2, 31, .beacon none⟩ { n with lki := { n.lki with beaconAt := e.elapsed + 1000 } }

/-- Entry to RUNNING with an accepted image (R189). The trigger counters start at 0 (R40, R55). -/
def State.enterRunning (image : Image) (clamped : Nat) (s : State) : State :=
  let s := s.onCfl fun c => { c with load := .running, image := some image, clamped := clamped }
  let s := s.onTgu fun _ => Triggers.reset
  let s := s.onPlay fun e p => p.start e image.lock
  s.settleQuiet

/-- Entry to UNCONFIGURED: CONFIG_INVALID is reported with the load failure cause as source (R190). -/
def State.enterUnconfigured (cause : LoadFailure) (s : State) : State :=
  (s.onCfl fun c => { c with load := .unconfigured }).onPlay fun e p => p.fault e .configInvalid (failureCode cause)

/-- The part leaves LOADING once the configuration load is settled and the header read has completed or failed
(R188). -/
def State.leaveLoading (s : State) : State :=
  match s.cfl.load, s.cfl.headerDone, s.cfl.config with
  | .loading, true, some (.accepted image clamped) => s.enterRunning image clamped
  | .loading, true, some (.failed cause) => s.enterUnconfigured cause
  | _, _, _ => s

/-! ### The reads of LOADING (R125, R186) -/

/-- The header read is settled with a version and a size, or with 0 and 0; the port passes to the next read (R125,
R136; log entry 17). -/
def State.settleHeader (header : Option LibHeader) (s : State) : State :=
  if s.cfl.load = .loading && !s.cfl.headerDone then
    let (version, size) := match header with
      | some h => if 129 ≤ h.size && h.size ≤ 524288 then (h.version, h.size) else (0, 0)
      | none => (0, 0)
    let s := s.onCfl fun c => { c with headerDone := true }
    let s := s.onPlay fun _ p => (p.onCfu fun f =>
      { f with version := version, size := size, port := if f.port = some .header then none else f.port }).grantPort
    s.leaveLoading
  else s

/-- The configuration load is settled (R186, R188). -/
def State.settleConfig (r : ConfigResult) (s : State) : State :=
  if s.cfl.load = .loading && s.cfl.config.isNone then
    (s.onCfl fun c => { c with config := some r }).leaveLoading
  else s

/-- The time limit of the reads of LOADING has passed (R125, R186). -/
def State.loadExpired (s : State) : Bool := 2000 ≤ s.elapsed

/-! ### The soft restart (R3, R40, R55, R74, R103, R122, R139, R153, R168, R191) -/

/-- A soft restart in one output: waiting entries are dropped with RESTART, a sounding one stops at the next block
boundary, and a survey is aborted (R103, R168). A STOPPING entry that holds a drop reason keeps it, and is counted and
reported under it (R87): DESIGN CHOICE, log entry 70. -/
def Play.restartZone (e : Env) (p : Play) (o : Out) : Play :=
  let p := ((p.zone o).waiting fun _ => true).foldl (Play.dropWaiting e o .restart) p
  let p := p.onZone o fun z => z.onEntries Entry.sounding fun en =>
    en.addCause fun c => { c.giveDrop .restart with restart := true, atBlock := true }
  p.abortSurvey e o .restart

/-- A soft restart in the blocks of `Play`: the waiting list is emptied first, so that no channel it frees is assigned
(R139); the queues, the origination table and the last targets are cleared, and the EVAC entries are offered again
once nothing is left to stop (R74, R103, R122, R153, R172, R174). When the re-offers are made: DEDUCED, log entry 44.
-/
def Play.restart (e : Env) (p : Play) : Play :=
  let p := p.onCfu fun f => { f with waiting := [] }
  let p := allOuts.foldl (Play.restartZone e) p
  let p := p.sweepEvac
  let p := { p with lvc := { p.lvc with outs := mapIdx p.lvc.outs fun _ l => { l with target := none } } }
  let p := p.onNet fun n => n.onPau fun q => { q with table := [] }
  if p.restartInProgress then p else p.reofferRestart e

/-- A soft restart at the blocks other than the Link Interface (R191): each clears its announcement state, and the
restart is counted. The blocks act in one order: DESIGN CHOICE, log entry 76. -/
def State.restartBlocks (s : State) : State :=
  let s := s.onCtb fun c => { c with places := Vector.replicate 96 .free }
  let s := s.onTgu fun _ => Triggers.reset
  let s := s.onCfl fun c => { c with restarts := bump c.restarts }
  s.onPlay Play.restart

end Sys2Proof.Machine
end

