-- ==== Sys2Proof/Machine/Maint.lean ====
section
/-! DEFINITION. The fault relay (R196) and the maintenance requests with their replies (R195, R197, R198). -/
namespace Sys2Proof.Machine

/-! ### The fault relay (R196) -/

/-- A fault kind is of a routed relay class (R196). -/
def Routing.routes (r : Routing) : FaultKind → Bool
  | .lineShort => r.line
  | .lineOpen => r.line
  | .lineLeak => r.line
  | .supervisionLost => r.line
  | .underrun => r.playout
  | .phraseMissing => r.playout
  | .templateOverflow => r.playout
  | .reservedPhrase => r.playout
  | .callTableFull => r.calls
  | .platformUnexpected => r.calls
  | .timeHoldover => r.link
  | .timeStep => r.link
  | .peerSilent => r.link
  | .zoneOwnerConflict => r.link
  | .originationFull => r.link
  | .libraryMismatch => r.link
  | .configInvalid => r.config

/-- The routed classes: those of the image in RUNNING, every class before (R196). -/
def State.routing (s : State) : Routing :=
  match s.cfl.image with
  | some i => i.routing
  | none => ⟨true, true, true, true, true⟩

/-- A supervised output holds the line condition of the relay (R196). -/
def Line.alarm (l : Line) : Bool :=
  l.supervised && (l.status = .short || l.status = .opened || l.status = .leak)

/-- The fault relay is asserted: a valid record is of a routed class, or LINE is routed and a supervised output is
SHORT, OPEN or LEAK (R196). -/
def State.relay (s : State) : Bool :=
  (s.play.net.flt.records.toList.any fun r => r.any fun r => s.routing.routes r.kind) ||
    (s.routing.line && s.play.lsu.lines.toList.any Line.alarm)

/-! ### What the queries return (R104, R139, R153, R169, R198) -/

/-- An entry in a queue summary (R104). -/
def Entry.view (en : Entry) : EntryView := ⟨en.id, en.cls, en.origin, en.state, en.seg, en.allowance, en.stale, en.expiry⟩

/-- The content of a QUERY_ZONE reply (R104, R153, R169). -/
def State.zoneView (s : State) (o : Out) : ZoneView :=
  let z := s.play.zone o
  let l := s.play.levelAt o
  let n := s.play.lineAt o
  let v := s.play.surveyAt o
  { zone := z.id, state := z.state, queue := z.queue.map Entry.view, lastLevel := l.last, n16 := l.n16,
    noise := wholeNoise l.n16, gain := l.gain, target := l.target, discard := l.discard, quiet := s.sck.quiet,
    status := n.status, limits := n.limits, candidate := n.candidate, run := n.run, missed := n.missed,
    last := n.last, preset := v.preset, offset := v.offset }

/-- The content of a QUERY_FAULT reply: up to 14 records from an index upward (R198). -/
def State.faultView (s : State) (first : Nat) : FaultView :=
  let f := s.play.net.flt
  let indexes := ((List.finRange 16).filter fun i => first ≤ i.val).take 14
  ⟨indexes.map fun i => (i.val, f.records.get i), f.overflow, f.lost, s.relay, s.routing⟩

/-- The content of a QUERY_SURVEY reply (R169). -/
def State.surveyView (s : State) (o : Out) : SurveyView :=
  let v := s.play.surveyAt o
  ⟨v.record, v.candidates, v.params, v.preset, v.offset, v.phase, v.retryAt.isSome⟩

/-- One channel in a QUERY_COUNTERS reply (R139). -/
def Channel.view (c : Channel) : ChannelView := ⟨c.state, c.cls, c.served, c.members, c.mark⟩

/-- The frames of the transmit queue at an urgency (R192). -/
def LinkUnit.queuedAt (l : LinkUnit) (u : Nat) : Nat := (l.queue.filter fun f => f.urgency = u).length

/-- The live entries of the owner map (R124). -/
def Peers.liveOwners (p : Peers) (elapsed : Nat) : Nat :=
  (p.owners.toList.filter fun o => o.any fun o => elapsed < o.heard + 3000).length

/-- The content of a QUERY_COUNTERS reply for a block code; absent above 10 (R198). -/
def State.countersView (s : State) (block : Nat) : Option CountersView :=
  let p := s.play
  match block with
  | 0 => some (.ctb s.ctb.counts)
  | 1 => some (.sck s.sck.state s.sck.selected s.sck.day s.sck.time s.sck.pendingStep)
  | 2 => some (.tgu s.tgu)
  | 3 => some (.cmu p.cmu.counts (p.cmu.slots.toList.filter Option.isSome).length p.cmu.evacSlot.isSome)
  | 4 => some (.zpc p.zpc.counts)
  | 5 => some (.pau p.net.pau.counts p.net.pau.table.length (p.net.pau.liveOwners s.elapsed))
  | 6 => some (.cfu p.cfu.counts p.cfu.version p.cfu.size (p.cfu.channels.toList.map Channel.view))
  | 7 => some (.survey p.lsu.corrupt p.lsu.missed p.vsu.counts p.lsu.lock)
  | 8 => some (.evl p.evl.active p.evl.idInUse p.evl.gateClosed p.evl.assertions)
  | 9 =>
    let l := p.net.lki
    let (format, check) := match s.cfl.image with
      | some i => (i.format, i.check)
      | none => (0, 0)
    some (.link l.counts s.cfl.load s.cfl.own format check (l.queuedAt 0) (l.queuedAt 1) (l.queuedAt 2) s.cfl.clamped
      s.cfl.restarts)
  | 10 =>
    let f := p.net.flt
    some (.flt f.notices f.lost f.overflow f.replies f.refusedBusy f.refusedLocked f.refusedRange f.refusedUnknown)
  | _ => none

/-! ### Settling a request (R197) -/

/-- What a request comes to: the state it leaves, the refusal if it is one, and the content of an accepted query. -/
structure Settled where
  state : State
  refused : Option RefuseReason
  content : ReplyContent
  deriving DecidableEq, Repr

/-- A request accepted with no content. -/
def State.accept (s : State) : Settled := ⟨s, none, .none⟩

/-- A request accepted with content. -/
def State.answer (s : State) (c : ReplyContent) : Settled := ⟨s, none, c⟩

/-- A request refused. -/
def State.refuse (s : State) (r : RefuseReason) : Settled := ⟨s, some r, .none⟩

/-- The reply count and the count of a refusal's reason (R197). -/
def FaultLog.countReply (f : FaultLog) (r : Option RefuseReason) : FaultLog :=
  let f := { f with replies := bump f.replies }
  match r with
  | none => f
  | some .busy => { f with refusedBusy := bump f.refusedBusy }
  | some .locked => { f with refusedLocked := bump f.refusedLocked }
  | some .range => { f with refusedRange := bump f.refusedRange }
  | some .unknown => { f with refusedUnknown := bump f.refusedUnknown }

/-- Queue the MAINT_REPLY of a settled request at urgency 2, to the request's source (R197). -/
def Settled.reply (h : MaintHead) (code : Nat) (r : Settled) : State :=
  r.state.onNet fun e n =>
    Net.enqueue e ⟨2, h.env.src, .maintReply code h.tag r.refused r.content⟩
      { n with flt := n.flt.countReply r.refused }

/-- A MAINT_REQUEST: a good one, addressed in RUNNING to the own address, is settled and answered; one addressed to 31
is passed over (R197, R199). -/
def State.maint (h : MaintHead) (code : Nat) (settle : State → Settled) (s : State) : State :=
  s.receive h.env true fun s =>
    s.whenRunning fun s => if h.env.dst = 31 then s else (settle s).reply h code

/-- The argument bytes as numbers. -/
def argBytes (args : List Byte) : List Nat := args.map BitVec.toNat

/-- A request whose one argument is an output 0..7 (R198). -/
def withOutput (args : List Byte) (f : Out → State → Settled) (s : State) : Settled :=
  match argBytes args with
  | [o] => if h : o < 8 then f ⟨o, h⟩ s else s.refuse .range
  | _ => s.refuse .range

/-- A request that takes no argument (R198). -/
def withNone (args : List Byte) (f : State → Settled) (s : State) : Settled :=
  if args.isEmpty then f s else s.refuse .range

/-! ### The requests (R198) -/

/-- QUERY_CALL: by index, or by key (R3, R198). A kind above 1 is out of range: DESIGN CHOICE, log entry 28. -/
def settleQueryCall (args : List Byte) (s : State) : Settled :=
  let l := argBytes args
  let found (x : Option (Fin 96 × CallRec)) : Settled := s.answer (.call (x.map fun x => (x.1.val, x.2)))
  match byteAt l 0, l.length with
  | 0, 2 =>
    if byteAt l 1 ≤ 95 then found (s.ctb.held.find? fun x => x.1.val = byteAt l 1) else s.refuse .range
  | 1, 8 =>
    match kindOf (byteAt l 7) with
    | some k => found (s.ctb.find (codeAt l 1) k)
    | none => s.refuse .range
  | _, _ => s.refuse .range

/-- QUERY_ZONE (R104, R198). -/
def settleQueryZone (args : List Byte) (s : State) : Settled :=
  withOutput args (fun o s => s.answer (.zone (s.zoneView o))) s

/-- QUERY_FAULT (R198). -/
def settleQueryFault (args : List Byte) (s : State) : Settled :=
  match argBytes args with
  | [i] => if i ≤ 15 then s.answer (.fault (s.faultView i)) else s.refuse .range
  | _ => s.refuse .range

/-- QUERY_SURVEY (R169, R198). -/
def settleQuerySurvey (args : List Byte) (s : State) : Settled :=
  withOutput args (fun o s => s.answer (.survey (s.surveyView o))) s

/-- QUERY_COUNTERS (R198). -/
def settleQueryCounters (args : List Byte) (s : State) : Settled :=
  match argBytes args with
  | [b] =>
    match s.countersView b with
    | some v => s.answer (.counters v)
    | none => s.refuse .range
  | _ => s.refuse .range

/-- Make one fault record invalid (R195). -/
def FaultLog.clearOne (f : FaultLog) (i : Fin 16) : FaultLog := { f with records := upd f.records i fun _ => none }

/-- Make every fault record invalid, with the overflow flag and the lost count (R195). -/
def FaultLog.clearAll (f : FaultLog) : FaultLog :=
  { f with records := Vector.replicate 16 none, overflow := false, lost := 0 }

/-- Change the Fault Log. -/
def State.onFlt (s : State) (f : FaultLog → FaultLog) : State := s.onNet fun _ n => { n with flt := f n.flt }

/-- CLEAR_FAULT: one index, or ALL (R195, R198). -/
def settleClearFault (args : List Byte) (s : State) : Settled :=
  match argBytes args with
  | [i] =>
    if h : i < 16 then (s.onFlt fun f => f.clearOne ⟨i, h⟩).accept
    else if i = 255 then (s.onFlt FaultLog.clearAll).accept
    else s.refuse .range
  | _ => s.refuse .range

/-- SURVEY_START: RANGE for an output without an owned zone, BUSY when a start is not allowed (R163). -/
def settleSurveyStart (args : List Byte) (s : State) : Settled :=
  withOutput args (fun o s =>
    if (s.play.zone o).id.isNone then s.refuse .range
    else if s.play.surveyAllowed s.env o then (s.onPlay fun e p => p.beginSurvey e o .request).accept
    else (s.onPlay fun _ p => p.onSurveyCounts fun c =>
      { c with refusedStart := bump c.refusedStart }).refuse .busy) s

/-- SURVEY_ABORT: accepted whether or not a survey runs (R168). -/
def settleSurveyAbort (args : List Byte) (s : State) : Settled :=
  withOutput args (fun o s => (s.onPlay fun e p => p.abortSurvey e o .maintAbort).accept) s

/-- LIMIT_SET: LOCKED under the limit lock, RANGE for an output without an owned zone or values out of range; accepted,
the limits are replaced and the validation counters cleared (R161). -/
def settleLimitSet (args : List Byte) (s : State) : Settled :=
  let l := argBytes args
  if h : l.length = 7 ∧ byteAt l 0 < 8 then
    let o : Out := ⟨byteAt l 0, h.2⟩
    let limits : Limits := ⟨wordAt l 1, wordAt l 3, wordAt l 5⟩
    if s.play.lsu.lock then s.refuse .locked
    else if (s.play.zone o).id.isNone || limits.zhigh ≤ limits.zlow || 1023 < limits.zhigh || 255 < limits.lmax then
      s.refuse .range
    else
      (s.onPlay fun _ p => p.onLine o fun x => { x with limits := limits, candidate := none, run := 0 }).accept
  else s.refuse .range

/-- LIMIT_LOCK sets the limit lock (R161). -/
def settleLimitLock (args : List Byte) (s : State) : Settled :=
  withNone args (fun s => (s.onPlay fun _ p => p.onLsu fun u => { u with lock := true }).accept) s

/-- RESTART: BUSY while a soft restart is in progress; otherwise the transmit queue is emptied (R191, R197). -/
def settleRestart (args : List Byte) (s : State) : Settled :=
  withNone args (fun s => if s.play.restartInProgress then s.refuse .busy
    else (s.onLki fun l => { l with queue := [] }).accept) s

/-- A RESTART in RUNNING, addressed to the own address: its reply is queued on the emptied queue, and then the other
blocks restart, so that the reply is the first frame queued after the restart (R191, R197, R199). -/
def State.restartRequest (h : MaintHead) (args : List Byte) (s : State) : State :=
  s.receive h.env true fun s =>
    s.whenRunning fun s =>
      if h.env.dst = 31 then s
      else
        let r := settleRestart args s
        if r.refused.isNone then (r.reply h 0x40).restartBlocks else r.reply h 0x40

/-- A request code that the table does not hold (R197). -/
def settleUnknown (s : State) : Settled := s.refuse .unknown

end Sys2Proof.Machine
end

