-- ==== Sys2Proof/Machine/StartUp.lean ====
section
/-! DEFINITION. The meanings of the start-up commands: POWER_ON_RESET and the two reads of LOADING. -/
namespace Sys2Proof.Machine

/-- A time-driven command acts when what it stands for is due, and changes nothing otherwise (log entry 2). -/
def State.when (due : Bool) (act : State → State) (s : State) : State := if due then act s else s

/-- POWER_ON_RESET (R188). -/
def execPowerOnReset (s : State) : Host.Outcome State Fault Refusal := .next s.powerOn

/-- HEADER_READ_COMPLETE (R125): the header as read, absent for a failed read. -/
def execHeaderReadComplete (result : Option LibHeader) (s : State) : Host.Outcome State Fault Refusal :=
  .next (s.settleHeader result).finish

/-- HEADER_READ_TIMEOUT (R125): 2000 ms after the reset the read is treated as failed. -/
def execHeaderReadTimeout (s : State) : Host.Outcome State Fault Refusal :=
  .next (s.when s.loadExpired (State.settleHeader none)).finish

/-- CONFIG_READ_COMPLETE (R186, R187): the bytes delivered, absent for a failed read. -/
def execConfigReadComplete (result : Option (List Byte)) (s : State) : Host.Outcome State Fault Refusal :=
  .next (s.settleConfig (loadImage result)).finish

/-- CONFIG_LOAD_TIMEOUT (R186): 2000 ms after the reset the cause is UNREADABLE. -/
def execConfigLoadTimeout (s : State) : Host.Outcome State Fault Refusal :=
  .next (s.when s.loadExpired (State.settleConfig (.failed .unreadable))).finish

end Sys2Proof.Machine
end

