-- ==== Sys2Proof/Machine/Boundaries.lean ====
section
/-! DEFINITION. The meanings of the read completions (R134 to R138), of the block boundaries (R85 to R89, R131, R134), and
of the instants that waiting entries reach (R83, R91, R118). -/
namespace Sys2Proof.Machine

/-- SYNC_START_REACHED (R83). -/
def execSyncStartReached (id : AnnId) (s : State) : Host.Outcome State Fault Refusal :=
  .next (s.onPlay fun e p => p.syncStart e id).finish

/-- BLOCK_READ_COMPLETE (R131, R134, R138): the samples read, absent for a failed read. -/
def execBlockReadComplete (result : Option (List Int)) (s : State) : Host.Outcome State Fault Refusal :=
  .next (s.onPlay fun e p => p.blockRead e result).finish

/-- DIRECTORY_READ_COMPLETE (R127, R135): the entry read, absent for a failed read. -/
def execDirectoryReadComplete (result : Option DirEntry) (s : State) : Host.Outcome State Fault Refusal :=
  .next (s.onPlay fun e p => p.directoryRead e result).finish

/-- CHANNEL_START (R83, R131, R172). -/
def execChannelStart (channel : Chan) (s : State) : Host.Outcome State Fault Refusal :=
  .next (s.onPlay fun e p => p.channelStart e channel).finishBoundary

/-- CHANNEL_BLOCK_ADVANCE (R134, R137). -/
def execChannelBlockAdvance (channel : Chan) (s : State) : Host.Outcome State Fault Refusal :=
  .next (s.onPlay fun e p => p.blockAdvance e channel).finishBoundary

/-- PASS_END (R85, R86). -/
def execPassEnd (channel : Chan) (s : State) : Host.Outcome State Fault Refusal :=
  .next (s.onPlay fun e p => p.passEnd e channel).finishBoundary

/-- STOP_POINT_REACHED (R88, R89). -/
def execStopPointReached (channel : Chan) (s : State) : Host.Outcome State Fault Refusal :=
  .next (s.onPlay fun e p => p.stopPoint e channel).finishBoundary

/-- EXPIRY_REACHED (R91): the waiting entries of an id whose expiry instant is reached. -/
def execExpiryReached (id : AnnId) (s : State) : Host.Outcome State Fault Refusal :=
  .next (s.onPlay fun e p => p.dropAllWaiting e (fun en => en.id = id && e.expired en) .expired).finish

/-- SYNC_WINDOW_CLOSE (R118): the waiting must-sync entries of an id whose window has closed. -/
def execSyncWindowClose (id : AnnId) (s : State) : Host.Outcome State Fault Refusal :=
  .next (s.onPlay fun e p => p.dropAllWaiting e (fun en => en.id = id && e.syncMissed en) .syncMissed).finish

end Sys2Proof.Machine
end

