-- ==== Sys2Proof/Machine/Events.lean ====
section
/-! DEFINITION. The meanings of the link and clock events: sending, beacons, the signals of the Service Clock, and the
ageing of what was heard. -/
namespace Sys2Proof.Machine

/-- LINK_FRAME_BEGIN (R180): a frame begins on the link and the idle count starts from 0. -/
def execLinkFrameBegin (s : State) : Host.Outcome State Fault Refusal :=
  .next (s.onLki fun l => { l with idle := 0, busy := true })

/-- TRANSMIT_GAP_REACHED (R180, R182): the idle count carried; the head frame is begun when it reaches its gap. -/
def execTransmitGapReached (idle : Nat) (s : State) : Host.Outcome State Fault Refusal :=
  .next (s.gapReached idle)

/-- FRAME_SENT (R110, R181). -/
def execFrameSent (s : State) : Host.Outcome State Fault Refusal :=
  .next (s.onNet Net.frameSent)

/-- A beacon is due (R182). -/
def State.beaconIsDue (s : State) : Bool := s.cfl.load = .running && s.play.net.lki.beaconAt ≤ s.elapsed

/-- BEACON_DUE (R182). -/
def execBeaconDue (s : State) : Host.Outcome State Fault Refusal :=
  .next (s.when s.beaconIsDue (State.onNet · Net.beaconDue))

/-- STATION_DAY_END (R28, R34). -/
def execStationDayEnd (s : State) : Host.Outcome State Fault Refusal :=
  .next (s.when s.sck.dayEndDue State.dayEnd).finish

/-- WHOLE_SECOND (R35). -/
def execWholeSecond (s : State) : Host.Outcome State Fault Refusal :=
  .next (s.when s.sck.secondDue State.wholeSecond).finish

/-- HEARD_ENTRY_EXPIRE (R29). -/
def execHeardEntryExpire (address : Fin 31) (s : State) : Host.Outcome State Fault Refusal :=
  .next (s.when (s.heardDue address) (State.expireHeard address))

/-- HOLDOVER_TIMEOUT (R33). -/
def execHoldoverTimeout (s : State) : Host.Outcome State Fault Refusal :=
  .next (s.when s.holdoverDue State.holdover)

/-- QUIET_HOURS_CHANGE (R37). -/
def execQuietHoursChange (s : State) : Host.Outcome State Fault Refusal :=
  .next s.settleQuiet

/-- OWNER_ENTRY_EXPIRE (R106). -/
def execOwnerEntryExpire (zone : Fin 64) (s : State) : Host.Outcome State Fault Refusal :=
  .next (s.onNet fun e n => n.expireOwner e zone)

/-- REPORT_DEADLINE (R112). -/
def execReportDeadline (id : AnnId) (s : State) : Host.Outcome State Fault Refusal :=
  .next (s.when (s.play.net.deadlineDue s.env id) fun s => s.onNet fun e n => n.deadline e id)

/-- ORIGINATION_EXPIRE (R113). -/
def execOriginationExpire (id : AnnId) (s : State) : Host.Outcome State Fault Refusal :=
  .next (s.when (s.play.net.retireDue s.env id) fun s => s.onNet fun _ n => n.retire id)

end Sys2Proof.Machine
end

