-- ==== Sys2Proof/Machine/Frames.lean ====
section
/-! DEFINITION. The meanings of the frames received: a discard, the beacon, the timetable frames, the frames between
stations, and the two kinds that no block acts on. -/
namespace Sys2Proof.Machine

/-- FRAME_DISCARD (R179): the frame as heard, from its length byte to its check. -/
def execFrameDiscard (raw : List Byte) (s : State) : Host.Outcome State Fault Refusal := .next (s.discard raw).finish

/-- BEACON (R29 to R32, R107): the Service Clock takes it in every load state, the owner map in RUNNING. The clock acts
first, with all that it brings about, and the owner map after it: DESIGN CHOICE, log entry 54. -/
def execBeacon (env : Envelope) (f : BeaconFrame) (s : State) : Host.Outcome State Fault Refusal :=
  .next (s.receive env (f.loadState = 1) fun s =>
    (s.timeBeacon env.src f).whenRunning fun s => s.onNet fun e n => n.ownerBeacon e env.src f).finish

/-- CALL_SET (R8, R9, R10). -/
def execCallSet (env : Envelope) (f : CallSetFrame) (s : State) : Host.Outcome State Fault Refusal :=
  .next (s.receive env (f.key.kind ≤ 1) (State.whenRunning (State.callSet f))).finish

/-- CALL_DELAY (R11). -/
def execCallDelay (env : Envelope) (f : CallDelayFrame) (s : State) : Host.Outcome State Fault Refusal :=
  .next (s.receive env (f.key.kind ≤ 1) (State.whenRunning (State.callDelay f))).finish

/-- CALL_PLATFORM (R12). -/
def execCallPlatform (env : Envelope) (f : CallPlatformFrame) (s : State) : Host.Outcome State Fault Refusal :=
  .next (s.receive env (f.key.kind ≤ 1) (State.whenRunning (State.callPlatform f))).finish

/-- CALL_CANCEL (R13). -/
def execCallCancel (env : Envelope) (f : CallKeyFields) (s : State) : Host.Outcome State Fault Refusal :=
  .next (s.receive env (f.kind ≤ 1) (State.whenRunning (State.callCancel f))).finish

/-- ANNOUNCE (R115). -/
def execAnnounce (env : Envelope) (f : AnnounceFrame) (s : State) : Host.Outcome State Fault Refusal :=
  .next (s.receive env (announceOk env.src f)
    (State.whenRunning fun s => s.onPlay fun e p => p.announce e env f)).finish

/-- ZONE_REPORT (R111). -/
def execZoneReport (env : Envelope) (f : ZoneReportFrame) (s : State) : Host.Outcome State Fault Refusal :=
  .next (s.receive env true
    (State.whenRunning fun s => s.onNet fun e n => n.onPau fun p => p.zoneReport e.own env.src f)).finish

/-- WITHDRAW (R119, R120). -/
def execWithdraw (env : Envelope) (f : WithdrawFrame) (s : State) : Host.Outcome State Fault Refusal :=
  .next (s.receive env (withdrawOk f)
    (State.whenRunning fun s => s.onPlay fun e p => p.withdraw e env f)).finish

/-- WITHDRAW_DONE (R121). -/
def execWithdrawDone (env : Envelope) (f : WithdrawDoneFrame) (s : State) : Host.Outcome State Fault Refusal :=
  .next (s.receive env true
    (State.whenRunning fun s => s.onNet fun e n => n.onPau fun p => p.withdrawDone e.own env f)).finish

/-- FAULT_NOTICE_RECEIVED: no block acts on it (R179, R183). -/
def execFaultNoticeReceived (env : Envelope) (_f : FaultNoticeFrame) (s : State) : Host.Outcome State Fault Refusal :=
  .next (s.receive env true id).finish

/-- MAINT_REPLY_RECEIVED: no block acts on it (R179, R183). -/
def execMaintReplyReceived (env : Envelope) (_f : MaintReplyFrame) (s : State) : Host.Outcome State Fault Refusal :=
  .next (s.receive env true id).finish

end Sys2Proof.Machine
end

