-- ==== Sys2Proof/Machine/Inputs.lean ====
section
/-! DEFINITION. The meanings of the berth inputs (R18 to R21), of retirement (R22), of the evacuation input (R170, R171,
R175), and of what the sense inputs carry (R141, R155, R158) and the surveys time (R163, R168). -/
namespace Sys2Proof.Machine

/-- BERTH_INPUT_CHANGE (R18): the raw level of an input changes. -/
def execBerthInputChange (line : BerthLine) (input : Fin 8) (level : Bool) (s : State) : Host.Outcome State Fault Refusal :=
  .next (s.onCtb fun c => c.onInput line input (Debounce.change level s.elapsed))

/-- APPROACH_ASSERT (R18, R19). -/
def execApproachAssert (input : Fin 8) (s : State) : Host.Outcome State Fault Refusal :=
  .next (s.takeLevel .approach input true State.approachPlatform).finish

/-- APPROACH_CLEAR (R18, R19): no event is raised. -/
def execApproachClear (input : Fin 8) (s : State) : Host.Outcome State Fault Refusal :=
  .next (s.takeLevel .approach input false fun s _ => s)

/-- OCCUPANCY_ASSERT (R18, R20). -/
def execOccupancyAssert (input : Fin 8) (s : State) : Host.Outcome State Fault Refusal :=
  .next (s.takeLevel .occupancy input true State.occupyPlatform).finish

/-- OCCUPANCY_CLEAR (R18, R21). -/
def execOccupancyClear (input : Fin 8) (s : State) : Host.Outcome State Fault Refusal :=
  .next (s.takeLevel .occupancy input false State.vacatePlatform).finish

/-- An elapsed second has passed (R22). Seconds from the reset: DESIGN CHOICE, log entry 8. -/
def State.retireDue (s : State) : Bool := (s.ctb.seconds + 1) * 1000 ≤ s.elapsed

/-- RETIRE_SECOND (R22). -/
def execRetireSecond (s : State) : Host.Outcome State Fault Refusal :=
  .next (s.when s.retireDue (State.onCtb · CallTable.second))

/-- WINDOW_END (R141). The sums are the squares of what the sense inputs heard beyond the samples that the passing of
time has brought, all 0 when time makes the command due (log entry 18). -/
def execWindowEnd (sums : Vector Nat 8) (s : State) : Host.Outcome State Fault Refusal :=
  .next (s.when (s.play.windowDue s.env) fun s => s.onPlay fun e p => p.windowEnd e sums).finishBoundary

/-- SUPERVISION_WORD (R155). -/
def execSupervisionWord (output : Out) (word : SupWord) (s : State) : Host.Outcome State Fault Refusal :=
  .next (s.onPlay fun e p => p.supervisionWord e output word).finish

/-- SUPERVISION_CYCLE_END (R155, R158). -/
def execSupervisionCycleEnd (s : State) : Host.Outcome State Fault Refusal :=
  .next (s.when (s.play.cycleDue s.env) fun s => s.onPlay Play.cycleEnd).finish

/-- A pending automatic retry is to be made: 60 s have passed since the previous attempt (R163). -/
def State.retryIsDue (s : State) (o : Out) : Bool := (s.play.surveyAt o).retryAt.any fun t => t + 60000 ≤ s.elapsed

/-- The automatic retry of an output: attempted again in quiet hours, ended REFUSED otherwise (R163). -/
def Play.retryAuto (e : Env) (o : Out) (p : Play) : Play := if e.quiet then p.attemptAuto e o else p.refuseAuto o

/-- AUTO_SURVEY_RETRY (R163). -/
def execAutoSurveyRetry (output : Out) (s : State) : Host.Outcome State Fault Refusal :=
  .next (s.when (s.retryIsDue output) fun s => s.onPlay fun e p => p.retryAuto e output).finish

/-- A probe's channel has not started 10 s after the probe first asked for it (R168). -/
def State.probeTimedOut (s : State) (o : Out) : Bool :=
  let v := s.play.surveyAt o
  v.phase = .probe && v.work.any fun w => w.probeStart.isNone && w.asked + 10000 ≤ s.elapsed

/-- PROBE_CHANNEL_TIMEOUT (R168). -/
def execProbeChannelTimeout (output : Out) (s : State) : Host.Outcome State Fault Refusal :=
  .next (s.when (s.probeTimedOut output) fun s => s.onPlay fun e p => p.abortSurvey e output .noChannel).finish

/-- EVAC_INPUT_CHANGE (R170): the raw level of the evacuation input changes. -/
def execEvacInputChange (level : Bool) (s : State) : Host.Outcome State Fault Refusal :=
  .next (s.onPlay fun e p => p.onEvl fun v =>
    if v.raw = level then v else { v with raw := level, since := e.elapsed })

/-- The raw evacuation input has held a level other than the debounced one for 50 ms (R170). -/
def State.evacIsDue (s : State) (level : Bool) : Bool :=
  let v := s.play.evl
  v.raw = level && v.active ≠ level && v.since + 50 ≤ s.elapsed

/-- EVAC_ASSERT (R170, R171). -/
def execEvacAssert (s : State) : Host.Outcome State Fault Refusal :=
  .next (s.when (s.evacIsDue true) fun s => s.onPlay Play.assertEvac).finish

/-- EVAC_RELEASE (R170, R175). -/
def execEvacRelease (s : State) : Host.Outcome State Fault Refusal :=
  .next (s.when (s.evacIsDue false) fun s => s.onPlay Play.releaseEvac).finish

end Sys2Proof.Machine
end

