-- ==== Sys2Proof/Machine/Requests.lean ====
section
/-! DEFINITION. The meanings of the maintenance requests (R197, R198). -/
namespace Sys2Proof.Machine

/-- QUERY_CALL (R198). -/
def execQueryCall (h : MaintHead) (args : List Byte) (s : State) : Host.Outcome State Fault Refusal :=
  .next (s.maint h 0x01 (settleQueryCall args)).finish

/-- QUERY_ZONE (R104, R198). -/
def execQueryZone (h : MaintHead) (args : List Byte) (s : State) : Host.Outcome State Fault Refusal :=
  .next (s.maint h 0x02 (settleQueryZone args)).finish

/-- QUERY_FAULT (R198). -/
def execQueryFault (h : MaintHead) (args : List Byte) (s : State) : Host.Outcome State Fault Refusal :=
  .next (s.maint h 0x03 (settleQueryFault args)).finish

/-- QUERY_SURVEY (R169, R198). -/
def execQuerySurvey (h : MaintHead) (args : List Byte) (s : State) : Host.Outcome State Fault Refusal :=
  .next (s.maint h 0x04 (settleQuerySurvey args)).finish

/-- QUERY_COUNTERS (R198). -/
def execQueryCounters (h : MaintHead) (args : List Byte) (s : State) : Host.Outcome State Fault Refusal :=
  .next (s.maint h 0x05 (settleQueryCounters args)).finish

/-- CLEAR_FAULT (R195). -/
def execClearFault (h : MaintHead) (args : List Byte) (s : State) : Host.Outcome State Fault Refusal :=
  .next (s.maint h 0x10 (settleClearFault args)).finish

/-- SURVEY_START (R163). -/
def execSurveyStart (h : MaintHead) (args : List Byte) (s : State) : Host.Outcome State Fault Refusal :=
  .next (s.maint h 0x20 (settleSurveyStart args)).finish

/-- SURVEY_ABORT (R168). -/
def execSurveyAbort (h : MaintHead) (args : List Byte) (s : State) : Host.Outcome State Fault Refusal :=
  .next (s.maint h 0x21 (settleSurveyAbort args)).finish

/-- LIMIT_SET (R161). -/
def execLimitSet (h : MaintHead) (args : List Byte) (s : State) : Host.Outcome State Fault Refusal :=
  .next (s.maint h 0x30 (settleLimitSet args)).finish

/-- LIMIT_LOCK (R161). -/
def execLimitLock (h : MaintHead) (args : List Byte) (s : State) : Host.Outcome State Fault Refusal :=
  .next (s.maint h 0x31 (settleLimitLock args)).finish

/-- RESTART (R191). -/
def execRestart (h : MaintHead) (args : List Byte) (s : State) : Host.Outcome State Fault Refusal :=
  .next (s.restartRequest h args).finish

/-- MAINT_REQUEST_UNKNOWN: a request code that the table does not hold is refused with UNKNOWN (R197). -/
def execMaintRequestUnknown (h : MaintHead) (code : Nat) (_args : List Byte) (s : State) :
    Host.Outcome State Fault Refusal :=
  .next (s.maint h code settleUnknown).finish

end Sys2Proof.Machine
end

