-- ==== Sys2Proof/Machine/Dispatch.lean ====
section
/-! DEFINITION. The meaning of each command, arm by arm. -/
namespace Sys2Proof.Machine

def exec (i : Instr) (s : State) : Host.Outcome State Fault Refusal :=
  match i with
  | .powerOnReset => Sys2Proof.Machine.execPowerOnReset s
  | .headerReadComplete result => Sys2Proof.Machine.execHeaderReadComplete result s
  | .headerReadTimeout => Sys2Proof.Machine.execHeaderReadTimeout s
  | .configReadComplete result => Sys2Proof.Machine.execConfigReadComplete result s
  | .configLoadTimeout => Sys2Proof.Machine.execConfigLoadTimeout s
  | .frameDiscard raw => Sys2Proof.Machine.execFrameDiscard raw s
  | .beacon env frame => Sys2Proof.Machine.execBeacon env frame s
  | .callSet env frame => Sys2Proof.Machine.execCallSet env frame s
  | .callDelay env frame => Sys2Proof.Machine.execCallDelay env frame s
  | .callPlatform env frame => Sys2Proof.Machine.execCallPlatform env frame s
  | .callCancel env frame => Sys2Proof.Machine.execCallCancel env frame s
  | .announce env frame => Sys2Proof.Machine.execAnnounce env frame s
  | .zoneReport env frame => Sys2Proof.Machine.execZoneReport env frame s
  | .withdraw env frame => Sys2Proof.Machine.execWithdraw env frame s
  | .withdrawDone env frame => Sys2Proof.Machine.execWithdrawDone env frame s
  | .queryCall head args => Sys2Proof.Machine.execQueryCall head args s
  | .queryZone head args => Sys2Proof.Machine.execQueryZone head args s
  | .queryFault head args => Sys2Proof.Machine.execQueryFault head args s
  | .querySurvey head args => Sys2Proof.Machine.execQuerySurvey head args s
  | .queryCounters head args => Sys2Proof.Machine.execQueryCounters head args s
  | .clearFault head args => Sys2Proof.Machine.execClearFault head args s
  | .surveyStart head args => Sys2Proof.Machine.execSurveyStart head args s
  | .surveyAbort head args => Sys2Proof.Machine.execSurveyAbort head args s
  | .limitSet head args => Sys2Proof.Machine.execLimitSet head args s
  | .limitLock head args => Sys2Proof.Machine.execLimitLock head args s
  | .restart head args => Sys2Proof.Machine.execRestart head args s
  | .maintRequestUnknown head code args => Sys2Proof.Machine.execMaintRequestUnknown head code args s
  | .linkFrameBegin => Sys2Proof.Machine.execLinkFrameBegin s
  | .transmitGapReached idle => Sys2Proof.Machine.execTransmitGapReached idle s
  | .frameSent => Sys2Proof.Machine.execFrameSent s
  | .beaconDue => Sys2Proof.Machine.execBeaconDue s
  | .stationDayEnd => Sys2Proof.Machine.execStationDayEnd s
  | .wholeSecond => Sys2Proof.Machine.execWholeSecond s
  | .heardEntryExpire address => Sys2Proof.Machine.execHeardEntryExpire address s
  | .holdoverTimeout => Sys2Proof.Machine.execHoldoverTimeout s
  | .quietHoursChange => Sys2Proof.Machine.execQuietHoursChange s
  | .ownerEntryExpire zone => Sys2Proof.Machine.execOwnerEntryExpire zone s
  | .berthInputChange line input level => Sys2Proof.Machine.execBerthInputChange line input level s
  | .approachAssert input => Sys2Proof.Machine.execApproachAssert input s
  | .approachClear input => Sys2Proof.Machine.execApproachClear input s
  | .occupancyAssert input => Sys2Proof.Machine.execOccupancyAssert input s
  | .occupancyClear input => Sys2Proof.Machine.execOccupancyClear input s
  | .retireSecond => Sys2Proof.Machine.execRetireSecond s
  | .syncStartReached id => Sys2Proof.Machine.execSyncStartReached id s
  | .blockReadComplete result => Sys2Proof.Machine.execBlockReadComplete result s
  | .directoryReadComplete result => Sys2Proof.Machine.execDirectoryReadComplete result s
  | .channelStart channel => Sys2Proof.Machine.execChannelStart channel s
  | .channelBlockAdvance channel => Sys2Proof.Machine.execChannelBlockAdvance channel s
  | .passEnd channel => Sys2Proof.Machine.execPassEnd channel s
  | .stopPointReached channel => Sys2Proof.Machine.execStopPointReached channel s
  | .expiryReached id => Sys2Proof.Machine.execExpiryReached id s
  | .syncWindowClose id => Sys2Proof.Machine.execSyncWindowClose id s
  | .reportDeadline id => Sys2Proof.Machine.execReportDeadline id s
  | .originationExpire id => Sys2Proof.Machine.execOriginationExpire id s
  | .windowEnd sums => Sys2Proof.Machine.execWindowEnd sums s
  | .supervisionWord output word => Sys2Proof.Machine.execSupervisionWord output word s
  | .supervisionCycleEnd => Sys2Proof.Machine.execSupervisionCycleEnd s
  | .autoSurveyRetry output => Sys2Proof.Machine.execAutoSurveyRetry output s
  | .probeChannelTimeout output => Sys2Proof.Machine.execProbeChannelTimeout output s
  | .evacInputChange level => Sys2Proof.Machine.execEvacInputChange level s
  | .evacAssert => Sys2Proof.Machine.execEvacAssert s
  | .evacRelease => Sys2Proof.Machine.execEvacRelease s
  | .faultNoticeReceived env frame => Sys2Proof.Machine.execFaultNoticeReceived env frame s
  | .maintReplyReceived env frame => Sys2Proof.Machine.execMaintReplyReceived env frame s

end Sys2Proof.Machine
end

