-- ==== Sys2Proof/Machine/Due.lean ====
section
/-! DEFINITION. Time: the millisecond tick of the reference clock, and the command that time makes due next (log
entry 3). -/
namespace Sys2Proof.Machine

/-! ### The tick (R27, R28, R143) -/

/-- One millisecond of the Service Clock: station time runs in LOCKED and HOLDOVER. At a whole second, and at the end
of the day, the signal becomes due (R28, R35). -/
def Clock.tick (c : Clock) : Clock :=
  if c.state = .unset then c
  else if dayMs ≤ c.time + 1 then { c with dayEndDue := true }
  else { c with time := c.time + 1, secondDue := c.secondDue || (c.time + 1) % 1000 = 0 }

/-- The window now running is not eligible where the zone is neither IDLE nor STARTING, or evacuation is active (R143). -/
def Play.spoil (p : Play) : Play :=
  { p with lvc := { p.lvc with outs := mapIdx p.lvc.outs fun o l =>
      let st := (p.zone o).state
      { l with spoiled := l.spoiled || p.evl.active || !(st = .idle || st = .starting) } } }

/-- One millisecond of the reference clock passes; the sense inputs are sampled (R27, R28, R141, R143). -/
def State.tick (s : State) : State :=
  { s with elapsed := s.elapsed + 1, sck := s.sck.tick, play := s.play.spoil.meter }

/-! ### What time makes due -/

/-- The first index for which a test holds, as a command. -/
def firstOf {n : Nat} (f : Fin n → Instr) (due : Fin n → Bool) : Option Instr :=
  ((List.finRange n).find? due).map f

/-- The waiting entries of all zones, in ascending output number and queue order. -/
def Play.waitingEntries (p : Play) : List (Out × Entry) :=
  allOuts.flatMap fun o => ((p.zone o).queue.filter fun en => !en.sounding).map fun en => (o, en)

/-- The id of the first waiting entry that satisfies a test, as a command. -/
def Play.firstWaiting (p : Play) (f : AnnId → Instr) (due : Out → Entry → Bool) : Option Instr :=
  (p.waitingEntries.find? fun x => due x.1 x.2).map fun x => f x.2.id

/-- The id of the first origination entry that satisfies a test, as a command. -/
def Peers.firstOrig (p : Peers) (f : AnnId → Instr) (due : AnnId → Bool) : Option Instr :=
  (p.table.find? fun o => due o.id).map fun o => f o.id

/-- A command that is due when its test holds. -/
def dueWhen (i : Instr) (due : Bool) : Option Instr := if due then some i else none

/-- A STARTING entry's sync start instant is reached and it has asked for no channel (R83). -/
def State.syncDue (s : State) (o : Out) (en : Entry) : Bool :=
  en.state = .starting && s.env.syncReached en && !s.play.hasRequest o (.body en.id)

/-- The idle count already stands at the gap of the head frame, which is then begun at once (R180). -/
def State.gapStands (s : State) : Bool :=
  let l := s.play.net.lki
  match l.queue with
  | f :: _ => s.env.running && !l.busy && l.sending.isNone && gapOf s.cfl.own f ≤ l.idle
  | [] => false

/-- The commands that time can make due, in the order in which the model takes those due together (log entry 3). -/
def State.dueList (s : State) : List (Option Instr) :=
  let e := s.env
  let p := s.play
  [ dueWhen .stationDayEnd s.sck.dayEndDue
  , dueWhen .wholeSecond s.sck.secondDue
  , dueWhen .quietHoursChange (s.quietNow ≠ s.sck.quiet)
  , dueWhen .headerReadTimeout (s.cfl.load = .loading && !s.cfl.headerDone && s.loadExpired)
  , dueWhen .configLoadTimeout (s.cfl.load = .loading && s.cfl.config.isNone && s.loadExpired)
  , firstOf .heardEntryExpire s.heardDue
  , firstOf .ownerEntryExpire fun z => (p.net.pau.owners.get z).any fun o => o.heard + 3000 ≤ s.elapsed
  , dueWhen .holdoverTimeout s.holdoverDue
  , dueWhen .evacAssert (s.evacIsDue true)
  , dueWhen .evacRelease (s.evacIsDue false)
  , firstOf .approachAssert fun i => (s.ctb.line .approach i).due true s.elapsed
  , firstOf .approachClear fun i => (s.ctb.line .approach i).due false s.elapsed
  , firstOf .occupancyAssert fun i => (s.ctb.line .occupancy i).due true s.elapsed
  , firstOf .occupancyClear fun i => (s.ctb.line .occupancy i).due false s.elapsed
  , dueWhen .retireSecond s.retireDue
  , dueWhen .beaconDue s.beaconIsDue
  , dueWhen (.transmitGapReached p.net.lki.idle) s.gapStands
  , dueWhen .supervisionCycleEnd (p.cycleDue e)
  , p.firstWaiting .expiryReached fun _ en => e.expired en
  , p.firstWaiting .syncWindowClose fun _ en => e.syncMissed en
  , p.firstWaiting .syncStartReached s.syncDue
  , p.net.pau.firstOrig .reportDeadline (p.net.deadlineDue e)
  , p.net.pau.firstOrig .originationExpire (p.net.retireDue e)
  , firstOf .autoSurveyRetry s.retryIsDue
  , firstOf .probeChannelTimeout s.probeTimedOut
  , dueWhen (.windowEnd (Vector.replicate 8 0)) (p.windowDue e)
  , firstOf .passEnd (p.passEndDue e)
  , firstOf .stopPointReached fun c => !(p.stopDue e c).isEmpty
  , firstOf .channelBlockAdvance fun c => e.boundaryOpen (p.chan c)
  , firstOf .channelStart (p.startDue e) ]

/-- The command that time makes due next, if any. -/
def State.nextDue (s : State) : Option Instr := s.dueList.findSome? id

/-- What the part does when no command waits: the command that time makes due next is put in the queue, and when none
is due a millisecond passes (log entry 3). -/
def State.idle (s : State) : State :=
  match s.nextDue with
  | some i => { s with pending := [i] }
  | none => s.tick

end Sys2Proof.Machine
end

