-- ==== Sys2Proof/Safety.lean ====
section
/-! DEFINITION. What counts as a safe state and a safe step, in the terms the statements use, and the frames that
the statements about commands share. -/
namespace Sys2Proof.Machine

/-- The step is made: no fault and no refusal. -/
def Runs (s : State) : Prop := ∃ t, step s = .next t

/-- Station time lies within the service day, and in UNSET time and day stay at 0 with no day end due (R27, R28). -/
def Clock.Valid (c : Clock) : Prop :=
  c.time < dayMs ∧ (c.state = .unset → c.time = 0 ∧ c.day = 0 ∧ c.dayEndDue = false)

/-- The transmit queue never holds more than 16 frames (R181). -/
def LinkUnit.Valid (l : LinkUnit) : Prop := l.queue.length ≤ 16

/-- No two valid records of the fault log have the same kind and source (R194). -/
def FaultLog.Distinct (f : FaultLog) : Prop :=
  ∀ (i j : Fin 16) (a b : FaultRecord),
    f.records.get i = some a → f.records.get j = some b → a.kind = b.kind → a.source = b.source → i = j

/-- The queue of a zone holds at most 8 entries of distinct ids, ordered by class and then by arrival, each with an
arrival order that the zone has given out (R77, R78, R80). -/
def Zone.Ordered (z : Zone) : Prop :=
  z.queue.length ≤ 8 ∧ (z.queue.map (·.id)).Nodup ∧
    z.queue.Pairwise (fun a b => classCode a.cls < classCode b.cls ∨ a.cls = b.cls ∧ a.order < b.order) ∧
    ∀ en ∈ z.queue, en.order < z.nextOrder

/-- No two held records have the same service code and kind (R3). -/
def CallTable.KeysDistinct (c : CallTable) : Prop :=
  ∀ (i j : Fin 96) (a b : CallRec),
    c.places.get i = .held a → c.places.get j = .held b → a.code = b.code → a.kind = b.kind → i = j

/-- The number of queue entries, over all outputs, that satisfy a test. -/
def Play.entryCount (p : Play) (test : Entry → Bool) : Nat :=
  (allOuts.map fun o => ((p.zone o).queue.filter test).length).sum

/-- An image names no trigger of class EVAC (R39, R187). -/
def Image.NoEvacTrigger (i : Image) : Prop := ∀ t ∈ i.triggers, t.cls ≠ .evac

/-- The count of every held body is the number of queue entries that refer to it (R69), with what keeps it so: the ids of
a queue and of the general slots are distinct, every entry has its body, the EVAC entries alone refer to the
evacuation slot, no body is in hand between commands, sequence numbers are left to give (R67, R108), and no trigger
is of class EVAC. -/
structure State.RefsCounted (s : State) : Prop where
  queues : ∀ o : Out, ((s.play.zone o).queue.map (·.id)).Nodup
  slots : ∀ (i j : Fin 32) (a b : Body),
    s.play.cmu.slots.get i = some a → s.play.cmu.slots.get j = some b → a.id = b.id → i = j
  general : ∀ (i : Fin 32) (b : Body), s.play.cmu.slots.get i = some b →
    b.cls ≠ .evac ∧ b.refs = s.play.entryCount fun en => en.cls ≠ .evac && en.id = b.id
  bodies : ∀ o : Out, ∀ en ∈ (s.play.zone o).queue, en.cls ≠ .evac →
    ∃ (i : Fin 32) (b : Body), s.play.cmu.slots.get i = some b ∧ b.id = en.id
  evac : ∀ b : Body, s.play.cmu.evacSlot = some b → b.refs = s.play.entryCount fun en => en.cls = .evac
  noEvac : s.play.cmu.evacSlot = none → ∀ o : Out, ∀ en ∈ (s.play.zone o).queue, en.cls ≠ .evac
  hand : s.play.cmu.inHand = none
  table : s.play.net.pau.table.length ≤ 16
  inForce : ∀ i : Image, s.cfl.image = some i → i.NoEvacTrigger
  loaded : ∀ (i : Image) (n : Nat), s.cfl.config = some (.accepted i n) → i.NoEvacTrigger

/-- A command ends with nothing to report and no gate to open: no outcome is gathered or held, and the start gate is
open. -/
def State.Quiet (s : State) : Prop :=
  s.play.net.pau.outbox = [] ∧ s.play.net.pau.held = [] ∧ s.play.evl.gateClosed = false

/-- The clock, the loader, the elapsed time and the queue of commands are the same. -/
def State.SameSurroundings (s t : State) : Prop :=
  t.sck = s.sck ∧ t.cfl = s.cfl ∧ t.elapsed = s.elapsed ∧ t.pending = s.pending

/-- The Call Table, the Trigger Unit and the surroundings are the same: only the blocks of `Play` may differ. -/
def State.SameTables (s t : State) : Prop := t.ctb = s.ctb ∧ t.tgu = s.tgu ∧ s.SameSurroundings t

/-- The berth inputs and the count of seconds of the Call Table are the same. -/
def CallTable.SameInputs (c d : CallTable) : Prop :=
  d.occupancy = c.occupancy ∧ d.approach = c.approach ∧ d.seconds = c.seconds

/-- The state after a good frame has been counted and its end has started the idle count afresh (R179, R180). -/
def State.tookGood (s : State) : State :=
  (s.onLki LinkUnit.frameEnds).onLki fun l => l.count fun c => { c with good := bump c.good }

/-- The state after a MAINT_REPLY has been counted and has joined a transmit queue with room for it (R181, R197). -/
def State.replied (s : State) (h : MaintHead) (code : Nat) (refused : Option RefuseReason) (content : ReplyContent) :
    State :=
  s.onNet fun _ n => { n with
    flt := n.flt.countReply refused
    lki := { n.lki with queue := insertFrame n.lki.queue ⟨2, h.env.src, .maintReply code h.tag refused content⟩ } }

/-- A MAINT_REQUEST that the Fault Log takes and whose reply finds room: the part is RUNNING, the request is addressed
to its own address, the queue holds fewer than 16 frames, and the command ends quietly (R179, R181, R197). -/
def State.TakesRequest (s : State) (h : MaintHead) : Prop :=
  s.cfl.load = .running ∧ h.env.dst = s.cfl.own ∧ s.cfl.own ≠ 0 ∧ s.cfl.own ≠ 31 ∧
    s.play.net.lki.queue.length < 16 ∧ s.Quiet

/-- A good frame that the part hands to its block in RUNNING (R179). -/
def State.TakesFrame (s : State) (env : Envelope) : Prop := s.cfl.load = .running ∧ destOk s.cfl.own env.dst = true

end Sys2Proof.Machine
end

