-- ==== Sys2Proof/WellFormed.lean ====
section
/-! DEFINITION. The commands whose operands lie within the ranges of the manual: what a sender of commands may send. -/
namespace Sys2Proof

/-- A byte of a frame. -/
def isByte (n : Nat) : Bool := n < 256

/-- A two-byte number of a frame. -/
def isWord (n : Nat) : Bool := n < 65536

/-- A signed two-byte number of a frame (R178). -/
def isSigned (x : Int) : Bool := -32768 ≤ x && x ≤ 32767

/-- A four-byte number of a frame. -/
def isLong (n : Nat) : Bool := n < 4294967296

/-- Address bytes (R178). -/
def Envelope.wf (e : Envelope) : Bool := isByte e.src && isByte e.dst

/-- A directory entry's fields (R126). -/
def DirEntry.wf (d : DirEntry) : Bool :=
  d.start < 524288 && isWord d.count && isWord d.loopStart && isWord d.loopLen

/-- A kind byte of a timetable frame is 0 or 1 (R184). -/
def CallKeyFields.wf (k : CallKeyFields) : Bool := k.kind ≤ 1

/-- Call fields as the layout carries them; at most 111 calling points fit the longest payload (R178, R183). -/
def CallFields.wf (f : CallFields) : Bool :=
  isSigned f.booked && isSigned f.delay && isByte f.category && isByte f.operator && isWord f.place && isByte f.coaches &&
    f.points.length ≤ 111 && f.points.all isWord

/-- A segment of an ANNOUNCE (R183). -/
def RawSegment.wf (s : RawSegment) : Bool := isByte s.kind && isWord s.phrase && isByte s.arg

/-- A beacon: its load state is RUNNING (R183, R184). -/
def BeaconFrame.wf (f : BeaconFrame) : Bool := f.loadState = 1 && isLong f.time && isWord f.libVersion

/-- An ANNOUNCE from a source: the values of R184, and a segment count that fits the longest payload (R178). -/
def AnnounceFrame.wf (src : Nat) (f : AnnounceFrame) : Bool :=
  isByte f.origin && f.cls ≤ 3 && f.seq ≤ 2047 && f.origin = src && f.expiryTime < 172800000 && isLong f.syncTime &&
    (!f.syncPresent || f.syncTime < 172800000) && isWord f.libVersion && f.segs.length ≤ 54 && f.segs.all RawSegment.wf

/-- A ZONE_REPORT; at most 82 entries fit the longest payload (R178, R183). -/
def ZoneReportFrame.wf (f : ZoneReportFrame) : Bool :=
  isByte f.origin && isWord f.seq && f.items.length ≤ 82 &&
    f.items.all fun i => isByte i.zone && isByte i.outcome && isByte i.detail

/-- A WITHDRAW (R183, R184). -/
def WithdrawFrame.wf (f : WithdrawFrame) : Bool :=
  f.granularity ≤ 4 && (f.granularity ≠ 4 || f.threshold ≤ 3) && isByte f.origin && isWord f.seq && isByte f.threshold

/-- A WITHDRAW_DONE (R183). -/
def WithdrawDoneFrame.wf (f : WithdrawDoneFrame) : Bool :=
  isByte f.requested && isByte f.performed && isByte f.origin && isWord f.seq && isByte f.threshold && isByte f.removed

/-- A FAULT_NOTICE (R183). -/
def FaultNoticeFrame.wf (f : FaultNoticeFrame) : Bool := isByte f.index && isByte f.kind && isWord f.source && isLong f.time

/-- A MAINT_REPLY (R183). -/
def MaintReplyFrame.wf (f : MaintReplyFrame) : Bool :=
  isByte f.code && isByte f.tag && isByte f.result && isByte f.reason && f.content.length ≤ 246

/-- A MAINT_REQUEST: its tag is a byte and its arguments 0..32 bytes (R183). -/
def maintWf (h : MaintHead) (args : List Byte) : Bool := h.env.wf && isByte h.tag && args.length ≤ 32

/-- The request codes of the table (R198). -/
def requestCodes : List Nat := [0x01, 0x02, 0x03, 0x04, 0x05, 0x10, 0x20, 0x21, 0x30, 0x31, 0x40]

/-- The samples of a block: 256 of 16 bits, signed (R1, R125). -/
def samplesWf (l : List Int) : Bool := l.length = 256 && l.all isSigned

/-- An announcement id (R1). -/
def AnnId.wf (i : AnnId) : Bool := i.origin ≤ 30 && i.seq ≤ 2047

/-- A word of impedance 0..1023 and leakage 0..255 (R155). -/
def SupWord.wf (w : SupWord) : Bool := w.impedance ≤ 1023 && w.leakage ≤ 255

/-- The sum of squares of 2048 samples of 16 bits (R141). -/
def sumWf (n : Nat) : Bool := n ≤ 2048 * 1073741824

/-- A command whose operands lie within the manual's ranges. -/
def Instr.wf : Instr → Bool
  | .powerOnReset => true
  | .headerReadComplete r => r.all fun h => isWord h.version && isLong h.size
  | .headerReadTimeout => true
  | .configReadComplete r => r.all fun l => l.length ≤ 8192
  | .configLoadTimeout => true
  | .frameDiscard raw => raw.length ≤ 261
  | .beacon env f => env.wf && f.wf
  | .callSet env f => env.wf && f.key.wf && isByte f.platform && f.fields.wf
  | .callDelay env f => env.wf && f.key.wf && isSigned f.delay
  | .callPlatform env f => env.wf && f.key.wf && isByte f.platform && f.complete.all CallFields.wf
  | .callCancel env f => env.wf && f.wf
  | .announce env f => env.wf && f.wf env.src
  | .zoneReport env f => env.wf && f.wf
  | .withdraw env f => env.wf && f.wf
  | .withdrawDone env f => env.wf && f.wf
  | .queryCall h a => maintWf h a
  | .queryZone h a => maintWf h a
  | .queryFault h a => maintWf h a
  | .querySurvey h a => maintWf h a
  | .queryCounters h a => maintWf h a
  | .clearFault h a => maintWf h a
  | .surveyStart h a => maintWf h a
  | .surveyAbort h a => maintWf h a
  | .limitSet h a => maintWf h a
  | .limitLock h a => maintWf h a
  | .restart h a => maintWf h a
  | .maintRequestUnknown h code a => maintWf h a && isByte code && !requestCodes.contains code
  | .linkFrameBegin => true
  | .transmitGapReached _ => true
  | .frameSent => true
  | .beaconDue => true
  | .stationDayEnd => true
  | .wholeSecond => true
  | .heardEntryExpire a => 1 ≤ a.val
  | .holdoverTimeout => true
  | .quietHoursChange => true
  | .ownerEntryExpire _ => true
  | .berthInputChange _ _ _ => true
  | .approachAssert _ => true
  | .approachClear _ => true
  | .occupancyAssert _ => true
  | .occupancyClear _ => true
  | .retireSecond => true
  | .syncStartReached id => id.wf
  | .blockReadComplete r => r.all samplesWf
  | .directoryReadComplete r => r.all DirEntry.wf
  | .channelStart _ => true
  | .channelBlockAdvance _ => true
  | .passEnd _ => true
  | .stopPointReached _ => true
  | .expiryReached id => id.wf
  | .syncWindowClose id => id.wf
  | .reportDeadline id => id.wf
  | .originationExpire id => id.wf
  | .windowEnd sums => sums.toList.all sumWf
  | .supervisionWord _ w => w.wf
  | .supervisionCycleEnd => true
  | .autoSurveyRetry _ => true
  | .probeChannelTimeout _ => true
  | .evacInputChange _ => true
  | .evacAssert => true
  | .evacRelease => true
  | .faultNoticeReceived env f => env.wf && f.wf
  | .maintReplyReceived env f => env.wf && f.wf

end Sys2Proof
end

