-- ==== Sys2Proof/Certificates/Slice0/Obligations.lean ====
section
/-! DEFINITION. The statements for the provers: each says what a rule of spec/ has a command or the machine do. Every
statement holds of the model in every state that meets its hypotheses, whether or not a run reaches it. -/
open Sys2Proof Sys2Proof.Machine

/-- For every command c, every rest of the queue and every state, one step of the state with c in front is exec of c
on the state with the rest as its queue (the model's own queue of commands, log entry 1). -/
def Obligations.StepRunsFront : Prop :=
  ∀ (c : Instr) (rest : List Instr) (s : State),
    step { s with pending := c :: rest } = exec c { s with pending := rest }

/-- On an empty queue a step answers next: the command that time makes due is put in the queue, and when none is due
one millisecond of the reference clock passes (the model's choice, log entry 3). Every step of every state answers
next: the manual gives every command an effect in every state (R1 to R199). -/
def Obligations.IdleStep : Prop :=
  (∀ s : State, s.pending = [] →
    (∀ i, s.nextDue = some i → step s = .next { s with pending := [i] }) ∧
    (s.nextDue = none → step s = .next s.tick ∧ s.tick.elapsed = s.elapsed + 1)) ∧
    (∀ s : State, Runs s)

/-- Right after reset: LOADING with own address 0 (R188); clock UNSET at day 0, time 0 (R27); every call place free
(R3); every zone OFF with an empty queue (R75); built-in limits and UNKNOWN on every supervised line (R154); empty
origination table and owner map (R106, R108); no fault record, no queued frame (R181, R193); every channel FREE
(R129); evacuation released with its gate open (R170, R172). POWER_ON_RESET answers next in every state: LOADING, the
elapsed count at 0, and every block at its reset values (R27, R188); the raw levels of the pins and the queue of
commands stand as they were (log entries 9 and 23), and so does the count of samples that the sense inputs have given,
which is the model's own (log entry 18). -/
def Obligations.ResetLeaves : Prop :=
  (State.reset.cfl.load = .loading ∧ State.reset.cfl.own = 0 ∧
    State.reset.sck.state = .unset ∧ State.reset.sck.day = 0 ∧ State.reset.sck.time = 0 ∧
    (∀ i, State.reset.ctb.places.get i = .free) ∧
    (∀ o, (State.reset.play.zone o).state = .off ∧ (State.reset.play.zone o).queue = []) ∧
    (∀ o, (State.reset.play.lineAt o).limits = ⟨40, 900, 200⟩ ∧ (State.reset.play.lineAt o).status = .unknown ∧
      (State.reset.play.lineAt o).supervised = true) ∧
    State.reset.play.net.pau.table = [] ∧ (∀ z, State.reset.play.net.pau.owners.get z = none) ∧
    (∀ i, State.reset.play.net.flt.records.get i = none) ∧ State.reset.play.net.lki.queue = [] ∧
    (∀ c, (State.reset.play.chan c).state = .free) ∧
    State.reset.play.evl.active = false ∧ State.reset.play.evl.gateClosed = false) ∧
    (∀ s : State, ∃ t, exec .powerOnReset s = .next t ∧ t.cfl = Loader.reset ∧ t.elapsed = 0 ∧ t.sck = Clock.reset ∧
    t.tgu = Triggers.reset ∧ t.ctb.places = CallTable.reset.places ∧ t.ctb.counts = CallTable.reset.counts ∧
    t.play.net = Net.reset ∧ t.play.cmu = Composition.reset ∧ t.play.zpc = Playout.reset ∧ t.play.cfu = Clips.reset ∧
    t.play.lvc = { Levels.reset with sampled := s.play.lvc.sampled } ∧ t.play.lsu = Supervision.reset ∧ t.play.vsu = Surveys.reset ∧
    t.play.evl = { Evac.reset with raw := s.play.evl.raw } ∧ t.pending = s.pending ∧
    (∀ i, (t.ctb.occupancy.get i).raw = (s.ctb.occupancy.get i).raw ∧ (t.ctb.occupancy.get i).level = none ∧
      (t.ctb.approach.get i).raw = (s.ctb.approach.get i).raw ∧ (t.ctb.approach.get i).level = none))

/-- From every state in which station time lies within 0..86,399,999 and in which time and day are 0 while the clock
is UNSET, every step that answers next gives such a state again (R1, R27, R28); the third clause, that no day end is
due in UNSET, is about the model's own flag (log entry 3). -/
def Obligations.ClockStaysValid : Prop :=
  ∀ s t : State, s.sck.Valid → step s = .next t → t.sck.Valid

/-- From every state whose outbox is empty, every step that answers next gives a state whose outbox is empty again.
The outbox is the model's own field (log entry 42), in which a command gathers the outcomes it gives rise to, one
command being one event (log entry 21); what is reported of them is the statement ReportsGoOut (R117). -/
def Obligations.OutboxStaysEmpty : Prop :=
  ∀ s t : State, s.play.net.pau.outbox = [] → step s = .next t → t.play.net.pau.outbox = []

/-- Queuing any frame in any surroundings keeps the bound of 16 frames, the 17th being dropped (R181). Inserting a
frame keeps the queue ordered by urgency, and every frame of the queue keeps its order: those of its urgency or more
urgent stand before it (R181). Inserting an entry keeps a zone queue ordered by class, behind every entry at least as
urgent, with the held entries in their order (R78). In RUNNING, of the 16 frames of an ordered queue and the one
queued, the frame dropped is of the greatest urgency number among the 17 and the last of the order; the others stand
in their order and the dropped-frame count increments (R181). -/
def Obligations.QueuesKeepOrder : Prop :=
  (((∀ (e : Env) (f : TxFrame) (n : Net), n.lki.Valid → (Net.enqueue e f n).lki.Valid) ∧
    (∀ (q : List TxFrame) (f : TxFrame), q.Pairwise (fun a b => a.urgency ≤ b.urgency) →
    insertFrame q f = q.filter (fun g => g.urgency ≤ f.urgency) ++ f :: q.filter (fun g => f.urgency < g.urgency))) ∧
    (∀ (q : List Entry) (en : Entry), q.Pairwise (fun a b => classCode a.cls ≤ classCode b.cls) →
    insertEntry q en = q.filter (fun x => classCode x.cls ≤ classCode en.cls) ++
      en :: q.filter (fun x => classCode en.cls < classCode x.cls))) ∧
    (∀ (e : Env) (f : TxFrame) (n : Net), e.load = .running → n.lki.queue.length = 16 →
    n.lki.queue.Pairwise (fun a b => a.urgency ≤ b.urgency) →
    ∃ g, insertFrame n.lki.queue f = (Net.enqueue e f n).lki.queue ++ [g] ∧
      (∀ x ∈ f :: n.lki.queue, x.urgency ≤ g.urgency) ∧
      (Net.enqueue e f n).lki.counts.dropped = bump n.lki.counts.dropped)

/-- For every WITHDRAW, WITHDRAW_DONE and FAULT_NOTICE whose values the layout admits, every own address and every
envelope that the receive filter passes, the bytes sent by R178 and R183 are judged good and give the row with the
same envelope and fields (R178, R179, R183). For every well-formed ANNOUNCE and ZONE_REPORT, with any number of
segments or entries that the longest payload holds, the bytes sent are judged good and give the row with the same
envelope and fields (R178, R179, R183, R184). -/
def Obligations.FrameRoundTrip : Prop :=
  (∀ (own src dst : Nat), src < 256 → dst < 256 → destOk own dst = true →
    (∀ f : WithdrawFrame, f.wf = true →
      judge own (frameOf src dst 0x22 (withdrawBytes f)) = .good (.withdraw ⟨src, dst⟩ f)) ∧
    (∀ f : WithdrawDoneFrame, f.wf = true →
      judge own (frameOf src dst 0x23 (withdrawDoneBytes f)) = .good (.withdrawDone ⟨src, dst⟩ f)) ∧
    (∀ f : FaultNoticeFrame, f.wf = true →
      judge own (frameOf src dst 0x30 (faultNoticeBytes f)) = .good (.faultNoticeReceived ⟨src, dst⟩ f))) ∧
    (∀ (own src dst : Nat), src < 256 → dst < 256 → destOk own dst = true →
    (∀ f : AnnounceFrame, f.wf src = true →
      judge own (frameOf src dst 0x20 (announceBytes f)) = .good (.announce ⟨src, dst⟩ f)) ∧
    (∀ f : ZoneReportFrame, f.wf = true →
      judge own (frameOf src dst 0x21 (zoneReportBytes f)) = .good (.zoneReport ⟨src, dst⟩ f)))

/-- For every sum of squares: with sum 0 the level code is 0; otherwise the code is 0 or its threshold is reached, and
every code above it up to 240 has a threshold not reached, where the threshold of k is 1,073,741,824 × 10^((k − 240) /
20) against E = sum / 2048, as real numbers (R142). -/
def Obligations.LevelIsExact : Prop :=
  ∀ sum : Nat, levelCode sum ≤ 240 ∧ (sum = 0 → levelCode sum = 0) ∧
    (levelCode sum = 0 ∨ (1073741824 : ℝ) * (10 : ℝ) ^ (((levelCode sum : ℝ) - 240) / 20) ≤ (sum : ℝ) / 2048) ∧
    (∀ k : Nat, levelCode sum < k → k ≤ 240 →
      (sum : ℝ) / 2048 < (1073741824 : ℝ) * (10 : ℝ) ^ (((k : ℝ) - 240) / 20))

/-- With D = 16 × L − N16: for D of 0 or more N16 increases by floor(D / 4), for D negative it decreases by ceiling(−D
/ 32); it never passes 16 × L, stays within 0..3840 for L within 0..240, and the whole noise level is floor(N16 / 16)
(R144). -/
def Obligations.NoiseFollowsLevel : Prop :=
  ∀ n16 l : Nat, n16 ≤ 3840 → l ≤ 240 →
    (16 * l ≥ n16 → (noiseAfter n16 l : Int) = n16 + (16 * (l : Int) - n16) / 4 ∧ n16 ≤ noiseAfter n16 l ∧
      noiseAfter n16 l ≤ 16 * l) ∧
    (16 * l < n16 → (noiseAfter n16 l : Int) = n16 - (((n16 : Int) - 16 * l + 31) / 32) ∧ 16 * l ≤ noiseAfter n16 l ∧
      noiseAfter n16 l ≤ n16) ∧
    noiseAfter n16 l ≤ 3840 ∧ (wholeNoise n16 : Int) = (n16 : Int) / 16 ∧ wholeNoise n16 ≤ 240

/-- With Gmin at most Gmax, the target of every class lies within Gmin..Gmax; for EVAC it is max(clamp(R, Gmin, Gmax),
min(Fevac, Gmax)) and for the other classes clamp(R, Gmin, cap), where R = N + M[class] + B + P; the gain computation
of an owned zone stores it as the last target (R146, R148). -/
def Obligations.TargetInRange : Prop :=
  ∀ (i : Image) (z : ZoneCfg) (cls : AnnClass) (noise : Nat) (offset : Int) (quiet : Bool), z.gmin ≤ z.gmax →
    (z.gmin ≤ gainTarget i z cls noise offset quiet ∧ gainTarget i z cls noise offset quiet ≤ z.gmax) ∧
    (requiredLevel i z cls noise offset = (noise : Int) + (i.margin cls : Int) + (z.base + offset)) ∧
    (cls ≠ .evac → (gainTarget i z cls noise offset quiet : Int) =
      max (z.gmin : Int) (min (upperCap z cls quiet : Int) (requiredLevel i z cls noise offset))) ∧
    (cls = .evac → (gainTarget i z cls noise offset quiet : Int) =
      max (max (z.gmin : Int) (min (z.gmax : Int) (requiredLevel i z cls noise offset))) (min (i.fevac : Int) z.gmax)) ∧
    (∀ (e : Env) (o : Out) (b : Bool) (p : Play), e.image = some i → e.zoneCfg o = some z →
      ((p.computeGain e o cls b).levelAt o).target =
        some (gainTarget i z cls (wholeNoise (p.levelAt o).n16) (p.surveyAt o).offset e.quiet))

/-- For every gain code 0..200 the table entry is 32767 × 10^((G − 200) / 40) rounded, halves upward, as real numbers;
the scaled sample is floor((x × Tbl[G] + 16384) / 32768) saturated to −32767..+32767 (R151). -/
def Obligations.GainTableIsExact : Prop :=
  ∀ g : Nat, g ≤ 200 →
    (gainEntry g : ℝ) - 1 / 2 ≤ 32767 * (10 : ℝ) ^ (((g : ℝ) - 200) / 40) ∧
    32767 * (10 : ℝ) ^ (((g : ℝ) - 200) / 40) < (gainEntry g : ℝ) + 1 / 2 ∧
    (∀ x : Int, scaleSample (gainEntry g) x = max (-32767) (min 32767 ((x * gainEntry g + 16384) / 32768)))

/-- For every template, snapshot and set of phrase bases the fitted expansion holds at most 24 segments; a list
expansion that fits is left whole and uncut; and an overflow leaves exactly 24 (R57, R63, R64). When the full
expansion exceeds 24 segments and some cut form fits, the body is the expansion with the cut form of the largest k
below the number of calling points that fits, marked cut and not overflowed (R63). After the phrase-id checks no
segment of a SERVICE or INFO body names a phrase in 4032..4095 and no segment of any body one above 4095; an ALERT or
EVAC segment within 0..4095 is left as it is; the number of segments is kept (R65). The blocks, passes and lengths of
R128: a PHRASE is one pass of C blocks, a CHIME r passes of C, a LOOP ceiling(125 d / 2) blocks of its loop region, a
SILENCE ceiling(25 n / 8) zero blocks, and a missing phrase 16 zero blocks in one pass (R127, R128). -/
def Obligations.BodiesFit : Prop :=
  (((∀ (b : PhraseBases) (day : Nat) (r : CallRec) (t : List Element),
    (fitTemplate b day r t).segs.length ≤ 24 ∧
    ((expandAs b day .full (some r) t).length ≤ 24 →
      fitTemplate b day r t = ⟨expandAs b day .full (some r) t, false, false⟩) ∧
    ((fitTemplate b day r t).overflow = true → (fitTemplate b day r t).segs.length = 24)) ∧
    (∀ (b : PhraseBases) (day : Nat) (r : CallRec) (t : List Element) (k : Nat),
    24 < (expandAs b day .full (some r) t).length → k < r.points.length →
    (expandAs b day (.cut k) (some r) t).length ≤ 24 →
    (∀ j, k < j → j < r.points.length → 24 < (expandAs b day (.cut j) (some r) t).length) →
    fitTemplate b day r t = ⟨expandAs b day (.cut k) (some r) t, true, false⟩)) ∧
    (∀ (cls : AnnClass) (l : List Segment),
    (∀ s ∈ l.map (checkSegment cls), ∀ id, s.phraseId = some id →
      id ≤ 4095 ∧ (cls = .service ∨ cls = .info → id < 4032)) ∧
    (l.map (checkSegment cls)).length = l.length ∧
    (cls = .alert ∨ cls = .evac → ∀ s ∈ l, (∀ id, s.phraseId = some id → id ≤ 4095) → checkSegment cls s = s))) ∧
    (∀ (id r sec n : Nat) (d : DirEntry),
    runOf (.phrase id) (some (.found d)) = ⟨clipBlocks d, clipBlocks d, 1, some d.start⟩ ∧
    runOf (.chime id r) (some (.found d)) = ⟨clipBlocks d * r, clipBlocks d, r, some d.start⟩ ∧
    (runOf (.loop id sec) (some (.found d))).total = (125 * sec + 1) / 2 ∧
    (runOf (.loop id sec) (some (.found d))).passLen = (loopRegion d).2 ∧
    (runOf (.loop id sec) (some (.found d))).first = some (d.start + (loopRegion d).1) ∧
    runOf (.silence n) none = ⟨(25 * n + 7) / 8, (25 * n + 7) / 8, 1, none⟩ ∧
    runOf (.phrase id) (some .missing) = ⟨16, 16, 1, none⟩ ∧ runOf (.chime id r) (some .missing) = ⟨16, 16, 1, none⟩ ∧
    runOf (.loop id sec) (some .missing) = ⟨16, 16, 1, none⟩)

/-- A channel chosen for theft is not FREE, carries no release mark and serves a class less urgent than the taker's,
and no eligible channel serves a class less urgent than the victim's; an INFO request never finds a victim (R133). The
channel granted next has a read, no channel has a read of a more urgent class, and when any channel has a read one is
granted (R136). For a request with no request waiting, no channel FREE and none to join, with a victim found (R133):
the theft is counted; a PLAYING victim takes a release mark naming the request, which waits, and every sounding entry
the victim feeds is to stop for THEFT, at the next block boundary when the taker is EVAC (R90, R133); a victim that
has not started is taken back at once and assigned to the request, and its members' requests are made again (R84,
R131, R133). With no victim the request waits. -/
def Obligations.UrgencyDecides : Prop :=
  ((∀ p : Play, p.victim .info = none ∧
    (∀ (cls : AnnClass) (ch : Chan), p.victim cls = some ch →
      (p.chan ch).state ≠ .free ∧ (p.chan ch).mark = none ∧ classCode cls < classCode (p.chan ch).cls ∧
      (∀ c : Chan, eligibleVictim cls (p.chan c) = true → classCode (p.chan c).cls ≤ classCode (p.chan ch).cls))) ∧
    (∀ c : Clips,
    (∀ ch : Chan, c.nextRead = some ch → ∃ k, c.readClass ch = some k ∧
      (∀ (d : Chan) (j : AnnClass), c.readClass d = some j → classCode k ≤ classCode j)) ∧
    (∀ (d : Chan) (j : AnnClass), c.readClass d = some j → ∃ ch, c.nextRead = some ch))) ∧
    (∀ (p : Play) (o : Out) (cls : AnnClass) (s : Served), p.cfu.waiting = [] → (∀ d, (p.chan d).state ≠ .free) →
    (∀ d, (p.chan d).state = .preparing ∨ (p.chan d).state = .granted → ∀ x, (p.chan d).served = some x →
      sameBody x s = false) →
    (p.victim cls = none → p.requestChan o cls s = { p with cfu := { p.cfu with
      waiting := [⟨p.cfu.nextSerial, o, cls, s, false⟩], nextSerial := p.cfu.nextSerial + 1 } }) ∧
    (∀ v, p.victim cls = some v →
      ((p.chan v).state = .playing →
        (p.requestChan o cls s).chan v = { p.chan v with mark := some p.cfu.nextSerial } ∧
        (∀ d, d ≠ v → (p.requestChan o cls s).chan d = p.chan d) ∧
        (p.requestChan o cls s).cfu.waiting = [⟨p.cfu.nextSerial, o, cls, s, false⟩] ∧
        (p.requestChan o cls s).cfu.counts = { p.cfu.counts with thefts := bump p.cfu.counts.thefts } ∧
        (∀ (id : AnnId) (q : Out), (p.chan v).served = some (.body id) →
          (p.requestChan o cls s).zone q = (if (p.chan v).members.getLsbD q.val = true then { p.zone q with
              queue := (p.zone q).queue.map fun x => if x.id = id ∧ x.sounding = true then
                x.addCause fun c => { c with theft := true, atBlock := c.atBlock || decide (cls = .evac) } else x }
            else p.zone q)) ∧ (p.requestChan o cls s).net = p.net ∧ (p.requestChan o cls s).cmu = p.cmu) ∧
      ((p.chan v).state = .preparing ∨ (p.chan v).state = .granted →
        ((p.requestChan o cls s).chan v).served = some s ∧ ((p.requestChan o cls s).chan v).cls = cls ∧
        ((p.requestChan o cls s).chan v).members.getLsbD o.val = true ∧
        ((p.requestChan o cls s).chan v).mark = none ∧
        (p.requestChan o cls s).cfu.counts.thefts = bump p.cfu.counts.thefts ∧
        (∀ (q : Out) (x : Served), (p.chan v).served = some x → (p.chan v).members.getLsbD q.val = true →
          (p.requestChan o cls s).hasRequest q x = true) ∧
        (∀ q, (p.requestChan o cls s).zone q = p.zone q) ∧ (p.requestChan o cls s).net = p.net)))

/-- Every report keeps the records distinct, whatever its kind, source and time; clearing one record or all keeps them
distinct (R194, R195). A report whose kind and source a valid record holds counts that record, to at most 255, and
sets its last time; otherwise the invalid record of lowest index takes it with count 1 and both times now, the record
being announced in RUNNING; otherwise the overflow flag is set and the lost count rises to at most 255 (R194). The
fault relay is asserted exactly when a valid record is of a routed class, or LINE is routed and a supervised output
has a validated status of SHORT, OPEN or LEAK; in RUNNING the routed classes are those of the image, and without one
every class is routed (R196). -/
def Obligations.FaultReportsSettle : Prop :=
  (((∀ (e : Env) (k : FaultKind) (source : Nat) (n : Net), n.flt.Distinct → (Net.report e k source n).flt.Distinct) ∧
    (∀ (f : FaultLog) (i : Fin 16), f.Distinct → (f.clearOne i).Distinct) ∧ (∀ f : FaultLog, f.clearAll.Distinct)) ∧
    (∀ (e : Env) (k : FaultKind) (source : Nat) (n : Net), n.flt.Distinct →
    (∀ (i : Fin 16) (r : FaultRecord), n.flt.records.get i = some r → r.kind = k → r.source = source →
      (Net.report e k source n).flt.records.get i = some { r with count := min 255 (r.count + 1), last := e.now } ∧
      (∀ j, j ≠ i → (Net.report e k source n).flt.records.get j = n.flt.records.get j) ∧
      (Net.report e k source n).lki = n.lki) ∧
    ((∀ (i : Fin 16) (r : FaultRecord), n.flt.records.get i = some r → ¬ (r.kind = k ∧ r.source = source)) →
      (∀ i : Fin 16, n.flt.records.get i = none → (∀ j, j < i → n.flt.records.get j ≠ none) →
        (Net.report e k source n).flt.records.get i = some ⟨k, source, e.now, e.now, 1⟩ ∧
        (∀ j, j ≠ i → (Net.report e k source n).flt.records.get j = n.flt.records.get j) ∧
        (e.load = .running → n.lki.queue.length < 16 → (Net.report e k source n).lki.queue =
          insertFrame n.lki.queue ⟨2, 31, .faultNotice ⟨i.val, faultCode k, source, e.now.day, e.now.time⟩⟩) ∧
        (e.load ≠ .running → (Net.report e k source n).lki = n.lki)) ∧
      ((∀ i : Fin 16, n.flt.records.get i ≠ none) →
        (Net.report e k source n).flt = { n.flt with overflow := true, lost := min 255 (n.flt.lost + 1) })))) ∧
    (∀ s : State, (s.relay = true ↔
      (∃ i r, s.play.net.flt.records.get i = some r ∧ s.routing.routes r.kind = true) ∨
        (s.routing.line = true ∧ ∃ o : Out, (s.play.lineAt o).supervised = true ∧
          ((s.play.lineAt o).status = .short ∨ (s.play.lineAt o).status = .opened ∨ (s.play.lineAt o).status = .leak))) ∧
    (∀ m, s.cfl.image = some m → s.routing = m.routing) ∧
    (s.cfl.image = none → s.routing = ⟨true, true, true, true, true⟩))

/-- An impedance below Zlow is SHORT, above Zhigh OPEN, within the limits with leakage above Lmax LEAK, and within
them with leakage at most Lmax OK; the tests are made in that order, and the class is stored with the word as the last
word (R156). -/
def Obligations.WordClasses : Prop :=
  ∀ (l : Line) (w : SupWord),
    (w.impedance < l.limits.zlow → classify l.limits w = .short) ∧
    (l.limits.zlow ≤ w.impedance → l.limits.zhigh < w.impedance → classify l.limits w = .opened) ∧
    (l.limits.zlow ≤ w.impedance → w.impedance ≤ l.limits.zhigh → l.limits.lmax < w.leakage →
      classify l.limits w = .leak) ∧
    (l.limits.zlow ≤ w.impedance → w.impedance ≤ l.limits.zhigh → w.leakage ≤ l.limits.lmax →
      classify l.limits w = .ok) ∧
    (l.takeWord w).last = some ⟨w.impedance, w.leakage, classify l.limits w⟩

/-- From any line whose candidate is none with run length 0, three words of one class that differs from the status
give that status with the counters cleared, and after one or two of them the status still stands with run length 1 and
2; a word of the status clears the counters (R157). A word failing its check is counted and otherwise passed over, as
is any word of an unsupervised output; a good word is stored, clears the missed-cycle count and is classified and
validated, and a status that stays changes nothing else (R155, R156, R157). A change to SHORT or OPEN puts an owned
zone in FAULTED with only sounding entries left in its queue (R96, R98). At a cycle end a supervised output without a
word counts a missed cycle, and the third in a row makes its status UNKNOWN with the counters cleared (R155, R158). A
word that changes the status reports at once LINE_SHORT, LINE_OPEN or LINE_LEAK for SHORT, OPEN or LEAK and nothing
for OK, with the zone id as source where the output carries an owned zone and the output number otherwise (in RUNNING,
for an output without one, the model's choice, log entry 65). A change to OK or LEAK returns a FAULTED zone in which
nothing sounds, and leaves the zones as they are where the output's is not FAULTED or something sounds in it (R101,
R159). A cycle end reports SUPERVISION_LOST for each supervised output that misses its third cycle in a row, in
ascending output number (the model's choice, log entry 74), counts each missed cycle, and returns a FAULTED zone in
which nothing sounds (R101, R158, R159). -/
def Obligations.SupervisionActs : Prop :=
  ((∀ (l : Line) (c : LineClass),
    (c.status = l.status → l.validate c = { l with candidate := none, run := 0 }) ∧
    (c.status ≠ l.status → l.candidate = none → l.run = 0 →
      l.validate c = { l with candidate := some c, run := 1 } ∧
      (l.validate c).validate c = { l with candidate := some c, run := 2 } ∧
      ((l.validate c).validate c).validate c = { l with status := c.status, candidate := none, run := 0 })) ∧
    (∀ s : State,
    (∀ (o : Out) (w : SupWord),
      (s.Quiet → (s.play.lineAt o).supervised = false → exec (.supervisionWord o w) s = .next s) ∧
      (s.Quiet → (s.play.lineAt o).supervised = true → w.checkOk = false →
        exec (.supervisionWord o w) s = .next (s.onPlay fun _ p =>
          { p with lsu := { p.lsu with corrupt := bump p.lsu.corrupt } })) ∧
      (s.Quiet → (s.play.lineAt o).supervised = true → w.checkOk = true →
        ((s.play.lineAt o).takeWord w).status = (s.play.lineAt o).status →
        exec (.supervisionWord o w) s = .next (s.onPlay fun _ p => p.onLine o fun l => l.takeWord w)) ∧
      ((s.play.lineAt o).supervised = true → w.checkOk = true → (s.play.zone o).id.isSome = true →
        (s.play.zone o).faulted = false → ((s.play.lineAt o).takeWord w).status ≠ (s.play.lineAt o).status →
        ((s.play.lineAt o).takeWord w).status = .short ∨ ((s.play.lineAt o).takeWord w).status = .opened →
        ∃ t, exec (.supervisionWord o w) s = .next t ∧ t.play.lineAt o = (s.play.lineAt o).takeWord w ∧
          (t.play.zone o).state = .faulted ∧ (∀ en ∈ (t.play.zone o).queue, en.sounding = true) ∧
          (∀ q, q ≠ o → t.play.lineAt q = s.play.lineAt q) ∧ s.SameTables t)) ∧
    ((s.play.lsu.cycles + 1) * 2000 ≤ s.elapsed → ∃ t, exec .supervisionCycleEnd s = .next t ∧
      t.play.lsu.cycles = s.play.lsu.cycles + 1 ∧ t.play.lsu.lock = s.play.lsu.lock ∧
      t.play.lsu.corrupt = s.play.lsu.corrupt ∧ s.SameTables t ∧
      ∀ o : Out, t.play.lineAt o =
        (if (s.play.lineAt o).supervised = false ∨ (s.play.lineAt o).wordTaken = true then
          { s.play.lineAt o with wordTaken := false }
        else if (s.play.lineAt o).missed = 2 then
          { s.play.lineAt o with missed := 3, status := .unknown, candidate := none, run := 0 }
        else { s.play.lineAt o with missed := min 3 ((s.play.lineAt o).missed + 1) })))) ∧
    (∀ s : State,
    (∀ (o : Out) (w : SupWord) (new : LineStatus), (s.play.lineAt o).supervised = true → w.checkOk = true →
      new = ((s.play.lineAt o).takeWord w).status → new ≠ (s.play.lineAt o).status →
      ∃ t, exec (.supervisionWord o w) s = .next t ∧ t.play.lineAt o = (s.play.lineAt o).takeWord w ∧
        (∀ q, q ≠ o → t.play.lineAt q = s.play.lineAt q) ∧ s.SameTables t ∧
        (new = .short → t.play.net.flt = (Net.report s.env .lineShort (s.env.faultSource o) s.play.net).flt) ∧
        (new = .opened → t.play.net.flt = (Net.report s.env .lineOpen (s.env.faultSource o) s.play.net).flt) ∧
        (new = .leak → t.play.net.flt = (Net.report s.env .lineLeak (s.env.faultSource o) s.play.net).flt) ∧
        (new = .ok → t.play.net.flt = s.play.net.flt) ∧
        (new = .ok ∨ new = .leak →
          ((s.play.zone o).faulted = true → (∀ en ∈ (s.play.zone o).queue, en.sounding = false) →
            (t.play.zone o).faulted = false) ∧
          ((s.play.zone o).faulted = false ∨ (∃ en ∈ (s.play.zone o).queue, en.sounding = true) →
            t.play.zpc = s.play.zpc))) ∧
    ((s.play.lsu.cycles + 1) * 2000 ≤ s.elapsed → s.play.lsu.missed ≤ 65535 →
      ∃ t, exec .supervisionCycleEnd s = .next t ∧
        t.play.net.flt = ((allOuts.filter fun o => (s.play.lineAt o).supervised && !(s.play.lineAt o).wordTaken &&
          (s.play.lineAt o).missed = 2).foldl
            (fun n o => Net.report s.env .supervisionLost (s.env.faultSource o) n) s.play.net).flt ∧
        t.play.lsu.missed = bumpBy (allOuts.filter fun o => (s.play.lineAt o).supervised &&
          !(s.play.lineAt o).wordTaken).length s.play.lsu.missed ∧
        (∀ o : Out, (s.play.lineAt o).supervised = true → (s.play.lineAt o).wordTaken = false →
          (s.play.lineAt o).missed = 2 → (s.play.lineAt o).status ≠ .unknown → (s.play.zone o).faulted = true →
          (∀ en ∈ (s.play.zone o).queue, en.sounding = false) → (t.play.zone o).faulted = false)) ∧
    (∀ o : Out, s.env.faultSource o = (match s.env.zoneCfg o with | some z => z.zone | none => o.val)))

/-- For every ZONE_REPORT, whoever sends it, a zone of an origination entry whose outcome is final keeps that outcome
for as long as the entry is held; the table's ids and the entry's zones are listed once each (R108, R111). A good
ZONE_REPORT under an id of this station with one entry of QUEUED or PLAYING for a zone whose outcome is open gives
that zone the reported outcome and keeps every other zone of the entry; a report whose id no entry holds is counted as
late and changes nothing else (R111). With one entry of DONE, DROPPED or REDIRECTED for an open zone, that zone takes
the outcome, a DROPPED with the reason byte it came with whatever its value (the model's choice, log entry 27), which
is counted, and the other zones stand; REDIRECTED adds the new zone, QUEUED with the report's source as owner (a byte
outside 1..30 too: the model's choice, log entry 11), unless the list holds it (a number above 63 names no zone: the
model's choice, log entry 12). The origination entry stands with those zones, all else as it was, or leaves the table
where they are then all final. An entry for a zone whose outcome is final changes nothing; one for a zone not in the
list counts as stray and changes nothing else. A report of several entries is applied entry by entry in list order
(R111, R113). -/
def Obligations.ZoneReportsApply : Prop :=
  ((∀ (p : Peers) (own src : Nat) (f : ZoneReportFrame) (o o' : Origination) (z : OrigZone),
    (p.table.map (·.id)).Nodup → p.find ⟨f.origin, f.seq⟩ = some o → (o.zones.map (·.zone)).Nodup →
    z ∈ o.zones → z.outcome.final = true →
    (p.zoneReport own src f).find ⟨f.origin, f.seq⟩ = some o' → z ∈ o'.zones) ∧
    (∀ (s : State) (env : Envelope) (f : ZoneReportFrame), s.TakesFrame env → s.Quiet → f.origin = s.cfl.own →
    (s.play.net.pau.find ⟨f.origin, f.seq⟩ = none → ∃ t, exec (.zoneReport env f) s = .next t ∧
      t.play.net.pau = { s.play.net.pau with counts :=
        { s.play.net.pau.counts with lateReport := bump s.play.net.pau.counts.lateReport } } ∧ s.SameTables t) ∧
    (∀ (o : Origination) (i : ReportItem) (z : OrigZone) (r : Outcome),
      s.play.net.pau.find ⟨f.origin, f.seq⟩ = some o → f.items = [i] → (i.outcome = 1 ∧ r = .queued ∨ i.outcome = 2 ∧ r = .playing) →
      (o.zones.map (·.zone)).Nodup → z ∈ o.zones → z.zone = i.zone → z.outcome.final = false →
      ∃ t o', exec (.zoneReport env f) s = .next t ∧ t.play.net.pau.find ⟨f.origin, f.seq⟩ = some o' ∧
        o'.zones = o.zones.map (fun x => if x.zone = i.zone then { x with outcome := r } else x) ∧
        o'.deadline = o.deadline ∧ s.SameTables t))) ∧
    ((∀ (s : State) (env : Envelope) (f : ZoneReportFrame) (o : Origination) (i : ReportItem), s.TakesFrame env → s.Quiet →
      f.origin = s.cfl.own → (s.play.net.pau.table.map (·.id)).Nodup → o ∈ s.play.net.pau.table →
      o.id = ⟨f.origin, f.seq⟩ → (∃ z ∈ o.zones, z.outcome.final = false) → f.items = [i] → 1 ≤ i.outcome →
      i.outcome ≤ 5 →
      (∀ (z : OrigZone) (r : Outcome) (zones : List OrigZone), z ∈ o.zones → z.zone = i.zone →
        (o.zones.map (·.zone)).Nodup → z.outcome.final = false →
        i.outcome = 3 ∧ r = .done ∨ i.outcome = 4 ∧ r = .dropped i.detail ∨ i.outcome = 5 ∧ r = .redirected i.detail →
        zones = (o.zones.map fun x => if x.zone = i.zone then { x with outcome := r } else x) ++
          (if i.outcome = 5 ∧ i.detail ≤ 63 ∧ ∀ x ∈ o.zones, x.zone ≠ i.detail
            then [⟨i.detail, some env.src, .queued⟩] else []) →
        ∃ t, exec (.zoneReport env f) s = .next t ∧ s.SameTables t ∧
          t.play.net = { s.tookGood.play.net with pau := { s.play.net.pau with
            table := if ∀ x ∈ zones, x.outcome.final = true
              then s.play.net.pau.table.filter fun x => x.id ≠ ⟨f.origin, f.seq⟩
              else s.play.net.pau.table.map fun x => if x.id = ⟨f.origin, f.seq⟩ then { x with zones := zones } else x
            counts := if i.outcome = 3 then { s.play.net.pau.counts with done := bump s.play.net.pau.counts.done }
              else if i.outcome = 4
                then { s.play.net.pau.counts with dropped := bump s.play.net.pau.counts.dropped }
              else { s.play.net.pau.counts with redirected := bump s.play.net.pau.counts.redirected } } }) ∧
      ((∀ z ∈ o.zones, z.zone ≠ i.zone) → exec (.zoneReport env f) s = .next (s.tookGood.onNet fun _ n =>
        { n with pau := { n.pau with counts :=
          { n.pau.counts with strayOutcome := bump n.pau.counts.strayOutcome } } })) ∧
      (∀ z ∈ o.zones, z.zone = i.zone → (o.zones.map (·.zone)).Nodup → z.outcome.final = true →
        exec (.zoneReport env f) s = .next s.tookGood)) ∧
    (∀ (p : Peers) (own src : Nat) (f : ZoneReportFrame) (i : ReportItem) (rest : List ReportItem) (o : Origination),
      (p.table.map (·.id)).Nodup → f.items = i :: rest → f.origin = own →
      (p.zoneReport own src { f with items := [i] }).find ⟨f.origin, f.seq⟩ = some o →
      p.zoneReport own src f =
        (p.zoneReport own src { f with items := [i] }).zoneReport own src { f with items := rest }))

/-- In LOADING with the header read not settled, a header of store size 129..524,288 is held as read; a failed read,
another size, and the limit at 2000 ms give version 0 and size 0. With the load not settled the part stays in LOADING;
with it settled it enters RUNNING with the accepted image, or UNCONFIGURED. A late completion changes nothing (R125,
R188). With the header read settled, an accepted image puts the part in RUNNING with that image, its address and the
count of clamps, and the trigger counters at 0; a refused one puts it in UNCONFIGURED with own address 0. With the
header read outstanding the result is held in LOADING (R186, R188, R189, R190). At 2000 ms or later with the load not
settled the cause is UNREADABLE: the part enters UNCONFIGURED whatever the fault log holds, and CONFIG_INVALID of
source 1 is reported, in the first invalid record where no valid one has that kind and source; with the header read
outstanding the cause is held in LOADING (R186, R190, R194). Before 2000 ms nothing changes (the model's guard, log
entry 2). On entry to RUNNING, by either read, without a survey: an output given a zone takes its id, is FAULTED
exactly where its kept status is SHORT or OPEN, and keeps its queue (with evacuation released); it takes its limits
with the validation counters cleared, status and missed cycles kept; its candidates, parameters and initial preset, P
0 and no retry pending; its noise × 16, no discard mark, and Gmin with no target, or, where an entry sounds, the EVAC
target as gain and target (R75, R140, R152, R160, R162). Another output keeps only what sounds (log entry 35,
deduced), to stop for NOT_OWNED at the next block boundary unless it holds a drop reason; it is unsupervised and
UNKNOWN with no word, its survey values stand, and its noise is 0 and its gain 180 while an entry sounds, else 0
(R105, R140, R152, R160, R162). The lock is set where the image sets it, the first beacon is queued and the next due
1000 ms from now (R160, R182, R189). -/
def Obligations.LoadingSettles : Prop :=
  ((∀ s : State,
    (s.Quiet → s.cfl.load = .loading → s.cfl.headerDone = false → s.cfl.config = none →
      (∀ h : LibHeader, ∃ t, exec (.headerReadComplete (some h)) s = .next t ∧ t.cfl = { s.cfl with headerDone := true } ∧
        (t.play.cfu.version, t.play.cfu.size) = (if 129 ≤ h.size ∧ h.size ≤ 524288 then (h.version, h.size) else (0, 0)) ∧
        t.play.zpc = s.play.zpc ∧ t.sck = s.sck) ∧
      (∃ t, exec (.headerReadComplete none) s = .next t ∧ t.cfl = { s.cfl with headerDone := true } ∧
        t.play.cfu.version = 0 ∧ t.play.cfu.size = 0) ∧
      (2000 ≤ s.elapsed → ∃ t, exec .headerReadTimeout s = .next t ∧ t.cfl = { s.cfl with headerDone := true } ∧
        t.play.cfu.version = 0 ∧ t.play.cfu.size = 0)) ∧
    (s.cfl.load = .loading → s.cfl.headerDone = false → s.cfl.image = none → ∀ r : Option LibHeader,
      (∀ image n, s.cfl.config = some (.accepted image n) → ∃ t, exec (.headerReadComplete r) s = .next t ∧
        t.cfl.load = .running ∧ t.cfl.image = some image ∧ t.cfl.clamped = n ∧ t.cfl.own = image.address) ∧
      (∀ cause, s.cfl.config = some (.failed cause) → ∃ t, exec (.headerReadComplete r) s = .next t ∧
        t.cfl.load = .unconfigured ∧ t.cfl.own = 0)) ∧
    (s.Quiet → s.cfl.headerDone = true → ∀ r, exec (.headerReadComplete r) s = .next s)) ∧
    ((∀ (s : State) (bytes : Option (List Byte)), s.cfl.load = .loading → s.cfl.config = none → s.cfl.image = none →
    (s.cfl.headerDone = true →
      (∀ image n, loadImage bytes = .accepted image n → ∃ t, exec (.configReadComplete bytes) s = .next t ∧
        t.cfl.load = .running ∧ t.cfl.image = some image ∧ t.cfl.clamped = n ∧ t.cfl.own = image.address ∧
        t.tgu = Triggers.reset ∧ t.ctb = s.ctb) ∧
      (∀ cause, loadImage bytes = .failed cause → ∃ t, exec (.configReadComplete bytes) s = .next t ∧
        t.cfl.load = .unconfigured ∧ t.cfl.own = 0 ∧ t.ctb = s.ctb ∧ t.sck = s.sck)) ∧
    (s.cfl.headerDone = false → s.Quiet →
      exec (.configReadComplete bytes) s = .next { s with cfl := { s.cfl with config := some (loadImage bytes) } })) ∧
    (∀ s : State, s.cfl.load = .loading → s.cfl.config = none → s.cfl.image = none →
    (2000 ≤ s.elapsed → s.cfl.headerDone = true → ∃ t, exec .configLoadTimeout s = .next t ∧
      t.cfl.load = .unconfigured ∧ t.cfl.own = 0 ∧ t.cfl.config = some (.failed .unreadable) ∧
      t.play.net.flt = (Net.report s.env .configInvalid 1 s.play.net).flt ∧
      ((∀ j r, s.play.net.flt.records.get j = some r → ¬ (r.kind = .configInvalid ∧ r.source = 1)) →
        ∀ i : Fin 16, s.play.net.flt.records.get i = none → (∀ j, j < i → s.play.net.flt.records.get j ≠ none) →
          t.play.net.flt.records.get i = some ⟨.configInvalid, 1, s.env.now, s.env.now, 1⟩)) ∧
    (2000 ≤ s.elapsed → s.cfl.headerDone = false → s.Quiet → exec .configLoadTimeout s =
      .next { s with cfl := { s.cfl with config := some (.failed .unreadable) } }) ∧
    (s.elapsed < 2000 → s.Quiet → exec .configLoadTimeout s = .next s)))) ∧
    (∀ (s : State) (i : Instr) (image : Image) (n : Nat), s.cfl.load = .loading → s.cfl.image = none →
      s.sck.quiet = false →
      (∀ o, (s.play.zone o).id = none ∧ (s.play.zone o).survey = false ∧ ((s.play.zone o).queue.map (·.id)).Nodup ∧
        ∀ en ∈ (s.play.zone o).queue, en.origin = .evac) →
      (s.cfl.headerDone = true ∧ s.cfl.config = none ∧
          (∃ bytes, i = .configReadComplete bytes ∧ loadImage bytes = .accepted image n) ∨
        s.cfl.headerDone = false ∧ s.cfl.config = some (.accepted image n) ∧ ∃ r, i = .headerReadComplete r) →
      ∃ t, exec i s = .next t ∧ t.play.lsu.lock = (s.play.lsu.lock || image.lock) ∧
        t.play.net.lki.beaconAt = s.elapsed + 1000 ∧
        (s.play.net.pau.outbox = [] → s.play.net.pau.held = [] → s.play.net.lki.queue = [] →
          t.play.net.lki.queue = [⟨2, 31, .beacon none⟩]) ∧
        ∀ (o : Out) (sounds : Bool), sounds = (s.play.zone o).queue.any Entry.sounding →
          (∀ z, image.zones.find? (fun z => z.output = o) = some z →
            (t.play.zone o).id = some z.zone ∧ (t.play.zone o).faulted = s.play.lineDown o ∧
            (s.play.evl.active = false → (t.play.zone o).queue = (s.play.zone o).queue) ∧
            t.play.lineAt o = { s.play.lineAt o with limits := z.limits, candidate := none, run := 0 } ∧
            t.play.surveyAt o = { s.play.surveyAt o with
              candidates := z.candidates, params := z.params, preset := some z.preset, offset := 0, retryAt := none } ∧
            t.play.levelAt o = { s.play.levelAt o with
              n16 := z.noise * 16, discard := false
              gain := if sounds then gainTarget image z .evac z.noise 0 false else z.gmin
              target := if sounds then some (gainTarget image z .evac z.noise 0 false) else none }) ∧
          (image.zones.find? (fun z => z.output = o) = none →
            (t.play.zone o).id = none ∧
            (t.play.zone o).queue = ((s.play.zone o).queue.filter Entry.sounding).map (fun en =>
              en.addCause fun c => { c.giveDrop .notOwned with atBlock := true }) ∧
            t.play.lineAt o = { s.play.lineAt o with
              status := .unknown, candidate := none, run := 0, missed := 0, last := none, supervised := false } ∧
            t.play.surveyAt o = s.play.surveyAt o ∧
            t.play.levelAt o = { s.play.levelAt o with
              n16 := 0, discard := false, gain := if sounds then 180 else 0, target := none }))

/-- A frame heard that fails a test of R179 is discarded with that test's count, and starts the idle count afresh;
nothing else changes (R179, R180). A frame of any row whose destination is neither this station's own address nor 31
is discarded with the wrong-destination count, and nothing else changes but the idle count (R179, R180). Outside
RUNNING a good timetable frame, ANNOUNCE, ZONE_REPORT, WITHDRAW or WITHDRAW_DONE addressed to 31 is counted as good
and discarded without a further count (R3, R122, R179). A good FAULT_NOTICE or MAINT_REPLY is counted as good and
changes nothing else in any load state (R179, R183). -/
def Obligations.FramesTurnedAway : Prop :=
  (∀ (s : State) (raw : List Byte), s.Quiet → ∀ (f : LinkCounts → LinkCounts),
    (judge s.cfl.own raw = .envelope ∧ f = (fun c => { c with envelope := bump c.envelope }) ∨
      judge s.cfl.own raw = .badCheck ∧ f = (fun c => { c with badCheck := bump c.badCheck }) ∨
      judge s.cfl.own raw = .wrongDest ∧ f = (fun c => { c with wrongDest := bump c.wrongDest }) ∨
      judge s.cfl.own raw = .unknownKind ∧ f = (fun c => { c with unknownKind := bump c.unknownKind }) ∨
      judge s.cfl.own raw = .malformed ∧ f = (fun c => { c with malformed := bump c.malformed })) →
    exec (.frameDiscard raw) s = .next (s.onLki fun l => { l with idle := 0, busy := false, counts := f l.counts })) ∧
    (((∀ (s : State) (env : Envelope) (i : Instr), s.Quiet → destOk s.cfl.own env.dst = false →
    ((∃ f, i = .beacon env f) ∨ (∃ f, i = .callSet env f) ∨ (∃ f, i = .callDelay env f) ∨ (∃ f, i = .callPlatform env f) ∨
      (∃ f, i = .callCancel env f) ∨ (∃ f, i = .announce env f) ∨ (∃ f, i = .zoneReport env f) ∨
      (∃ f, i = .withdraw env f) ∨ (∃ f, i = .withdrawDone env f) ∨ (∃ f, i = .faultNoticeReceived env f) ∨
      (∃ f, i = .maintReplyReceived env f) ∨
      (∃ tag args, i = .queryCall ⟨env, tag⟩ args ∨ i = .queryZone ⟨env, tag⟩ args ∨ i = .queryFault ⟨env, tag⟩ args ∨
        i = .querySurvey ⟨env, tag⟩ args ∨ i = .queryCounters ⟨env, tag⟩ args ∨ i = .clearFault ⟨env, tag⟩ args ∨
        i = .surveyStart ⟨env, tag⟩ args ∨ i = .surveyAbort ⟨env, tag⟩ args ∨ i = .limitSet ⟨env, tag⟩ args ∨
        i = .limitLock ⟨env, tag⟩ args ∨ i = .restart ⟨env, tag⟩ args ∨
        ∃ code, i = .maintRequestUnknown ⟨env, tag⟩ code args)) →
    exec i s = .next (s.onLki fun l =>
      { l with idle := 0, busy := false, counts := { l.counts with wrongDest := bump l.counts.wrongDest } })) ∧
    (∀ (s : State) (env : Envelope), s.Quiet → s.cfl.load ≠ .running → env.dst = 31 →
    (∀ f : CallSetFrame, f.key.kind ≤ 1 → exec (.callSet env f) s = .next s.tookGood) ∧
    (∀ f : CallDelayFrame, f.key.kind ≤ 1 → exec (.callDelay env f) s = .next s.tookGood) ∧
    (∀ f : CallPlatformFrame, f.key.kind ≤ 1 → exec (.callPlatform env f) s = .next s.tookGood) ∧
    (∀ f : CallKeyFields, f.kind ≤ 1 → exec (.callCancel env f) s = .next s.tookGood) ∧
    (∀ f : AnnounceFrame, announceOk env.src f = true → exec (.announce env f) s = .next s.tookGood) ∧
    (∀ f : ZoneReportFrame, exec (.zoneReport env f) s = .next s.tookGood) ∧
    (∀ f : WithdrawFrame, withdrawOk f = true → exec (.withdraw env f) s = .next s.tookGood) ∧
    (∀ f : WithdrawDoneFrame, exec (.withdrawDone env f) s = .next s.tookGood))) ∧
    (∀ (s : State) (env : Envelope) (f : FaultNoticeFrame) (g : MaintReplyFrame), s.Quiet →
    destOk s.cfl.own env.dst = true →
    exec (.faultNoticeReceived env f) s = .next s.tookGood ∧ exec (.maintReplyReceived env g) s = .next s.tookGood))

/-- A good time-capable beacon with a time within the day, from an address below which no address is live, sets
station time and day to its values, puts the clock in LOCKED, makes its sender the selected source and marks it heard
and as the last source beacon, with no pending step (R29, R30). For a source beacon of the station's own day in LOCKED
or HOLDOVER: an offset within ±2000 ms sets the time, discards a pending step and locks the clock; an offset beyond
it, with no pending step of this sender within 100 ms, leaves time and state and becomes the pending step; one within
100 ms of this sender's pending step sets the time and locks the clock (R31). A good time-capable beacon of a station
is heard and the source selected afresh: the lowest address heard within 3 s, a change of source discarding the
pending step. From the selected source the clock acts on it as sourceBeacon gives, in every clock state, and then the
owner map takes it (their order is the model's choice, log entry 54): the clock, the Call Table, the triggers and the
zones are those of sourceBeacon on the state so heard. From any other the clock changes in its heard list, selection
and pending step alone, and the Call Table, the triggers and the zones stand (R29). A beacon that R30, R31 or R32
applies sets the clock LOCKED at its day and time with no pending step, recorded as the last source beacon, the quiet-
hours level following as QUIET_HOURS_CHANGE gives it (at once: the model's choice, log entry 55). A confirmed step, an
advance beyond ±2000 ms and a day step then report TIME_STEP with the sender as source (before what follows: the
model's choice, log entry 69), the advance rolls the table over, and the day step shifts the held instants and clears
the table. Where station time then lies in another whole second than before, day and second compared (deduced, log
entry 13), one whole-second signal follows, which does what WHOLE_SECOND does; otherwise none (R30, R31, R32, R34,
R35). -/
def Obligations.BeaconTime : Prop :=
  (((∀ (s : State) (env : Envelope) (f : BeaconFrame) (h : env.src < 31), destOk s.cfl.own env.dst = true → f.loadState = 1 →
    f.timeCapable = true → f.time < 86400000 → 1 ≤ env.src → s.sck.state = .unset →
    (∀ a : Fin 31, 1 ≤ a.val → a.val < env.src → heardLive s.elapsed (s.sck.heard.get a) = false) →
    ∃ t, exec (.beacon env f) s = .next t ∧ t.sck.state = .locked ∧ t.sck.time = f.time ∧ t.sck.day = f.day ∧
      t.sck.selected = some env.src ∧ t.sck.heard.get ⟨env.src, h⟩ = some s.elapsed ∧
      t.sck.lastSource = some ⟨s.elapsed, env.src⟩ ∧ t.sck.pendingStep = none ∧
      t.ctb.places.map (fun q => q.rec?.map (·.code)) = s.ctb.places.map (fun q => q.rec?.map (·.code))) ∧
    (∀ (s : State) (src : Nat) (f : BeaconFrame), s.sck.state ≠ .unset → f.day = s.sck.day →
    (((f.time : Int) - s.sck.time).natAbs ≤ 2000 →
      (s.sourceBeacon src f).sck.time = f.time ∧ (s.sourceBeacon src f).sck.day = s.sck.day ∧
      (s.sourceBeacon src f).sck.state = .locked ∧ (s.sourceBeacon src f).sck.pendingStep = none) ∧
    (2000 < ((f.time : Int) - s.sck.time).natAbs →
      (∀ q, s.sck.pendingStep = some q → q.address = src → 100 < ((f.time : Int) - s.sck.time - q.offset).natAbs) →
      s.sourceBeacon src f = s.onSck fun c =>
        { c with lastSource := some ⟨s.elapsed, src⟩, pendingStep := some ⟨src, (f.time : Int) - s.sck.time⟩ }) ∧
    (2000 < ((f.time : Int) - s.sck.time).natAbs →
      (∃ q, s.sck.pendingStep = some q ∧ q.address = src ∧ ((f.time : Int) - s.sck.time - q.offset).natAbs ≤ 100) →
      (s.sourceBeacon src f).sck.time = f.time ∧ (s.sourceBeacon src f).sck.state = .locked ∧
      (s.sourceBeacon src f).sck.pendingStep = none))) ∧
    (∀ (s : State) (env : Envelope) (f : BeaconFrame) (h : env.src < 31) (heard : State) (a : Fin 31), s.TakesFrame env →
      f.loadState = 1 → f.timeCapable = true → f.time < 86400000 → 1 ≤ env.src → 1 ≤ a.val →
      (∀ b : Fin 31, 1 ≤ b.val → b < a → b.val ≠ env.src ∧
        ∀ x, s.sck.heard.get b = some x → x + 3000 ≤ s.elapsed) →
      (a.val = env.src ∨ ∃ x, s.sck.heard.get a = some x ∧ s.elapsed < x + 3000) →
      heard = (s.tookGood.onSck fun c => { c with
        heard := upd c.heard ⟨env.src, h⟩ fun _ => some s.elapsed, selected := some a.val
        pendingStep := if c.selected = some a.val then c.pendingStep else none }) →
      (a.val = env.src → ∃ t, exec (.beacon env f) s = .next t ∧
        t = ((heard.sourceBeacon env.src f).onNet fun e n => n.ownerBeacon e env.src f).finish ∧
        t.sck = (heard.sourceBeacon env.src f).sck ∧ t.ctb = (heard.sourceBeacon env.src f).ctb ∧
        t.tgu = (heard.sourceBeacon env.src f).tgu ∧ t.play.zpc = (heard.sourceBeacon env.src f).play.zpc ∧
        t.play.cmu = (heard.sourceBeacon env.src f).play.cmu ∧ t.cfl = s.cfl ∧ t.elapsed = s.elapsed) ∧
      (a.val ≠ env.src → ∃ t, exec (.beacon env f) s = .next t ∧
        t = (heard.onNet fun e n => n.ownerBeacon e env.src f).finish ∧
        t.sck.state = s.sck.state ∧ t.sck.time = s.sck.time ∧ t.sck.day = s.sck.day ∧
        t.sck.lastSource = s.sck.lastSource ∧ t.sck.selected = some a.val ∧ t.ctb = s.ctb ∧ t.tgu = s.tgu ∧
        t.play.zpc = s.play.zpc ∧ t.cfl = s.cfl ∧ t.elapsed = s.elapsed))) ∧
    ((∀ (s : State) (src : Nat) (f : BeaconFrame) (offset : Int) (set applied : State) (step : State → State),
      offset = (f.time : Int) - s.sck.time →
      set = State.settleQuiet { s with sck := { s.sck with
        lastSource := some ⟨s.elapsed, src⟩, state := .locked, day := f.day, time := f.time, pendingStep := none
        dayEndDue := false } } →
      (∀ u, step u = { u with play := { u.play with net := Net.report u.env .timeStep src u.play.net } }) →
      (s.sck.state = .unset ∧ applied = set ∨
        s.sck.state ≠ .unset ∧
          (f.day = s.sck.day ∧ offset.natAbs ≤ 2000 ∧ applied = set ∨
            f.day = s.sck.day ∧ 2000 < offset.natAbs ∧
              (∃ q, s.sck.pendingStep = some q ∧ q.address = src ∧ (offset - q.offset).natAbs ≤ 100) ∧
              applied = step set ∨
            f.day = s.sck.day + 1 ∧
              applied = (if (86400000 + offset).natAbs ≤ 2000 then set else step set).rollOver ∨
            f.day ≠ s.sck.day ∧ f.day ≠ s.sck.day + 1 ∧
              (f.day + 1 = s.sck.day → -86400000 + offset < -2000 ∨ 0 < -86400000 + offset) ∧
              applied = ((step set).onPlay fun _ p => p.shiftInstants (f.day - s.sck.day)).clearTable)) →
      s.sourceBeacon src f = (if f.day = s.sck.day ∧ f.time / 1000 = s.sck.time / 1000 then applied
        else applied.wholeSecond)) ∧
    (∀ u : State, exec .quietHoursChange u = .next u.settleQuiet ∧
      exec .wholeSecond { u with sck := { u.sck with secondDue := true } } = .next u.wholeSecond.finish))

/-- A source beacon of another day in LOCKED or HOLDOVER (R32). One day less with an offset within −2000..0 is the
straddle: time and day stay, the clock locks and a pending step is discarded. One day more is an advance: time and day
are taken, the clock locks, the table rolls over (R24, R34), and with no trigger configured no queue and no
origination changes and TIME_STEP is reported beyond ±2000 ms alone. Any other is a day step: time and day are taken,
every call place is freed (R25), every entry of a queue and every origination that stays has its instants shifted by
the step (R92, R108), and TIME_STEP is reported with the sender as source. At a day step, of the LOCAL entries that
carry a service key those that wait leave their queues, counted CALL_ENDED, and those that sound play on with their
stale mark set; every other entry stays. Every origination that carries a service key is withdrawn as FullTableSettled
gives, after TIME_STEP was reported and the instants were shifted (this order is the model's choice, log entry 69),
and the link and the Fault Log hold nothing else new (R25, R32, R93, R114). -/
def Obligations.OtherDayBeacon : Prop :=
  (∀ (s : State) (src : Nat) (f : BeaconFrame) (offset : Int), s.sck.state ≠ .unset →
    (f.day + 1 = s.sck.day → offset = -86400000 + (f.time : Int) - s.sck.time → -2000 ≤ offset → offset ≤ 0 →
      s.sourceBeacon src f = s.onSck fun c =>
        { c with lastSource := some ⟨s.elapsed, src⟩, state := .locked, pendingStep := none }) ∧
    (f.day = s.sck.day + 1 → offset = 86400000 + (f.time : Int) - s.sck.time →
      (s.sourceBeacon src f).sck.time = f.time ∧ (s.sourceBeacon src f).sck.day = f.day ∧
      (s.sourceBeacon src f).sck.state = .locked ∧ (s.sourceBeacon src f).sck.pendingStep = none ∧
      (∀ i r, s.ctb.places.get i = .held r → expectedTime (r.booked - 1440) r.delay < -60 →
        (s.sourceBeacon src f).ctb.places.get i = .free) ∧
      (∀ i r, s.ctb.places.get i = .held r → -60 ≤ expectedTime (r.booked - 1440) r.delay →
        ∃ r', (s.sourceBeacon src f).ctb.places.get i = .held r' ∧ { r' with fired := r.fired } =
          { r with booked := r.booked - 1440, expected := expectedTime (r.booked - 1440) r.delay,
                   qualified := max (-1440) (r.qualified - 1440) }) ∧
      (s.triggers = [] → (∀ o, ((s.sourceBeacon src f).play.zone o).queue = (s.play.zone o).queue) ∧
        (s.sourceBeacon src f).play.net = (if offset.natAbs ≤ 2000 then s.play.net
          else Net.report { s.env with now := ⟨f.day, f.time⟩ } .timeStep src s.play.net))) ∧
    (f.day ≠ s.sck.day → f.day ≠ s.sck.day + 1 → offset = -86400000 + (f.time : Int) - s.sck.time →
      (f.day + 1 = s.sck.day → offset < -2000 ∨ 0 < offset) →
      (s.sourceBeacon src f).sck.time = f.time ∧ (s.sourceBeacon src f).sck.day = f.day ∧
      (s.sourceBeacon src f).sck.state = .locked ∧ (s.sourceBeacon src f).sck.pendingStep = none ∧
      (∀ i, (s.sourceBeacon src f).ctb.places.get i = .free) ∧
      (∀ o, ∀ en ∈ ((s.sourceBeacon src f).play.zone o).queue, ∃ x ∈ (s.play.zone o).queue, x.id = en.id ∧
        en.expiry = x.expiry.map (fun i => ⟨i.day + (f.day - s.sck.day), i.time⟩) ∧
        en.sync = x.sync.map (fun i => ⟨i.day + (f.day - s.sck.day), i.time⟩)) ∧
      (∀ x ∈ (s.sourceBeacon src f).play.net.pau.table, ∃ y ∈ s.play.net.pau.table, y.id = x.id ∧
        x.expiry = ⟨y.expiry.day + (f.day - s.sck.day), y.expiry.time⟩) ∧
      ((∃ i, s.play.net.flt.records.get i = none) → ∃ i r, (s.sourceBeacon src f).play.net.flt.records.get i = some r ∧
        r.kind = .timeStep ∧ r.source = src))) ∧
    (∀ (s : State) (src : Nat) (f : BeaconFrame) (offset : Int) (e : Env) (reported shifted : Net) (lost : Entry → Bool),
      s.sck.state ≠ .unset → f.day ≠ s.sck.day → f.day ≠ s.sck.day + 1 → offset = -86400000 + (f.time : Int) - s.sck.time →
      (f.day + 1 = s.sck.day → offset < -2000 ∨ 0 < offset) →
      e = { s.env with now := ⟨f.day, f.time⟩ } → reported = Net.report e .timeStep src s.play.net →
      shifted = { reported with pau := { reported.pau with table := reported.pau.table.map fun x =>
        { x with expiry := ⟨x.expiry.day + (f.day - s.sck.day), x.expiry.time⟩ } } } →
      (∀ en, lost en = (en.origin = .own && en.key.isSome && !en.sounding)) →
      (s.sourceBeacon src f).play.net = Net.withdrawAll e (fun x => x.key.isSome) shifted ∧
      (∀ x ∈ (s.sourceBeacon src f).play.net.pau.table, x.key.isSome = true → x.withdrawn = true) ∧
      (∀ o, ∀ en ∈ ((s.sourceBeacon src f).play.zone o).queue, en.origin = .own → en.key.isSome = true →
        en.sounding = true ∧ en.stale = true) ∧
      ((∀ o, ((s.play.zone o).queue.map (·.id)).Nodup) → s.play.zpc.counts.callEnded ≤ 65535 →
        (∀ o, ((s.sourceBeacon src f).play.zone o).queue.map (·.id) =
          ((s.play.zone o).queue.filter fun en => !lost en).map (·.id)) ∧
        (s.sourceBeacon src f).play.zpc.counts = { s.play.zpc.counts with callEnded := (
          bumpBy (allOuts.map fun o => ((s.play.zone o).queue.filter lost).length).sum s.play.zpc.counts.callEnded) }))

/-- For a beacon of another station 1..30 with zone set Z: an entry of that station for a zone outside Z is removed,
and any other place outside Z stands, an absent one too; the place of an own zone of Z stands; for each other zone of
Z an absent place becomes an entry of the sender with the time of the beacon and its flag, an entry of the sender is
refreshed, one of a higher address is replaced and one of a lower address is kept. ZONE_OWNER_CONFLICT is reported for
the own zones of Z, and then for the other zones of Z that a further station holds, in ascending zone id (the order
within each step is the model's choice, log entry 56; R107). In RUNNING a good beacon that is not used for time, its
time-capable flag clear or its time outside a day, changes nothing but the owner map and the faults it reports (R29,
R107). -/
def Obligations.OwnerMapTakesBeacon : Prop :=
  (∀ (e : Env) (src : Nat) (f : BeaconFrame) (n : Net), src ≠ e.own → 1 ≤ src → src ≤ 30 →
    (∀ z : Fin 64,
      (f.zones.getLsbD z.val = true → (e.outOfZone z.val).isSome = true →
        (n.ownerBeacon e src f).pau.owners.get z = n.pau.owners.get z) ∧
      (f.zones.getLsbD z.val = true → (e.outOfZone z.val).isNone = true →
        (∀ o, n.pau.owners.get z = some o → o.owner < src →
          (n.ownerBeacon e src f).pau.owners.get z = some o) ∧
        ((∀ o, n.pau.owners.get z = some o → src ≤ o.owner) →
          (n.ownerBeacon e src f).pau.owners.get z = some ⟨src, e.elapsed, f.evacActive⟩)) ∧
      (f.zones.getLsbD z.val = false →
        (∀ o, n.pau.owners.get z = some o → o.owner = src → (n.ownerBeacon e src f).pau.owners.get z = none) ∧
        ((∀ o, n.pau.owners.get z = some o → o.owner ≠ src) →
          (n.ownerBeacon e src f).pau.owners.get z = n.pau.owners.get z))) ∧
    (n.ownerBeacon e src f).flt =
      (((zonesOf f.zones).filter fun z => (e.outOfZone z).isSome) ++ (zonesOf f.zones).filter fun z =>
        (e.outOfZone z).isNone && (if h : z < 64 then (n.pau.owners.get ⟨z, h⟩).any fun o => o.owner ≠ src else false)).foldl
        (fun m z => (Net.report e .zoneOwnerConflict z { n with flt := m }).flt) n.flt) ∧
    (∀ (s : State) (env : Envelope) (f : BeaconFrame), s.TakesFrame env → s.Quiet → f.loadState = 1 →
      f.timeCapable = false ∨ 86400000 ≤ f.time →
      exec (.beacon env f) s = .next (s.tookGood.onNet fun e n => n.ownerBeacon e env.src f))

/-- A good CALL_SET that passes its checks, whose key is not held and whose platform is covered, creates a record at
the lowest free place with every field from the frame, BOOKED, epoch 0, qualified, altered-in as the flag says (its
fired set as the LEAD evaluation at once leaves it); the other places keep their records; the clock and the berth
inputs are untouched. For an uncovered platform the frame changes nothing (R8). A timetable frame whose check answers
none increments the malformed count of the Call Table and changes nothing else: its code or its service day in each of
the four kinds, its platform in CALL_SET and CALL_PLATFORM, and its call fields where it carries them (R6, R7). A code
passes when 4 to 6 letters or digits, in ASCII (presumed, log entry 7), stand before zero bytes; a platform within
1..48; and a booked time within −1440..2879 before and after its alignment: by 0 while the clock is UNSET or on the
station's own day, by +1440 for the day after it, by −1440 for the day before it, and by nothing else, which is
malformed (R6, R7). The fields then taken are those of the frame with the booked time aligned, the delay brought
within −60..+720, the coaches to at most 24 and the points to the first 16; a category above 7 and an operator above
15 leave a free value in range (log entry 6), and a forms code is taken for ARR alone, whatever its bytes (the model's
choice, log entry 47; R2, R6). The place a new record takes is the free place of lowest index, and there is one
exactly while a place is free; a key is found at the lowest index that holds it, and nowhere exactly when no held
record has it (R3). -/
def Obligations.CallSetCreates : Prop :=
  ((∀ (s : State) (env : Envelope) (f : CallSetFrame) (kind : CallKind) (shift : Int) (fields : CallFields),
    s.TakesFrame env → f.key.kind ≤ 1 → s.checkKey f.key = some (kind, shift) → platformOk f.platform = true →
    checkFields kind shift f.fields = some fields → s.ctb.find f.key.code kind = none →
    (s.env.covers f.platform = true → ∀ i, s.ctb.freePlace = some i →
      ∃ t r, exec (.callSet env f) s = .next t ∧ t.ctb.places.get i = .held r ∧
        { r with fired := 0 } = newCall f.key.code kind f.platform fields f.alteration s.env.now ∧
        (∀ j, j ≠ i → t.ctb.places.get j = s.ctb.places.get j) ∧ t.sck = s.sck ∧ t.cfl = s.cfl ∧
        s.ctb.SameInputs t.ctb ∧ t.ctb.counts = s.ctb.counts) ∧
    (s.env.covers f.platform = false → s.Quiet → exec (.callSet env f) s = .next s.tookGood)) ∧
    ((∀ (s : State) (env : Envelope) (bad : State), s.TakesFrame env → s.Quiet →
      bad = (s.tookGood.onCtb fun c => { c with counts := { c.counts with malformed := bump c.counts.malformed } }) →
      (∀ f : CallSetFrame, f.key.kind ≤ 1 →
        s.checkKey f.key = none ∨ platformOk f.platform = false ∨
          (∃ kind shift, s.checkKey f.key = some (kind, shift) ∧ checkFields kind shift f.fields = none) →
        exec (.callSet env f) s = .next bad) ∧
      (∀ f : CallDelayFrame, f.key.kind ≤ 1 → s.checkKey f.key = none → exec (.callDelay env f) s = .next bad) ∧
      (∀ f : CallPlatformFrame, f.key.kind ≤ 1 →
        s.checkKey f.key = none ∨ platformOk f.platform = false ∨
          (∃ kind shift x, s.checkKey f.key = some (kind, shift) ∧ f.complete = some x ∧
            checkFields kind shift x = none) →
        exec (.callPlatform env f) s = .next bad) ∧
      (∀ f : CallKeyFields, f.kind ≤ 1 → s.checkKey f = none → exec (.callCancel env f) s = .next bad)) ∧
    (∀ (s : State) (k : CallKeyFields), k.kind ≤ 1 →
      (s.checkKey k = none ↔ codeOk k.code = false ∨ s.alignment k.day = none) ∧
      (∀ kind shift, s.checkKey k = some (kind, shift) ↔
        codeOk k.code = true ∧ s.alignment k.day = some shift ∧ (kind = .arr ↔ k.kind = 0))) ∧
    (∀ (s : State) (day : Day),
      (s.sck.state = .unset → s.alignment day = some 0) ∧
      (s.sck.state ≠ .unset →
        (day = s.sck.day → s.alignment day = some 0) ∧
        (day = s.sck.day + 1 → s.alignment day = some 1440) ∧
        (day + 1 = s.sck.day → s.alignment day = some (-1440)) ∧
        (day ≠ s.sck.day → day ≠ s.sck.day + 1 → day + 1 ≠ s.sck.day → s.alignment day = none))) ∧
    (∀ c : Code, codeOk c = true ↔ ∃ n, 4 ≤ n ∧ n ≤ 6 ∧
      (∀ i b : Nat, i < n → b = (c.toNat >>> (40 - 8 * i)) % 256 →
        48 ≤ b ∧ b ≤ 57 ∨ 65 ≤ b ∧ b ≤ 90 ∨ 97 ≤ b ∧ b ≤ 122) ∧
      (∀ i : Nat, n ≤ i → i < 6 → (c.toNat >>> (40 - 8 * i)) % 256 = 0)) ∧
    (∀ p : Nat, platformOk p = true ↔ 1 ≤ p ∧ p ≤ 48) ∧
    (∀ (kind : CallKind) (shift : Int) (f : CallFields),
      (checkFields kind shift f = none ↔ f.booked < -1440 ∨ 2879 < f.booked ∨ f.booked + shift < -1440 ∨
        2879 < f.booked + shift) ∧
      (∀ x, checkFields kind shift f = some x → x.booked = f.booked + shift ∧
        x.delay = max (-60) (min 720 f.delay) ∧ x.place = f.place ∧ x.coaches = min 24 f.coaches ∧
        x.points = f.points.take 16 ∧ x.forms = (if kind = .arr then f.forms else 0) ∧
        x.category ≤ 7 ∧ (f.category ≤ 7 → x.category = f.category) ∧
        x.operator ≤ 15 ∧ (f.operator ≤ 15 → x.operator = f.operator))))) ∧
    (∀ c : CallTable,
      (∀ i, c.freePlace = some i ↔ c.places.get i = .free ∧ ∀ j, j < i → c.places.get j ≠ .free) ∧
      (c.freePlace = none ↔ ∀ i, c.places.get i ≠ .free) ∧
      (∀ code kind, (∀ i r, c.find code kind = some (i, r) ↔ c.places.get i = .held r ∧ r.code = code ∧ r.kind = kind ∧
          ∀ j x, j < i → c.places.get j = .held x → ¬ (x.code = code ∧ x.kind = kind)) ∧
        (c.find code kind = none ↔ ∀ i r, c.places.get i = .held r → ¬ (r.code = code ∧ r.kind = kind))))

/-- A good CALL_SET for a live call at the same covered platform takes every field, keeps the state, and: with booked
time and delay as they were, or an expected time less than the requalify threshold from the qualified time, epoch and
qualified time stay; with the threshold reached the epoch increments and the record is qualified. For DEPARTED or
COMPLETE the frame is not applied and the ignored-frame count increments (R4, R9, R10, R14). A good CALL_DELAY for a
live call with another delay replaces the delay, clamped to −60..+720, and recomputes the expected time; below the
requalify threshold epoch and qualified time stay, at it the epoch increments and the record is qualified. The same
delay, or a key not held, changes nothing; an ended call counts as ignored (R4, R6, R11). -/
def Obligations.CallsUpdate : Prop :=
  (∀ (s : State) (env : Envelope) (f : CallSetFrame) (kind : CallKind) (shift : Int) (fields : CallFields) (m : Image)
      (i : Fin 96) (r : CallRec),
    s.TakesFrame env → f.key.kind ≤ 1 → s.checkKey f.key = some (kind, shift) → platformOk f.platform = true →
    checkFields kind shift f.fields = some fields → s.cfl.image = some m → s.ctb.find f.key.code kind = some (i, r) →
    (r.state.live = true → s.env.covers f.platform = true → f.platform = r.platform →
      ∃ t r', exec (.callSet env f) s = .next t ∧ t.ctb.places.get i = .held r' ∧
        { r' with fired := r.fired } =
          (if (fields.booked = r.booked ∧ fields.delay = r.delay) ∨
              ((expectedTime fields.booked fields.delay - r.qualified).natAbs < m.requalify)
            then r.take f.platform fields else (r.take f.platform fields).nextEpoch) ∧
        (∀ j, j ≠ i → t.ctb.places.get j = s.ctb.places.get j) ∧ t.sck = s.sck) ∧
    (r.state = .departed ∨ r.state = .complete → s.Quiet →
      exec (.callSet env f) s = .next (s.tookGood.onCtb fun c =>
        { c with counts := { c.counts with ignored := bump c.counts.ignored } }))) ∧
    (∀ (s : State) (env : Envelope) (f : CallDelayFrame) (kind : CallKind) (shift : Int) (m : Image),
    s.TakesFrame env → f.key.kind ≤ 1 → s.checkKey f.key = some (kind, shift) → s.cfl.image = some m →
    (s.ctb.find f.key.code kind = none → s.Quiet → exec (.callDelay env f) s = .next s.tookGood) ∧
    (∀ i r, s.ctb.find f.key.code kind = some (i, r) →
      (r.state.live = true → clampInt (-60) 720 f.delay ≠ r.delay →
        ∃ t r', exec (.callDelay env f) s = .next t ∧ t.ctb.places.get i = .held r' ∧
          { r' with fired := r.fired } =
            (if (expectedTime r.booked (clampInt (-60) 720 f.delay) - r.qualified).natAbs < m.requalify
              then { r with delay := clampInt (-60) 720 f.delay
                            expected := expectedTime r.booked (clampInt (-60) 720 f.delay) }
              else CallRec.nextEpoch { r with delay := clampInt (-60) 720 f.delay
                                              expected := expectedTime r.booked (clampInt (-60) 720 f.delay) }) ∧
          (∀ j, j ≠ i → t.ctb.places.get j = s.ctb.places.get j) ∧ t.sck = s.sck) ∧
      (r.state.live = true → clampInt (-60) 720 f.delay = r.delay → s.Quiet →
        exec (.callDelay env f) s = .next s.tookGood) ∧
      (r.state.live = false → s.Quiet → exec (.callDelay env f) s = .next (s.tookGood.onCtb fun c =>
        { c with counts := { c.counts with ignored := bump c.counts.ignored } }))))

/-- A good CALL_PLATFORM for a live call to another covered platform replaces the platform alone, returns the call to
BOOKED with no retire hold, increments the epoch and qualifies the record, a call that was BOOKED keeping its state-
entry instant (the model's choice, log entry 25); to an uncovered platform the place becomes free; to the same
platform the frame counts as ignored (R5, R12, R14). A good CALL_CANCEL for a live call sets CANCELLED with a retire
hold of 1800 s, increments the epoch and qualifies the record; for one already CANCELLED, or a key not held, nothing
changes and nothing is counted (R13, R14). A good CALL_PLATFORM for a CANCELLED call replaces its platform silently
where the new one is covered and another, counts as ignored where it is the record's own, and frees its place where it
is not covered; for a DEPARTED or COMPLETE call, and for a key not held at a covered platform without the call fields,
it counts as ignored; for a key not held at an uncovered platform it changes nothing (R12). A CALL_CANCEL for a
DEPARTED or COMPLETE call counts as ignored (R13). -/
def Obligations.CallMovesOrCancels : Prop :=
  ((∀ (s : State) (env : Envelope) (f : CallPlatformFrame) (kind : CallKind) (shift : Int) (i : Fin 96) (r : CallRec),
    s.TakesFrame env → f.key.kind ≤ 1 → s.checkKey f.key = some (kind, shift) → platformOk f.platform = true →
    (∀ x, f.complete = some x → (checkFields kind shift x).isSome = true) →
    s.ctb.find f.key.code kind = some (i, r) → r.state.live = true →
    (s.env.covers f.platform = true → f.platform ≠ r.platform →
      ∃ t r', exec (.callPlatform env f) s = .next t ∧ t.ctb.places.get i = .held r' ∧
        { r' with fired := r.fired } =
          (CallRec.enter { r with platform := f.platform } .booked s.env.now).nextEpoch ∧
        (∀ j, j ≠ i → t.ctb.places.get j = s.ctb.places.get j) ∧ t.sck = s.sck) ∧
    (s.env.covers f.platform = false →
      ∃ t, exec (.callPlatform env f) s = .next t ∧ t.ctb.places.get i = .free ∧
        (∀ j, j ≠ i → t.ctb.places.get j = s.ctb.places.get j) ∧ t.sck = s.sck) ∧
    (s.env.covers f.platform = true → f.platform = r.platform → s.Quiet →
      exec (.callPlatform env f) s = .next (s.tookGood.onCtb fun c =>
        { c with counts := { c.counts with ignored := bump c.counts.ignored } }))) ∧
    (∀ (s : State) (env : Envelope) (f : CallKeyFields) (kind : CallKind) (shift : Int),
    s.TakesFrame env → f.kind ≤ 1 → s.checkKey f = some (kind, shift) →
    (s.ctb.find f.code kind = none → s.Quiet → exec (.callCancel env f) s = .next s.tookGood) ∧
    (∀ i r, s.ctb.find f.code kind = some (i, r) →
      (r.state.live = true →
        ∃ t r', exec (.callCancel env f) s = .next t ∧ t.ctb.places.get i = .held r' ∧
          { r' with fired := r.fired } =
            { r with state := .cancelled, entered := s.env.now, hold := some 1800, epoch := r.epoch + 1,
                     qualified := r.expected } ∧
          (∀ j, j ≠ i → t.ctb.places.get j = s.ctb.places.get j) ∧ t.sck = s.sck) ∧
      (r.state = .cancelled → s.Quiet → exec (.callCancel env f) s = .next s.tookGood)))) ∧
    ((∀ (s : State) (env : Envelope) (f : CallPlatformFrame) (kind : CallKind) (shift : Int) (ignored : State),
      s.TakesFrame env → s.Quiet → f.key.kind ≤ 1 → s.checkKey f.key = some (kind, shift) →
      platformOk f.platform = true → (∀ x, f.complete = some x → (checkFields kind shift x).isSome = true) →
      ignored = (s.tookGood.onCtb fun c => { c with counts := { c.counts with ignored := bump c.counts.ignored } }) →
      (∀ i r, s.ctb.find f.key.code kind = some (i, r) →
        (r.state = .cancelled →
          (s.env.covers f.platform = true → f.platform ≠ r.platform → exec (.callPlatform env f) s =
            .next (s.tookGood.onCtb fun c =>
              { c with places := upd c.places i fun _ => .held { r with platform := f.platform } })) ∧
          (s.env.covers f.platform = true → f.platform = r.platform → exec (.callPlatform env f) s = .next ignored) ∧
          (s.env.covers f.platform = false → exec (.callPlatform env f) s =
            .next (s.tookGood.onCtb fun c => { c with places := upd c.places i fun _ => .free }))) ∧
        (r.state = .departed ∨ r.state = .complete → exec (.callPlatform env f) s = .next ignored)) ∧
      (s.ctb.find f.key.code kind = none →
        (s.env.covers f.platform = true → f.complete = none → exec (.callPlatform env f) s = .next ignored) ∧
        (s.env.covers f.platform = false → exec (.callPlatform env f) s = .next s.tookGood))) ∧
    (∀ (s : State) (env : Envelope) (f : CallKeyFields) (kind : CallKind) (shift : Int) (i : Fin 96) (r : CallRec),
      s.TakesFrame env → s.Quiet → f.kind ≤ 1 → s.checkKey f = some (kind, shift) →
      s.ctb.find f.code kind = some (i, r) → r.state = .departed ∨ r.state = .complete →
      exec (.callCancel env f) s = .next (s.tookGood.onCtb fun c =>
        { c with counts := { c.counts with ignored := bump c.counts.ignored } })))

/-- A good ANNOUNCE from another station for one owned zone, with the library version of this station, a segment list,
evacuation not active and the instants not passed, whose id is not held and for which a slot is free, is admitted: the
body stands in the lowest free slot with one reference, and the entry stands QUEUED in the zone's queue in the order
of R78, behind a head at least as urgent, and one ZONE_REPORT carries QUEUED for it to the origin's station (R72, R77,
R79, R115). A good ANNOUNCE that names an owned zone and whose library version differs, or whose class is SERVICE or
INFO while evacuation is active, leaves every zone and the body store as they were, and counts the announcement, and
its refusal once for each owned zone named; LIBRARY_MISMATCH is reported with the origin station's address as source
in the first case, and no fault in the second (R115, R124). The slot a body takes is the free general slot of lowest
number, and there is one exactly while a slot is free (R66). -/
def Obligations.AnnounceSettles : Prop :=
  ((∀ (s : State) (env : Envelope) (f : AnnounceFrame) (z : Nat) (o : Out) (h : Entry) (rest : List Entry) (i : Fin 32),
    s.TakesFrame env → env.src ≠ s.cfl.own → announceOk env.src f = true → f.libVersion = s.play.cfu.version →
    s.play.evl.active = false → s.env.windowClosed f = false → f.segs ≠ [] → zonesOf f.zones = [z] →
    s.env.outOfZone z = some o → (s.play.zone o).id = some z → (s.play.zone o).faulted = false →
    (s.play.zone o).survey = false → (s.play.zone o).queue = h :: rest → rest.length < 7 →
    (h :: rest).Pairwise (fun a b => classCode a.cls ≤ classCode b.cls) →
    classCode h.cls ≤ classCode (classTaken f.cls) → (∀ x ∈ h :: rest, x.id ≠ ⟨f.origin, f.seq⟩) →
    s.env.reached (instantOf f.expiryDay f.expiryTime) = false →
    (∀ j b, s.play.cmu.slots.get j = some b → b.id ≠ ⟨f.origin, f.seq⟩) → s.play.cmu.freeSlot = some i →
    ∃ t b, exec (.announce env f) s = .next t ∧
      (t.play.zone o).queue = insertEntry (h :: rest)
        { newEntry ⟨f.origin, f.seq⟩ (classTaken f.cls) (.remote env.src) (announceKey f) none (announceSync f)
            f.mustSync (some (instantOf f.expiryDay f.expiryTime)) z with order := (s.play.zone o).nextOrder } ∧
      t.play.cmu.slots.get i = some b ∧ b.id = ⟨f.origin, f.seq⟩ ∧ b.cls = classTaken f.cls ∧ b.refs = 1 ∧
      b.segs = ((f.segs.take 24).map takeSegment).map (checkSegment (classTaken f.cls)) ∧
      (∀ q, q ≠ o → t.play.zone q = s.play.zone q) ∧ s.SameTables t ∧
      (s.Quiet → s.play.net.lki.queue.length < 16 →
        hasReserved (classTaken f.cls) ((f.segs.take 24).map takeSegment) = false →
        t.play.net.lki.queue = insertFrame s.play.net.lki.queue ⟨if classTaken f.cls = .alert then 0 else 1, f.origin,
          .zoneReport ⟨f.origin, f.seq, [⟨z, 1, 0⟩]⟩⟩)) ∧
    (∀ (s : State) (env : Envelope) (f : AnnounceFrame), s.TakesFrame env → env.src ≠ s.cfl.own →
    announceOk env.src f = true → (zonesOf f.zones).filter (fun z => (s.env.outOfZone z).isSome) ≠ [] →
    (f.libVersion ≠ s.play.cfu.version →
      ∃ t, exec (.announce env f) s = .next t ∧ t.play.zpc = s.play.zpc ∧ t.play.cmu = s.play.cmu ∧
        t.play.net.pau.counts.announceReceived = bump s.play.net.pau.counts.announceReceived ∧
        t.play.net.pau.counts.libraryMismatch =
          bumpBy ((zonesOf f.zones).filter fun z => (s.env.outOfZone z).isSome).length
            s.play.net.pau.counts.libraryMismatch ∧
        t.play.net.flt = (Net.report s.env .libraryMismatch f.origin s.play.net).flt ∧ s.SameTables t) ∧
    (f.libVersion = s.play.cfu.version → s.play.evl.active = true → 2 ≤ f.cls →
      ∃ t, exec (.announce env f) s = .next t ∧ t.play.zpc = s.play.zpc ∧ t.play.cmu = s.play.cmu ∧
        t.play.net.pau.counts.announceReceived = bump s.play.net.pau.counts.announceReceived ∧
        t.play.net.pau.counts.evacActive =
          bumpBy ((zonesOf f.zones).filter fun z => (s.env.outOfZone z).isSome).length
            s.play.net.pau.counts.evacActive ∧ t.play.net.flt = s.play.net.flt ∧ s.SameTables t))) ∧
    (∀ c : Composition,
      (∀ i, c.freeSlot = some i ↔ c.slots.get i = none ∧ ∀ j, j < i → c.slots.get j ≠ none) ∧
      (c.freeSlot = none ↔ ∀ i, c.slots.get i ≠ none))

/-- A good WITHDRAW from another station that selects no entry is counted; addressed singly it is answered with a
WITHDRAW_DONE of count 0 carrying the requested and the performed granularity, SERVICE with a blank code being
performed as NONE; broadcast it is not answered (R119, R120). A good WITHDRAW_DONE addressed to this station that
answers an ANNOUNCEMENT withdrawal of one of its ids adds one to the withdraw-answer count and the carried count to
the withdrawn-item total; any other is not acted on (R121). Settled in one zone where it selects sounding entries
alone, a withdrawal puts each in STOPPING with WITHDRAWN, a drop reason already held being kept, and takes none out;
where it selects one QUEUED entry that no request or channel serves, that entry leaves the queue, the WITHDRAWN count
increments and the other entries stand as they were (R87, R93, R94). A good WITHDRAW from another station that selects
QUEUED entries without a request and sounding entries takes the QUEUED ones out of their queues and puts the sounding
ones in STOPPING with WITHDRAWN, a drop reason already held being kept; the other entries stand. The WITHDRAWN count
rises by the number taken out, the ZONE_REPORTs of the REMOTE ones among them are queued, one for each announcement
(their zones in ascending output number: the model's choice, log entry 60), and then the WITHDRAW_DONE with the number
of entries taken out or newly given the reason (one that holds a drop reason already is not counted: deduced, log
entry 32), unless the frame was broadcast and that number is 0 (R87, R93, R94, R117, R119, R120). -/
def Obligations.WithdrawalsSettle : Prop :=
  (((∀ (s : State) (env : Envelope) (f : WithdrawFrame), s.TakesFrame env → s.Quiet → env.src ≠ s.cfl.own →
    withdrawOk f = true → s.play.net.lki.queue.length < 16 →
    (∀ o, ∀ en ∈ (s.play.zone o).queue, withdrawSelects f (s.play.zone o).id en = false) →
    ∃ t, exec (.withdraw env f) s = .next t ∧ t.play.zpc = s.play.zpc ∧ s.SameTables t ∧
      t.play.net.pau.counts.withdrawReceived = bump s.play.net.pau.counts.withdrawReceived ∧
      t.play.net.lki.queue = (if env.dst = 31 then s.play.net.lki.queue else
        insertFrame s.play.net.lki.queue ⟨1, env.src, .withdrawDone ⟨f.granularity,
          (if f.granularity = 2 ∧ f.code = 0 then 0 else f.granularity), f.origin, f.seq, f.code, f.zones, f.threshold,
          0⟩⟩)) ∧
    (∀ (s : State) (env : Envelope) (f : WithdrawDoneFrame), s.TakesFrame env → s.Quiet →
    (env.dst = s.cfl.own ∧ f.requested = 1 ∧ f.origin = s.cfl.own →
      ∃ t, exec (.withdrawDone env f) s = .next t ∧ t.play.net.pau = { s.play.net.pau with counts :=
        { s.play.net.pau.counts with withdrawAnswer := bump s.play.net.pau.counts.withdrawAnswer
                                     withdrawnItems := bumpBy f.removed s.play.net.pau.counts.withdrawnItems } } ∧
        t.play.zpc = s.play.zpc ∧ s.SameTables t) ∧
    (¬ (env.dst = s.cfl.own ∧ f.requested = 1 ∧ f.origin = s.cfl.own) →
      exec (.withdrawDone env f) s = .next s.tookGood))) ∧
    (∀ (e : Env) (p : Play) (o : Out) (sel : Entry → Bool),
    ((∀ en ∈ (p.zone o).queue, sel en = true → en.sounding = true) →
      ((p.removeIn e sel .withdrawn true o).zone o).queue = (p.zone o).queue.map (fun en =>
        if sel en = true then en.addCause (StopCause.giveDrop .withdrawn) else en)) ∧
    (∀ en, (p.zone o).queue.filter sel = [en] → en.state = .queued → p.hasRequest o (.body en.id) = false →
      (∀ x ∈ (p.zone o).queue, x.id = en.id → x = en) →
      ((p.removeIn e sel .withdrawn true o).zone o).queue = (p.zone o).queue.filter (fun x => x.id ≠ en.id) ∧
      (p.removeIn e sel .withdrawn true o).zpc.counts.withdrawn = bump p.zpc.counts.withdrawn))) ∧
    (∀ (s : State) (env : Envelope) (f : WithdrawFrame) (sel : Out → Entry → Bool) (count gone : Nat)
        (told : List ReportedOutcome), s.TakesFrame env → s.Quiet → env.src ≠ s.cfl.own → withdrawOk f = true →
      (∀ o en, sel o en = withdrawSelects f (s.play.zone o).id en) →
      (∀ o, ((s.play.zone o).queue.map (·.id)).Nodup) →
      (∀ o, ∀ en ∈ (s.play.zone o).queue, sel o en = true →
        en.sounding = true ∨ en.state = .queued ∧ s.play.hasRequest o (.body en.id) = false) →
      count = (allOuts.map fun o => ((s.play.zone o).queue.filter fun en => sel o en && !en.dropHeld).length).sum →
      gone = (allOuts.map fun o => ((s.play.zone o).queue.filter fun en => sel o en && en.state = .queued).length).sum →
      told = allOuts.flatMap (fun o => ((s.play.zone o).queue.filter fun en =>
        sel o en && en.state = .queued && (match en.origin with | .remote _ => true | _ => false)).map
          fun en => ⟨en.id, en.cls, en.reported, .dropped 1⟩) →
      s.play.net.lki.queue.length + told.length < 16 → s.play.zpc.counts.withdrawn ≤ 65535 →
      ∃ t, exec (.withdraw env f) s = .next t ∧ s.SameTables t ∧
        (∀ o, (t.play.zone o).queue =
          ((s.play.zone o).queue.filter fun en => !(sel o en && en.state = .queued)).map fun en =>
            if sel o en = true then en.addCause (StopCause.giveDrop .withdrawn) else en) ∧
        (∀ o, { t.play.zone o with queue := [] } = { s.play.zone o with queue := [] }) ∧
        t.play.zpc.counts = { s.play.zpc.counts with withdrawn := bumpBy gone s.play.zpc.counts.withdrawn } ∧
        t.play.net.pau.counts.withdrawReceived = bump s.play.net.pau.counts.withdrawReceived ∧
        t.play.net.lki.queue = (if env.dst = 31 ∧ count = 0 then s.play.net.lki.queue else
          insertFrame (Net.reportAll s.env told s.play.net).lki.queue ⟨1, env.src, .withdrawDone ⟨f.granularity,
            (if f.granularity = 2 ∧ f.code = 0 then 0 else f.granularity), f.origin, f.seq, f.code, f.zones,
            f.threshold, count⟩⟩))

/-- A query addressed in RUNNING to this station, with arguments in range, is counted as a good frame, changes nothing
it reads, and queues one MAINT_REPLY at urgency 2 to its source with its tag and the content asked for: the call
record of an index or of a key, the view of an output, up to 14 fault records from an index, the survey view, or the
counts of a block (R104, R169, R197, R198). The reply is counted after its content is taken. CLEAR_FAULT of an index
makes that record invalid, and ALL makes every record invalid and clears the overflow flag and the lost count (R195).
LIMIT_SET replaces the limits of an output with an owned zone and clears its validation counters; under the lock it is
refused LOCKED with nothing changed. LIMIT_LOCK sets the lock (R161). Each is answered, and nothing else changes
(R197). -/
def Obligations.QueriesAndSettingsAnswered : Prop :=
  (∀ (s : State) (h : MaintHead), s.TakesRequest h →
    (∀ i : Fin 96, exec (.queryCall h [0, BitVec.ofNat 8 i.val]) s = .next (s.tookGood.replied h 0x01 none
      (.call (match s.ctb.places.get i with | .held r => some (i.val, r) | _ => none)))) ∧
    (∀ (c : Code) (k : CallKind),
      exec (.queryCall h (asBytes (1 :: codeBytes c ++ [if k = .arr then 0 else 1]))) s =
        .next (s.tookGood.replied h 0x01 none (.call ((s.ctb.find c k).map fun x => (x.1.val, x.2))))) ∧
    (∀ o : Out, exec (.queryZone h [BitVec.ofNat 8 o.val]) s =
      .next (s.tookGood.replied h 0x02 none (.zone (s.zoneView o)))) ∧
    (∀ i : Nat, i ≤ 15 → exec (.queryFault h [BitVec.ofNat 8 i]) s =
      .next (s.tookGood.replied h 0x03 none (.fault (s.faultView i)))) ∧
    (∀ o : Out, exec (.querySurvey h [BitVec.ofNat 8 o.val]) s =
      .next (s.tookGood.replied h 0x04 none (.survey (s.surveyView o)))) ∧
    (∀ b : Nat, b ≤ 10 → ∃ v, s.tookGood.countersView b = some v ∧
      exec (.queryCounters h [BitVec.ofNat 8 b]) s = .next (s.tookGood.replied h 0x05 none (.counters v)))) ∧
    (∀ (s : State) (h : MaintHead), s.TakesRequest h →
    (∀ i : Fin 16, exec (.clearFault h [BitVec.ofNat 8 i.val]) s = .next ((s.tookGood.onFlt fun f =>
      { f with records := upd f.records i fun _ => none }).replied h 0x10 none .none)) ∧
    exec (.clearFault h [255#8]) s = .next ((s.tookGood.onFlt fun f =>
      { f with records := Vector.replicate 16 none, overflow := false, lost := 0 }).replied h 0x10 none .none) ∧
    exec (.limitLock h []) s = .next ((s.tookGood.onPlay fun _ p =>
      { p with lsu := { p.lsu with lock := true } }).replied h 0x31 none .none) ∧
    (∀ (o : Out) (lim : Limits), lim.zlow < lim.zhigh → lim.zhigh ≤ 1023 → lim.lmax ≤ 255 →
      (s.play.zone o).id.isSome = true →
      exec (.limitSet h (asBytes (be1 o.val ++ be2 lim.zlow ++ be2 lim.zhigh ++ be2 lim.lmax))) s =
        (if s.play.lsu.lock = true then .next (s.tookGood.replied h 0x30 (some .locked) .none)
        else .next ((s.tookGood.onPlay fun _ p => p.onLine o fun l =>
          { l with limits := lim, candidate := none, run := 0 }).replied h 0x30 none .none))))

/-- A request's template is fitted to 24 segments and its phrase ids checked, a cut counted, an overflow
(TEMPLATE_OVERFLOW, the template as source) and a reserved phrase (RESERVED_PHRASE, the own address) reported. With no
segment left the empty count increments, with no slot free and none to displace the no-body count, and nothing else
happens. Otherwise the body takes the lowest free slot, the newest, with the own address, the next sequence that no
held body and no origination carries, and the request's class, key and epoch; the composed count increments and the
next sequence moves on, 2047 wrapping to 1. It is offered to its owned zones in ascending zone id, then the others are
handed to be originated, and then it is freed where no entry refers to it (R63 to R68). An owned zone behind a head at
least as urgent takes its entry and the body stands with one reference; with no owned zone the slot is free again. The
body displaced for a class is of a less urgent class with all its entries QUEUED, of all such bodies in the allocation
order it is of the least urgent class and of those the newest, and none when none is eligible. With no slot free, its
entries leave their queues DISPLACED, each counted, the displaced count increments, and its slot is obtained (R70). A
foreign zone is NO_OWNER without an owner heard within 3 s, DROPPED EVAC_ACTIVE for SERVICE and INFO where the owner
reports evacuation, and PENDING with its owner otherwise. Zones settled at once are counted (deduced, log entry 27).
With none PENDING nothing else happens; with one PENDING and 16 entries held ORIGINATION_FULL is reported with the own
address and counts the PENDING; otherwise the entry holds every zone with its outcome, and one ANNOUNCE for the
PENDING zones is queued and counted, to their one owner or to all stations, urgency 0 for ALERT and 1 otherwise, with
the request's id, class, key, instants, segments and the library version, absent fields 0 (the model's choice, log
entry 71; R109, R110). -/
def Obligations.CompositionSettles : Prop :=
  (((∀ (e : Env) (r : Request) (p : Play) (x : Expansion) (n : Net),
      x = fitTemplate e.bases e.dayStart r.snap
        (match e.image with | some m => m.templates[r.template]?.getD [] | none => []) →
      n = (if x.overflow then Net.report e .templateOverflow r.template p.net else p.net) →
      (p.expandRequest e r).1 = x.segs.map (checkSegment r.cls) ∧
      (p.expandRequest e r).2 = { p with
        cmu := { p.cmu with counts := { p.cmu.counts with
          truncated := if x.cut then bump p.cmu.counts.truncated else p.cmu.counts.truncated } }
        net := if hasReserved r.cls x.segs then Net.report e .reservedPhrase e.own n else n }) ∧
    (∀ (e : Env) (p : Play), 1 ≤ p.cmu.nextSeq → p.cmu.nextSeq ≤ 2047 → p.net.pau.table.length ≤ 16 →
      ∃ k, k < 2047 ∧ p.nextSequence e = (p.cmu.nextSeq - 1 + k) % 2047 + 1 ∧
        ¬ ((∃ j b, p.cmu.slots.get j = some b ∧ b.id = ⟨e.own, p.nextSequence e⟩) ∨ ∃ x ∈ p.net.pau.table, x.id = ⟨e.own, p.nextSequence e⟩) ∧
        ∀ j, j < k → ((∃ j b, p.cmu.slots.get j = some b ∧ b.id = ⟨e.own, (p.cmu.nextSeq - 1 + j) % 2047 + 1⟩) ∨ ∃ x ∈ p.net.pau.table, x.id = ⟨e.own, (p.cmu.nextSeq - 1 + j) % 2047 + 1⟩)) ∧
    (∀ (e : Env) (r : Request) (p q : Play) (segs : List Segment), p.expandRequest e r = (segs, q) →
      (segs = [] → p.compose e r = { q with cmu := { q.cmu with counts :=
        { q.cmu.counts with empty := bump q.cmu.counts.empty } } }) ∧
      (segs ≠ [] → q.cmu.freeSlot = none → q.displacementVictim r.cls = none →
        p.compose e r = { q with cmu := { q.cmu with counts :=
          { q.cmu.counts with noBody := bump q.cmu.counts.noBody } } }) ∧
      (segs ≠ [] → ∀ (i : Fin 32) (seq : Nat) (entry : Nat → Entry) (got held offered : Play) (others : List Nat),
        q.cmu.freeSlot = some i ∧ got = q ∨ q.cmu.freeSlot = none ∧ q.obtainSlot e r.cls = (some i, got) →
        seq = got.nextSequence e →
        held = { got with cmu := { got.cmu with
          slots := upd got.cmu.slots i fun _ =>
            some ⟨⟨e.own, seq⟩, r.cls, .own, some ⟨r.snap.code, some r.snap.kind⟩, some r.snap.epoch, segs, 0⟩
          order := got.cmu.order ++ [i], inHand := some ⟨e.own, seq⟩, nextSeq := if seq = 2047 then 1 else seq + 1
          counts := { got.cmu.counts with composed := bump got.cmu.counts.composed } } } →
        (∀ z, entry z = newEntry ⟨e.own, seq⟩ r.cls .own (some ⟨r.snap.code, some r.snap.kind⟩) (some r.snap.epoch)
          (if r.sync then some (instantOf r.issued.day (r.issued.time + 1500)) else none) false
          (some (instantOf r.issued.day (r.issued.time + r.expiryMs))) z) →
        offered = (((List.range 64).filter fun z => r.zones.getLsbD z).filterMap fun z =>
          (e.outOfZone z).map fun o => (z, o)).foldl (fun p x => p.offer e x.2 (entry x.1)) held →
        others = (List.range 64).filter (fun z => r.zones.getLsbD z && (e.outOfZone z).isNone) →
        seq ≤ 2047 →
        p.compose e r = (if others = [] then offered else offered.onNet (Net.originate e offered.cfu.version
          ⟨⟨e.own, seq⟩, r.cls, some ⟨r.snap.code, some r.snap.kind⟩, some r.snap.epoch, r.issued.day,
            r.issued.time + r.expiryMs, if r.sync then some (r.issued.time + 1500) else none, segs,
            others⟩)).onCmu Composition.release ∧
        (∀ (z : Nat) (o : Out) (h : Entry) (rest : List Entry), r.cls ≠ .evac →
          (∀ k, k < 64 → (r.zones.getLsbD k = true ↔ k = z)) → z < 64 → e.outOfZone z = some o →
          (got.zone o).id.isSome = true → (got.zone o).faulted = false → (got.zone o).survey = false →
          (got.zone o).queue = h :: rest → rest.length < 7 →
          (h :: rest).Pairwise (fun a b => classCode a.cls ≤ classCode b.cls) → classCode h.cls ≤ classCode r.cls →
          (∀ x ∈ h :: rest, x.id ≠ ⟨e.own, seq⟩) → (∀ j b, got.cmu.slots.get j = some b → b.id ≠ ⟨e.own, seq⟩) →
          e.reached (instantOf r.issued.day (r.issued.time + r.expiryMs)) = false →
          ((p.compose e r).zone o).queue = insertEntry (h :: rest) { entry z with order := (got.zone o).nextOrder } ∧
          (∀ k, k ≠ o → (p.compose e r).zone k = got.zone k) ∧ (p.compose e r).net = got.net ∧
          (p.compose e r).cmu.slots.get i =
            some ⟨⟨e.own, seq⟩, r.cls, .own, some ⟨r.snap.code, some r.snap.kind⟩, some r.snap.epoch, segs, 1⟩) ∧
        ((∀ z, z < 64 → r.zones.getLsbD z = true → e.outOfZone z = none) →
          (p.compose e r).cmu.slots.get i = none ∧ (p.compose e r).zpc = got.zpc ∧
          (p.compose e r).cmu.counts.composed = bump got.cmu.counts.composed)))) ∧
    ((∀ (p : Play) (cls : AnnClass) (eligible : Body → Prop),
      (∀ b, eligible b ↔ classCode cls < classCode b.cls ∧
        ∀ o, ∀ en ∈ (p.zone o).queue, en.id = b.id → en.state = .queued) →
      (p.displacementVictim cls = none ↔ ∀ i ∈ p.cmu.order, ∀ b, p.cmu.slots.get i = some b → ¬ eligible b) ∧
      (∀ v, p.displacementVictim cls = some v → eligible v ∧ ∃ before i after, p.cmu.order = before ++ i :: after ∧
        p.cmu.slots.get i = some v ∧
        (∀ j ∈ before, ∀ b, p.cmu.slots.get j = some b → eligible b → classCode b.cls ≤ classCode v.cls) ∧
        (∀ j ∈ after, ∀ b, p.cmu.slots.get j = some b → eligible b → classCode b.cls < classCode v.cls))) ∧
    (∀ (s : State) (cls : AnnClass) (v : Body) (i : Fin 32), s.RefsCounted → s.play.cmu.freeSlot = none →
      s.play.displacementVictim cls = some v → s.play.cmu.slots.get i = some v → v.refs ≠ 0 →
      s.play.zpc.counts.displaced ≤ 65535 →
      (s.play.obtainSlot s.env cls).1 = some i ∧
      (s.play.obtainSlot s.env cls).2.cmu.slots.get i = none ∧
      (∀ j, j ≠ i → (s.play.obtainSlot s.env cls).2.cmu.slots.get j = s.play.cmu.slots.get j) ∧
      (s.play.obtainSlot s.env cls).2.cmu.counts.displaced = bump s.play.cmu.counts.displaced ∧
      (s.play.obtainSlot s.env cls).2.zpc.counts = { s.play.zpc.counts with
        displaced := bumpBy v.refs s.play.zpc.counts.displaced } ∧
      ∀ o, ((s.play.obtainSlot s.env cls).2.zone o).queue = (s.play.zone o).queue.filter fun en => en.id ≠ v.id))) ∧
    ((∀ (q : Peers) (elapsed z : Nat) (cls : AnnClass) (h : z < 64),
      ((∀ o, q.owners.get ⟨z, h⟩ = some o → o.heard + 3000 ≤ elapsed) →
        q.settleZone elapsed cls z = ⟨z, none, .noOwner⟩) ∧
      (∀ o, q.owners.get ⟨z, h⟩ = some o → elapsed < o.heard + 3000 → q.settleZone elapsed cls z =
        ⟨z, some o.owner, if o.evac = true ∧ (cls = .service ∨ cls = .info) then .dropped 11 else .pending⟩)) ∧
    (∀ (e : Env) (version : Nat) (r : SendRequest) (n : Net) (zones pending : List OrigZone) (counts : PauCounts),
      zones = r.zones.map (fun z => n.pau.settleZone e.elapsed r.cls z) →
      pending = zones.filter (fun z => z.outcome = .pending) →
      n.pau.counts.noOwner ≤ 65535 → n.pau.counts.dropped ≤ 65535 →
      counts = { n.pau.counts with
        noOwner := bumpBy (zones.filter fun z => z.outcome = .noOwner).length n.pau.counts.noOwner
        dropped := bumpBy (zones.filter fun z => z.outcome = .dropped 11).length n.pau.counts.dropped } →
      (pending = [] → Net.originate e version r n = { n with pau := { n.pau with counts := counts } }) ∧
      (pending ≠ [] → 16 ≤ n.pau.table.length → Net.originate e version r n = Net.report e .originationFull e.own
        { n with pau := { n.pau with counts :=
          { counts with originationFull := bumpBy pending.length counts.originationFull } } }) ∧
      (pending ≠ [] → n.pau.table.length < 16 → ∀ (a : AnnounceFrame) (dst : Nat),
        ((∀ x, (∀ z ∈ pending, z.owner = some x) → dst = x) ∧
          ((∃ y ∈ pending, ∃ z ∈ pending, y.owner ≠ z.owner) → dst = 31)) →
        (∀ k, k < 64 → (a.zones.getLsbD k = true ↔ ∃ z ∈ pending, z.zone = k)) →
        a.origin = r.id.origin → a.seq = r.id.seq → a.cls = classCode r.cls → a.libVersion = version →
        a.codePresent = r.key.isSome → (∀ k, r.key = some k → a.code = k.code) → (r.key = none → a.code = 0) →
        a.syncPresent = r.syncTime.isSome → a.mustSync = false → a.expiryDay = r.day → a.expiryTime = r.expiryTime →
        (∀ x, r.syncTime = some x → a.syncDay = r.day ∧ a.syncTime = x) →
        (r.syncTime = none → a.syncDay = 0 ∧ a.syncTime = 0) → a.segs = r.segs.map Segment.raw →
        Net.originate e version r n = Net.enqueue e ⟨if r.cls = .alert then 0 else 1, dst, .announce a⟩
          { n with pau := { n.pau with
            table := n.pau.table ++ [⟨r.id, r.key, r.epoch, instantOf r.day r.expiryTime, zones, none, false⟩]
            counts := { counts with announceSent := bump counts.announceSent } } })))

/-- SURVEY_START on an owned, IDLE zone with an empty queue and evacuation released puts the zone in SURVEY and the
survey in BASELINE with an ended retry, and counts the start; where a start is not allowed it is refused BUSY and
counted (R163). SURVEY_ABORT with no survey running is accepted and changes nothing; with a survey in BASELINE or TAIL
and an empty queue it makes the record ABORTED with MAINT_ABORT and releases the zone (R168). Sixty seconds after the
previous attempt a pending retry ends REFUSED outside quiet hours, with no levels in the record and its starter absent
(the model's choice, log entry 50); in quiet hours it is attempted, and stays pending from now when the zone may not
start (R163). A probe whose channel has not started 10 s after it was asked for aborts the survey with NO_CHANNEL and
releases the zone (R168). Before its time neither row changes anything (the model's guard, log entry 2). -/
def Obligations.SurveyCommandsSettle : Prop :=
  (∀ (s : State) (h : MaintHead) (o : Out), s.TakesRequest h → (s.play.zone o).id.isSome = true →
    ((s.play.zone o).state = .idle → (s.play.zone o).queue = [] → s.play.evl.active = false →
      ∃ t, exec (.surveyStart h [BitVec.ofNat 8 o.val]) s = .next t ∧ (t.play.zone o).survey = true ∧
        (t.play.surveyAt o).phase = .baseline ∧ (t.play.surveyAt o).retryAt = none ∧
        t.play.vsu.counts = { s.play.vsu.counts with started := bump s.play.vsu.counts.started } ∧
        (∀ q, q ≠ o → t.play.zone q = s.play.zone q ∧ t.play.surveyAt q = s.play.surveyAt q) ∧
        t.play.net = (s.tookGood.replied h 0x20 none .none).play.net ∧ t.play.cmu = s.play.cmu ∧
        t.play.cfu = s.play.cfu ∧ t.play.lvc = s.play.lvc ∧ t.play.lsu = s.play.lsu ∧ t.play.evl = s.play.evl ∧
        s.SameTables t) ∧
    ((s.play.zone o).state ≠ .idle ∨ (s.play.zone o).queue ≠ [] ∨ s.play.evl.active = true →
      exec (.surveyStart h [BitVec.ofNat 8 o.val]) s = .next ((s.tookGood.onPlay fun _ p =>
        { p with vsu := { p.vsu with counts :=
          { p.vsu.counts with refusedStart := bump p.vsu.counts.refusedStart } } }).replied h 0x20 (some .busy) .none)) ∧
    ((s.play.surveyAt o).work = none →
      exec (.surveyAbort h [BitVec.ofNat 8 o.val]) s = .next (s.tookGood.replied h 0x21 none .none)) ∧
    (∀ w, (s.play.surveyAt o).work = some w → w.abort = none →
      (s.play.surveyAt o).phase = .baseline ∨ (s.play.surveyAt o).phase = .tail → (s.play.zone o).queue = [] →
      ∃ t, exec (.surveyAbort h [BitVec.ofNat 8 o.val]) s = .next t ∧
        t.play.surveyAt o = { s.play.surveyAt o with
          phase := .none, work := none
          record := ⟨.aborted, some .maintAbort, some w.begun, some w.starter, w.nb, w.probes, none, none⟩ } ∧
        t.play.zone o = { s.play.zone o with survey := false } ∧ (t.play.levelAt o).discard = true ∧
        t.play.vsu.counts = { s.play.vsu.counts with aborted := bump s.play.vsu.counts.aborted } ∧
        (∀ q, q ≠ o → t.play.zone q = s.play.zone q ∧ t.play.surveyAt q = s.play.surveyAt q) ∧ s.SameTables t)) ∧
    (∀ (s : State) (o : Out), s.Quiet →
    (∀ x, (s.play.surveyAt o).retryAt = some x →
      (s.elapsed < x + 60000 → exec (.autoSurveyRetry o) s = .next s) ∧
      (x + 60000 ≤ s.elapsed → s.sck.quiet = false → exec (.autoSurveyRetry o) s = .next (s.onPlay fun _ p =>
        (p.onSurvey o fun v => { v with retryAt := none, record := { SurveyRecord.never with outcome := .refused } }).onSurveyCounts
          fun c => { c with refusedAuto := bump c.refusedAuto })) ∧
      (x + 60000 ≤ s.elapsed → s.sck.quiet = true → s.play.surveyAllowed s.env o = false →
        exec (.autoSurveyRetry o) s = .next (s.onPlay fun e p =>
          p.onSurvey o fun v => { v with retryAt := some e.elapsed })) ∧
      (x + 60000 ≤ s.elapsed → s.sck.quiet = true → s.play.surveyAllowed s.env o = true →
        ∃ t, exec (.autoSurveyRetry o) s = .next t ∧ (t.play.zone o).survey = true ∧
          (t.play.surveyAt o).phase = .baseline ∧ (t.play.surveyAt o).retryAt = none ∧
          t.play.vsu.counts.started = bump s.play.vsu.counts.started ∧ s.SameTables t)) ∧
    (∀ w, (s.play.surveyAt o).work = some w → (s.play.surveyAt o).phase = .probe → w.probeStart = none →
      w.abort = none →
      (s.elapsed < w.asked + 10000 → exec (.probeChannelTimeout o) s = .next s) ∧
      (w.asked + 10000 ≤ s.elapsed → (s.play.zone o).queue = [] →
        ∃ t, exec (.probeChannelTimeout o) s = .next t ∧ (t.play.zone o).survey = false ∧
          (t.play.zone o).queue = [] ∧
          t.play.surveyAt o = { s.play.surveyAt o with
            phase := .none, work := none
            record := ⟨.aborted, some .noChannel, some w.begun, some w.starter, w.nb, w.probes, none, none⟩ } ∧
          t.play.vsu.counts = { s.play.vsu.counts with aborted := bump s.play.vsu.counts.aborted } ∧
          t.play.cmu = s.play.cmu ∧ t.play.lsu = s.play.lsu ∧ t.play.net = s.play.net ∧ s.SameTables t)))

/-- With evacuation released and no soft restart in progress, RESTART frees every call place, clears the trigger
counters and the origination table, empties the transmit queue but for its own reply, counts the restart, keeps the
image, the own address, the clock, the berth inputs, the counts of the Clip Fetch Unit and its last granted channel,
and leaves in the zones only sounding entries, each to stop for the restart (R3, R40, R55, R103, R122, R191). With a
soft restart in progress it is refused BUSY with nothing else changed (R197). With evacuation active RESTART clears
and keeps the same (but the counts and the last granted channel of the Clip Fetch Unit once it re-offers), and
evacuation stays active. Where something sounds, only sounding entries are left, each to stop for the restart, and
nothing is offered yet (when the re-offers come: deduced, log entry 44). Where nothing sounds, with the references
counted, the slot holds a body of id (own address, 0), which is the id in use, every owned zone that is not FAULTED
holds one entry, and every entry is EVAC of that id; with no zone FAULTED or in SURVEY each of these is STARTING and
the other outputs hold nothing. The stop of the last entry that stops for the restart makes the re-offers in the same
way (R103, R174, R191). A STOPPING entry that holds a drop reason when the restart comes keeps it (the model's choice,
log entry 70). -/
def Obligations.RestartClears : Prop :=
  (∀ (s : State) (h : MaintHead), s.TakesRequest h →
    (s.play.restartInProgress = false → s.play.evl.active = false →
      ∃ t, exec (.restart h []) s = .next t ∧ (∀ i, t.ctb.places.get i = .free) ∧ s.ctb.SameInputs t.ctb ∧
        t.ctb.counts = s.ctb.counts ∧ t.tgu = Triggers.reset ∧
        t.cfl = { s.cfl with restarts := bump s.cfl.restarts } ∧ t.sck = s.sck ∧ t.elapsed = s.elapsed ∧
        t.pending = s.pending ∧ t.play.net.pau.table = [] ∧ t.play.net.pau.owners = s.play.net.pau.owners ∧
        t.play.cfu.counts = s.play.cfu.counts ∧ t.play.cfu.lastGranted = s.play.cfu.lastGranted ∧
        t.play.net.lki.queue = [⟨2, h.env.src, .maintReply 0x40 h.tag none .none⟩] ∧
        (∀ (o : Out), ∀ en ∈ (t.play.zone o).queue, en.restarting = true)) ∧
    (s.play.restartInProgress = true →
      exec (.restart h []) s = .next (s.tookGood.replied h 0x40 (some .busy) .none))) ∧
    ((∀ (s : State) (h : MaintHead) (sounds : Bool), s.TakesRequest h → s.play.restartInProgress = false →
      s.play.evl.active = true → sounds = allOuts.any (fun o => (s.play.zone o).queue.any Entry.sounding) →
      ∃ t, exec (.restart h []) s = .next t ∧ (∀ i, t.ctb.places.get i = .free) ∧ s.ctb.SameInputs t.ctb ∧
        t.ctb.counts = s.ctb.counts ∧ t.tgu = Triggers.reset ∧
        t.cfl = { s.cfl with restarts := bump s.cfl.restarts } ∧ t.sck = s.sck ∧ t.elapsed = s.elapsed ∧
        t.pending = s.pending ∧ t.play.net.pau.table = [] ∧ t.play.net.pau.owners = s.play.net.pau.owners ∧
        t.play.net.lki.queue = [⟨2, h.env.src, .maintReply 0x40 h.tag none .none⟩] ∧ t.play.evl.active = true ∧
        (sounds = true → t.play.cfu.counts = s.play.cfu.counts ∧ t.play.cfu.lastGranted = s.play.cfu.lastGranted ∧
          ∀ o : Out, ∀ en ∈ (t.play.zone o).queue, en.restarting = true) ∧
        (sounds = false → s.RefsCounted → ∃ b, t.play.cmu.evacSlot = some b ∧ b.id = ⟨s.cfl.own, 0⟩ ∧
          t.play.evl.idInUse = some b.id ∧
          (∀ o : Out, ∀ en ∈ (t.play.zone o).queue, en.cls = .evac ∧ en.id = b.id) ∧
          (∀ o : Out, (s.play.zone o).id.isSome = true → (s.play.zone o).faulted = false →
            (t.play.zone o).queue.length = 1) ∧
          ((∀ o : Out, (s.play.zone o).faulted = false ∧ (s.play.zone o).survey = false) →
            (∀ o : Out, ∀ en ∈ (t.play.zone o).queue, en.state = .starting) ∧
            ∀ o : Out, (s.play.zone o).id = none → (t.play.zone o).queue = []))) ∧
    (∀ (s : State) (ch : Chan) (o : Out) (en : Entry) (c : StopCause), s.cfl.load = .running → s.play.evl.active = true →
      s.play.cmu.evacSlot = none ∨ s.play.evl.idInUse.isSome = true → (s.play.zone o).queue = [en] →
      (∀ q, q ≠ o → (s.play.zone q).queue = []) → en.state = .stopping c → c.restart = true → c.drop.isSome = true →
      o ∈ s.play.stopDue s.env ch →
      ∃ t id, exec (.stopPointReached ch) s = .next t ∧ t.play.evl.idInUse = some id ∧
        (∀ q : Out, ∀ x ∈ (t.play.zone q).queue, x.cls = .evac ∧ x.id = id) ∧
        ∀ q : Out, (s.play.zone q).id.isSome = true → (s.play.zone q).faulted = false →
          (t.play.zone q).queue.length = 1))

/-- A request code that the table does not hold is refused UNKNOWN; a request whose arguments have the wrong length or
lie outside their range is refused RANGE, among them a QUERY_CALL with an index above 95, a mode above 1 or a kind
above 1 (the kind is the model's choice, log entry 28), a LIMIT_SET with values out of range or for an output without
an owned zone, and a SURVEY_START for such an output; a LIMIT_SET under the lock is refused LOCKED whatever its
values. A refusal changes nothing but the counts and its reply. Every request addressed to all stations is passed over
(R161, R163, R197, R198). -/
def Obligations.RequestsRefused : Prop :=
  ∀ (s : State) (h : MaintHead),
    (s.TakesRequest h →
      (∀ (code : Nat) (args : List Byte), exec (.maintRequestUnknown h code args) s =
        .next (s.tookGood.replied h code (some .unknown) .none)) ∧
      (∀ args : List Byte, args.length ≠ 1 →
        exec (.queryZone h args) s = .next (s.tookGood.replied h 0x02 (some .range) .none) ∧
        exec (.queryFault h args) s = .next (s.tookGood.replied h 0x03 (some .range) .none) ∧
        exec (.querySurvey h args) s = .next (s.tookGood.replied h 0x04 (some .range) .none) ∧
        exec (.queryCounters h args) s = .next (s.tookGood.replied h 0x05 (some .range) .none) ∧
        exec (.clearFault h args) s = .next (s.tookGood.replied h 0x10 (some .range) .none) ∧
        exec (.surveyStart h args) s = .next (s.tookGood.replied h 0x20 (some .range) .none) ∧
        exec (.surveyAbort h args) s = .next (s.tookGood.replied h 0x21 (some .range) .none)) ∧
      (∀ b : Byte, 8 ≤ b.toNat →
        exec (.queryZone h [b]) s = .next (s.tookGood.replied h 0x02 (some .range) .none) ∧
        exec (.querySurvey h [b]) s = .next (s.tookGood.replied h 0x04 (some .range) .none) ∧
        exec (.surveyStart h [b]) s = .next (s.tookGood.replied h 0x20 (some .range) .none) ∧
        exec (.surveyAbort h [b]) s = .next (s.tookGood.replied h 0x21 (some .range) .none)) ∧
      (∀ b : Byte, 11 ≤ b.toNat →
        exec (.queryCounters h [b]) s = .next (s.tookGood.replied h 0x05 (some .range) .none)) ∧
      (∀ b : Byte, 16 ≤ b.toNat →
        exec (.queryFault h [b]) s = .next (s.tookGood.replied h 0x03 (some .range) .none) ∧
        (b.toNat ≠ 255 → exec (.clearFault h [b]) s = .next (s.tookGood.replied h 0x10 (some .range) .none))) ∧
      (∀ args : List Byte, args ≠ [] →
        exec (.limitLock h args) s = .next (s.tookGood.replied h 0x31 (some .range) .none) ∧
        exec (.restart h args) s = .next (s.tookGood.replied h 0x40 (some .range) .none)) ∧
      (∀ args : List Byte, args.length ≠ 7 →
        exec (.limitSet h args) s = .next (s.tookGood.replied h 0x30 (some .range) .none)) ∧
      (∀ o : Out, (s.play.zone o).id = none → exec (.surveyStart h [BitVec.ofNat 8 o.val]) s =
        .next (s.tookGood.replied h 0x20 (some .range) .none)) ∧
      (∀ zlow zhigh lmax : Nat, zlow < 65536 → zhigh < 65536 → lmax < 65536 →
        (∀ n : Nat, 8 ≤ n → n < 256 →
          exec (.limitSet h (asBytes (be1 n ++ be2 zlow ++ be2 zhigh ++ be2 lmax))) s =
            .next (s.tookGood.replied h 0x30 (some .range) .none)) ∧
        (∀ o : Out, (s.play.lsu.lock = true →
            exec (.limitSet h (asBytes (be1 o.val ++ be2 zlow ++ be2 zhigh ++ be2 lmax))) s =
              .next (s.tookGood.replied h 0x30 (some .locked) .none)) ∧
          (s.play.lsu.lock = false →
            (s.play.zone o).id = none ∨ zhigh ≤ zlow ∨ 1023 < zhigh ∨ 255 < lmax →
            exec (.limitSet h (asBytes (be1 o.val ++ be2 zlow ++ be2 zhigh ++ be2 lmax))) s =
              .next (s.tookGood.replied h 0x30 (some .range) .none)))) ∧
      (∀ args : List Byte, args.length ≠ 2 → args.length ≠ 8 →
        exec (.queryCall h args) s = .next (s.tookGood.replied h 0x01 (some .range) .none)) ∧
      (∀ m b : Byte, m.toNat ≠ 0 ∨ 96 ≤ b.toNat →
        exec (.queryCall h [m, b]) s = .next (s.tookGood.replied h 0x01 (some .range) .none)) ∧
      (∀ (m k : Byte) (code : List Byte), code.length = 6 → m.toNat ≠ 1 ∨ 2 ≤ k.toNat →
        exec (.queryCall h (m :: code ++ [k])) s = .next (s.tookGood.replied h 0x01 (some .range) .none))) ∧
    (s.Quiet → h.env.dst = 31 → ∀ (args : List Byte) (code : Nat),
      exec (.queryCall h args) s = .next s.tookGood ∧ exec (.queryZone h args) s = .next s.tookGood ∧
      exec (.queryFault h args) s = .next s.tookGood ∧ exec (.querySurvey h args) s = .next s.tookGood ∧
      exec (.queryCounters h args) s = .next s.tookGood ∧ exec (.clearFault h args) s = .next s.tookGood ∧
      exec (.surveyStart h args) s = .next s.tookGood ∧ exec (.surveyAbort h args) s = .next s.tookGood ∧
      exec (.limitSet h args) s = .next s.tookGood ∧ exec (.limitLock h args) s = .next s.tookGood ∧
      exec (.restart h args) s = .next s.tookGood ∧ exec (.maintRequestUnknown h code args) s = .next s.tookGood)

/-- A frame begun on the link sets the idle count to 0. When the idle count reaches urgency × 32 plus the own address,
the head frame leaves the queue and is begun, a beacon filled as it is begun; below the gap nothing is begun (R180,
R182). A frame sent whole is counted, and an ANNOUNCE takes its first-report deadline 2000 ms on (R110, R181). A
beacon due is queued at urgency 2 to all stations, unless one still stands in the queue, which is counted; the next is
due 1000 ms later (R182). FRAME_SENT with nothing being sent changes nothing (the model's guard, log entry 2), and the
idle count comes with the command (the model's choice, log entry 16). -/
def Obligations.LinkEventsAct : Prop :=
  ∀ s : State,
    exec .linkFrameBegin s = .next (s.onLki fun l => { l with idle := 0, busy := true }) ∧
    (∀ (idle : Nat) (f : TxFrame) (rest : List TxFrame), s.cfl.load = .running → s.play.net.lki.queue = f :: rest →
      s.play.net.lki.sending = none → s.play.net.lki.busy = false → s.play.net.lki.idle ≤ idle →
      (idle < f.urgency * 32 + s.cfl.own →
        exec (.transmitGapReached idle) s = .next (s.onLki fun l => { l with idle := idle })) ∧
      (f.urgency * 32 + s.cfl.own ≤ idle → ∃ g : TxFrame, exec (.transmitGapReached idle) s = .next (s.onLki fun l =>
          { l with queue := rest, sending := some g, idle := 0, busy := true }) ∧
        g.urgency = f.urgency ∧ g.dst = f.dst ∧ ((∀ x, f.payload ≠ .beacon x) → g = f) ∧
        (∀ x, f.payload = .beacon x → ∃ fill, g.payload = .beacon (some fill) ∧ fill.zones = s.env.ownedZones ∧
          fill.libVersion = s.play.cfu.version ∧ fill.evacActive = s.play.evl.active ∧
          (s.sck.state = .unset → fill.day = 0 ∧ fill.time = 0)))) ∧
    (s.play.net.lki.sending = none → exec .frameSent s = .next s) ∧
    (∀ f : TxFrame, s.play.net.lki.sending = some f → ∃ t, exec .frameSent s = .next t ∧
      t.play.net.lki = { s.play.net.lki with
        sending := none, idle := 0, busy := false
        counts := { s.play.net.lki.counts with sent := bump s.play.net.lki.counts.sent } } ∧
      t.play.net.pau.table = (match f.payload with
        | .announce a => s.play.net.pau.table.map fun o =>
            if o.id = ⟨a.origin, a.seq⟩ then { o with deadline := some (s.elapsed + 2000) } else o
        | _ => s.play.net.pau.table) ∧
      t.play.net.pau.counts = s.play.net.pau.counts ∧ t.play.net.flt = s.play.net.flt ∧ t.play.zpc = s.play.zpc ∧
      t.play.cfu = s.play.cfu ∧ t.play.cmu = s.play.cmu ∧ s.SameTables t) ∧
    (s.cfl.load = .running → s.play.net.lki.beaconAt ≤ s.elapsed →
      (s.play.net.lki.beaconQueued = true → exec .beaconDue s = .next (s.onLki fun l =>
        { l with beaconAt := l.beaconAt + 1000, counts := { l.counts with heldBeacon := bump l.counts.heldBeacon } })) ∧
      (s.play.net.lki.beaconQueued = false → s.play.net.lki.queue.length < 16 →
        exec .beaconDue s = .next (s.onLki fun l =>
          { l with beaconAt := l.beaconAt + 1000, queue := insertFrame l.queue ⟨2, 31, .beacon none⟩ })))

/-- At the end of the service day station time becomes 0, the day advances by one and the table rolls over: booked,
expected and qualified times fall by 1440 minutes, the expected time recomputed and the qualified time kept at or
above −1440, and a record then expected before −60 is removed (R24, R28, R34). At a whole second every held live
record has the fired flags of its due LEAD pairs set and is otherwise as it was (R35, R45, R46), and its clock minute
becomes the previous one of the automatic surveys (deduced, log entry 36). That a day end or a second is due is the
model's own flag (log entry 3); when neither is due the rows change nothing (the model's guard, log entry 2). -/
def Obligations.SecondsAndDays : Prop :=
  ∀ s : State,
    (s.sck.dayEndDue = true → ∃ t, exec .stationDayEnd s = .next t ∧
      t.sck = { s.sck with time := 0, day := s.sck.day + 1, dayEndDue := false, secondDue := false } ∧
      (∀ i r, s.ctb.places.get i = .held r → expectedTime (r.booked - 1440) r.delay < -60 →
        t.ctb.places.get i = .free) ∧
      (∀ i r, s.ctb.places.get i = .held r → -60 ≤ expectedTime (r.booked - 1440) r.delay →
        ∃ r', t.ctb.places.get i = .held r' ∧ { r' with fired := r.fired } =
          { r with booked := r.booked - 1440, expected := expectedTime (r.booked - 1440) r.delay,
                   qualified := max (-1440) (r.qualified - 1440) }) ∧
      (∀ i, s.ctb.places.get i = .free → t.ctb.places.get i = .free) ∧
      s.ctb.SameInputs t.ctb ∧ t.ctb.counts = s.ctb.counts ∧ t.cfl = s.cfl ∧ t.elapsed = s.elapsed ∧
      t.pending = s.pending) ∧
    (s.sck.secondDue = true → ∃ t, exec .wholeSecond s = .next t ∧ t.sck = { s.sck with secondDue := false } ∧
      (∀ i r, s.ctb.places.get i = .held r → t.ctb.places.get i = .held { r with fired :=
        (if s.sck.state = .unset ∨ r.state.live = false then r.fired
         else setFired r.fired (s.triggers.filter (leadDue s.sck.time r))) }) ∧
      (∀ i, s.ctb.places.get i = .free → t.ctb.places.get i = .free) ∧
      s.ctb.SameInputs t.ctb ∧ t.ctb.counts = s.ctb.counts ∧
      t.play.vsu.lastMinute = some (clockMinute s.env.dayStart s.sck.time) ∧ t.cfl = s.cfl ∧ t.elapsed = s.elapsed ∧
      t.pending = s.pending) ∧
    (s.Quiet → s.sck.dayEndDue = false → exec .stationDayEnd s = .next s) ∧
    (s.Quiet → s.sck.secondDue = false → exec .wholeSecond s = .next s)

/-- A heard-list entry not refreshed for 3 s is removed and the source selected afresh, a change of source discarding
the pending step (R29). Five seconds after the last source beacon a LOCKED clock enters HOLDOVER, the pending step is
discarded and TIME_HOLDOVER reported with the last source's address (R33). The quiet-hours signal takes its level,
asserted while the clock is set and its clock minute lies in the window; when it clears every pending retry ends
REFUSED, the record's starter absent (the model's choice, log entry 50) (R37, R163). -/
def Obligations.SourcesAndQuiet : Prop :=
  ∀ s : State,
    (∀ (a : Fin 31) (x : Nat), s.sck.heard.get a = some x → x + 3000 ≤ s.elapsed →
      ∃ c : Clock, exec (.heardEntryExpire a) s = .next { s with sck := c } ∧ c.heard.get a = none ∧
        (∀ b, b ≠ a → c.heard.get b = s.sck.heard.get b) ∧
        (∀ b : Fin 31, c.selected = some b.val →
          1 ≤ b.val ∧ heardLive s.elapsed (c.heard.get b) = true ∧
            ∀ d : Fin 31, 1 ≤ d.val → d.val < b.val → heardLive s.elapsed (c.heard.get d) = false) ∧
        (c.selected = none → ∀ d : Fin 31, 1 ≤ d.val → heardLive s.elapsed (c.heard.get d) = false) ∧
        c.pendingStep = (if c.selected = s.sck.selected then s.sck.pendingStep else none) ∧
        c.state = s.sck.state ∧ c.time = s.sck.time ∧ c.day = s.sck.day ∧ c.lastSource = s.sck.lastSource ∧
        c.quiet = s.sck.quiet) ∧
    (∀ m : SourceMark, s.sck.state = .locked → s.sck.lastSource = some m → m.elapsed + 5000 ≤ s.elapsed →
      ∃ t, exec .holdoverTimeout s = .next t ∧ t.sck = { s.sck with state := .holdover, pendingStep := none } ∧
        t.play = { s.play with net := Net.report s.env .timeHoldover m.address s.play.net } ∧ t.ctb = s.ctb ∧
        t.tgu = s.tgu ∧ t.cfl = s.cfl ∧ t.elapsed = s.elapsed ∧ t.pending = s.pending) ∧
    (∀ m : Image, s.cfl.image = some m → ∃ t, exec .quietHoursChange s = .next t ∧
      t.sck = { s.sck with quiet := decide (s.sck.state ≠ .unset ∧
        (m.quietStart < m.quietEnd ∧ m.quietStart ≤ clockMinute m.dayStart s.sck.time ∧
            clockMinute m.dayStart s.sck.time < m.quietEnd ∨
          m.quietEnd < m.quietStart ∧ (m.quietStart ≤ clockMinute m.dayStart s.sck.time ∨
            clockMinute m.dayStart s.sck.time < m.quietEnd))) } ∧
      (t.sck.quiet = true ∨ s.sck.quiet = false → t.play = s.play) ∧
      (t.sck.quiet = false → s.sck.quiet = true → ∀ o : Out, (t.play.surveyAt o).retryAt = none ∧
        ((s.play.surveyAt o).retryAt.isSome = true →
          (t.play.surveyAt o).record = ⟨.refused, none, none, none, none, [], none, none⟩) ∧
        ((s.play.surveyAt o).retryAt = none → t.play.surveyAt o = s.play.surveyAt o)) ∧
      t.play.zpc = s.play.zpc ∧ t.play.net = s.play.net ∧ t.ctb = s.ctb ∧ t.tgu = s.tgu ∧ t.cfl = s.cfl)

/-- An owner-map entry leaves 3 s after its owner's last beacon (R106); before that OWNER_ENTRY_EXPIRE changes nothing
(the model's guard, log entry 2). At the first-report deadline every PENDING zone of an entry becomes NO_RESPONSE and
is counted, PEER_SILENT is reported once for each owner that held one (in the order of the zone list: the model's
choice, log entry 57), the other zones keep their outcomes, and an entry whose zones are then all final retires (R112,
R113). Five seconds past its expiry instant an entry leaves the table, its open zones counted as NO_RESPONSE (R113).
-/
def Obligations.PeersAge : Prop :=
  ∀ s : State,
    (∀ (z : Fin 64) (o : OwnerEntry), s.play.net.pau.owners.get z = some o →
      (o.heard + 3000 ≤ s.elapsed → exec (.ownerEntryExpire z) s = .next (s.onNet fun _ n => n.onPau fun p =>
        { p with owners := upd p.owners z fun _ => none })) ∧
      (s.elapsed < o.heard + 3000 → exec (.ownerEntryExpire z) s = .next s)) ∧
    (∀ (id : AnnId) (o : Origination) (d : Nat), s.play.net.pau.find id = some o → o.deadline = some d →
      d ≤ s.elapsed → (s.play.net.pau.table.map (·.id)).Nodup → s.play.net.lki.queue.length + ((o.zones.filter fun z => z.outcome = .pending).filterMap (·.owner)).eraseDups.length ≤ 16 →
      ∃ t, exec (.reportDeadline id) s = .next t ∧
        t.play.net.pau.find id =
          (if o.zones.all (fun z => z.outcome = .pending || z.outcome.final) then none
           else some { o with
             deadline := none
             zones := o.zones.map fun z => if z.outcome = .pending then { z with outcome := .noResponse } else z }) ∧
        (∀ i, i ≠ id → t.play.net.pau.find i = s.play.net.pau.find i) ∧
        t.play.net.pau.counts = { s.play.net.pau.counts with noResponse := (
          bumpBy (o.zones.filter fun z => z.outcome = .pending).length s.play.net.pau.counts.noResponse) } ∧
        t.play.net.flt = ((o.zones.filter fun z => z.outcome = .pending).filterMap (·.owner)).eraseDups.foldl
          (fun m a => (Net.report s.env .peerSilent a { s.play.net with flt := m }).flt) s.play.net.flt ∧ t.play.zpc = s.play.zpc ∧
        t.play.cmu = s.play.cmu ∧ t.play.cfu = s.play.cfu ∧ s.SameTables t) ∧
    (∀ (id : AnnId) (o : Origination), s.play.net.pau.find id = some o → s.env.reached (o.expiry.plus 5000) = true →
      exec (.originationExpire id) s = .next (s.onNet fun _ n => n.onPau fun p => { p with
        table := p.table.filter fun x => x.id ≠ id
        counts := { p.counts with noResponse := (
          bumpBy (o.zones.filter fun z => !z.outcome.final).length p.counts.noResponse) } }))

/-- A raw level other than the one held starts its 2 s afresh (R18). An approach asserted for 2 s after a clear one
puts the booked ARR call of its platform within 1800 s of its expected time, the earliest expected first, in
APPROACHING with its epoch kept; with no such call the unmatched-approach count increments (R19). An approach cleared,
and the first level ever taken, raise no event (R18, R19). Of the held records that satisfy a test the one picked is
of earliest expected time, the lowest index among equals, and none is picked exactly when none satisfies it; a record
lies near when the clock is UNSET or its expected time lies within the given milliseconds of station time, either
side, 1800 s here (R19). -/
def Obligations.ApproachEdges : Prop :=
  (∀ (s : State) (i : Fin 8),
    (∀ level : Bool, exec (.berthInputChange .occupancy i level) s = .next (s.onCtb fun c =>
        { c with occupancy := upd c.occupancy i fun d =>
            if d.raw = level then d else { d with raw := level, since := s.elapsed } }) ∧
      exec (.berthInputChange .approach i level) s = .next (s.onCtb fun c =>
        { c with approach := upd c.approach i fun d =>
            if d.raw = level then d else { d with raw := level, since := s.elapsed } })) ∧
    ((s.ctb.approach.get i).since + 2000 ≤ s.elapsed →
      (∀ n : Nat, (s.ctb.approach.get i).raw = true → (s.ctb.approach.get i).level = some false →
        s.cfl.load = .running → s.platformsOf .approach i = [n] →
        (∀ j r, s.earliest (fun r => r.platform = n && r.kind = .arr && r.state = .booked && s.near 1800000 r) = some (j, r) →
          ∃ t r', exec (.approachAssert i) s = .next t ∧ t.ctb.places.get j = .held r' ∧
            { r' with fired := r.fired } = { r with state := .approaching, entered := s.env.now, hold := none } ∧
            (∀ k, k ≠ j → t.ctb.places.get k = s.ctb.places.get k) ∧
            t.ctb.approach.get i = { s.ctb.approach.get i with level := some true } ∧
            t.ctb.occupancy = s.ctb.occupancy ∧ t.ctb.counts = s.ctb.counts ∧ t.sck = s.sck ∧ t.cfl = s.cfl) ∧
        (s.Quiet → s.earliest (fun r => r.platform = n && r.kind = .arr && r.state = .booked && s.near 1800000 r) = none →
          exec (.approachAssert i) s = .next (s.onCtb fun c => { c with
            approach := upd c.approach i fun d => { d with level := some true }
            counts := { c.counts with unmatched := bump c.counts.unmatched } }))) ∧
      (s.Quiet → (s.ctb.approach.get i).raw = true → (s.ctb.approach.get i).level = none →
        exec (.approachAssert i) s = .next (s.onCtb fun c =>
          { c with approach := upd c.approach i fun d => { d with level := some true } })) ∧
      ((s.ctb.approach.get i).raw = false → (s.ctb.approach.get i).level ≠ some false →
        exec (.approachClear i) s = .next (s.onCtb fun c =>
          { c with approach := upd c.approach i fun d => { d with level := some false } })))) ∧
    ((∀ (s : State) (test : CallRec → Bool),
      (∀ i r, s.earliest test = some (i, r) ↔ s.ctb.places.get i = .held r ∧ test r = true ∧
        ∀ j x, s.ctb.places.get j = .held x → test x = true →
          r.expected < x.expected ∨ r.expected = x.expected ∧ i ≤ j) ∧
      (s.earliest test = none ↔ ∀ j x, s.ctb.places.get j = .held x → test x = false)) ∧
    (∀ (s : State) (ms : Nat) (r : CallRec), s.near ms r = true ↔ s.sck.state = .unset ∨
      r.expected * 60000 - (s.sck.time : Int) ≤ ms ∧ (s.sck.time : Int) - r.expected * 60000 ≤ ms))

/-- An occupancy asserted for 2 s after a clear one acts on the covered platforms tied to the input in ascending
number. On a single one it puts the approaching ARR call AT_PLATFORM, and with it the BOOKED DEP call of the same
platform that its forms code names, any other forms link taking no record; with no such ARR call, the booked DEP call
within 3600 s (which call is the earliest and which lies near is said in ApproachEdges); with none,
PLATFORM_UNEXPECTED is reported with the platform as source (R18, R20). An occupancy cleared ends every AT_PLATFORM
call of the platform, DEP in DEPARTED and ARR in COMPLETE, with 120 s of retire hold, the epoch incremented and the
record qualified, and leaves every other record (R5, R21). Each elapsed second lowers each retire hold by one and
frees the place of a record whose hold ends (R22); seconds counted from the reset are the model's choice (log entry
8), and RETIRE_SECOND before its time changes nothing (the model's guard, log entry 2). -/
def Obligations.OccupancyEdges : Prop :=
  ∀ (s : State) (i : Fin 8) (n : Nat),
    ((∀ k : Nat, k ∈ s.platformsOf .occupancy i ↔
        k ≤ 48 ∧ ∃ m, s.cfl.image = some m ∧ ∃ c ∈ m.platforms, c.platform = k ∧ c.occupancy = i) ∧
      (s.platformsOf .occupancy i).Pairwise (· < ·) ∧
      ((s.ctb.occupancy.get i).since + 2000 ≤ s.elapsed → s.cfl.load = .running →
        (s.ctb.occupancy.get i).raw = true → (s.ctb.occupancy.get i).level = some false →
        exec (.occupancyAssert i) s = .next ((s.platformsOf .occupancy i).foldl State.occupyPlatform (s.onCtb fun c =>
          { c with occupancy := upd c.occupancy i fun d => { d with level := some true } })).finish)) ∧
    ((s.ctb.occupancy.get i).since + 2000 ≤ s.elapsed → s.cfl.load = .running → s.platformsOf .occupancy i = [n] →
      ((s.ctb.occupancy.get i).raw = true → (s.ctb.occupancy.get i).level = some false →
        (∀ j r, s.earliest (fun r => r.platform = n && r.kind = .arr && r.state = .approaching) = some (j, r) →
          ∃ t r', exec (.occupancyAssert i) s = .next t ∧ t.ctb.places.get j = .held r' ∧
            { r' with fired := r.fired } = { r with state := .atPlatform, entered := s.env.now, hold := none } ∧
            t.ctb.counts = s.ctb.counts ∧ t.sck = s.sck ∧
            (∀ k d, r.forms.bind (fun c => s.ctb.find c .dep) = some (k, d) → d.state = .booked → d.platform = n →
              (∃ d', t.ctb.places.get k = .held d' ∧
                { d' with fired := d.fired } = { d with state := .atPlatform, entered := s.env.now, hold := none }) ∧
              ∀ l, l ≠ j → l ≠ k → t.ctb.places.get l = s.ctb.places.get l) ∧
            ((∀ k d, r.forms.bind (fun c => s.ctb.find c .dep) = some (k, d) → d.state ≠ .booked ∨ d.platform ≠ n) →
              ∀ l, l ≠ j → t.ctb.places.get l = s.ctb.places.get l)) ∧
        (s.earliest (fun r => r.platform = n && r.kind = .arr && r.state = .approaching) = none →
          (∀ j r, s.earliest (fun r => r.platform = n && r.kind = .dep && r.state = .booked && s.near 3600000 r) =
              some (j, r) →
            ∃ t r', exec (.occupancyAssert i) s = .next t ∧ t.ctb.places.get j = .held r' ∧
              { r' with fired := r.fired } = { r with state := .atPlatform, entered := s.env.now, hold := none } ∧
              (∀ k, k ≠ j → t.ctb.places.get k = s.ctb.places.get k) ∧ t.ctb.counts = s.ctb.counts ∧ t.sck = s.sck) ∧
          (s.Quiet → s.earliest (fun r => r.platform = n && r.kind = .dep && r.state = .booked && s.near 3600000 r) =
              none →
            ∃ t, exec (.occupancyAssert i) s = .next t ∧ t.ctb.places = s.ctb.places ∧
              t.play = { s.play with net := Net.report s.env .platformUnexpected n s.play.net } ∧
              t.ctb.counts = s.ctb.counts ∧ t.tgu = s.tgu ∧ s.SameSurroundings t))) ∧
      ((s.ctb.occupancy.get i).raw = false → (s.ctb.occupancy.get i).level = some true →
        ∃ t, exec (.occupancyClear i) s = .next t ∧ t.sck = s.sck ∧ t.cfl = s.cfl ∧ t.ctb.counts = s.ctb.counts ∧
          ∀ j r, s.ctb.places.get j = .held r →
            (r.platform = n ∧ r.state = .atPlatform → ∃ r', t.ctb.places.get j = .held r' ∧
              { r' with fired := r.fired } =
                { r with state := (if r.kind = .dep then .departed else .complete), entered := s.env.now,
                         hold := some 120, epoch := r.epoch + 1, qualified := r.expected }) ∧
            (¬ (r.platform = n ∧ r.state = .atPlatform) → t.ctb.places.get j = .held r))) ∧
    ((s.ctb.seconds + 1) * 1000 ≤ s.elapsed → ∃ c : CallTable, exec .retireSecond s = .next { s with ctb := c } ∧
      c.seconds = s.ctb.seconds + 1 ∧ c.occupancy = s.ctb.occupancy ∧ c.approach = s.ctb.approach ∧
      c.counts = s.ctb.counts ∧ (∀ j, s.ctb.places.get j = .free → c.places.get j = .free) ∧
      (∀ j r, s.ctb.places.get j = .held r →
        (r.hold = none → c.places.get j = .held r) ∧
        (∀ k, r.hold = some k → k ≤ 1 → c.places.get j = .free) ∧
        (∀ k, r.hold = some k → 2 ≤ k → c.places.get j = .held { r with hold := some (k - 1) }))) ∧
    (s.elapsed < (s.ctb.seconds + 1) * 1000 → exec .retireSecond s = .next s)

/-- At each millisecond every sense input takes 16 samples within −32768..32767, whose squares enter its accumulator;
what a microphone hears is a free value (log entry 18). At a window end with no survey running, every output takes the
level code of its accumulator, with what the command brings beyond it, as the last level, its accumulator empties, and
an eligible window of an owned zone is counted by the noise estimate, or discarded once under the discard mark; other
windows leave the estimate; gain, target and what is carried stand (R141, R142, R143, R144; that windows end at
multiples of 128 ms is the model's choice, log entry 10). The window now running is marked not eligible by each
millisecond that passes while evacuation is active or while the zone is neither IDLE nor STARTING, an output without
an owned zone among them, and a mark set stays; no command changes the mark but WINDOW_END, which clears it for the
next window, and POWER_ON_RESET (R143). With surveys running, a window end does the same to every output, and then
hands each output's level code to the survey of its zone, in ascending output number (the model's choice, log entry
75), as SurveyCourse gives; a zone in SURVEY has no eligible window (R141, R143). -/
def Obligations.WindowsMeasure : Prop :=
  ((∀ (s : State) (o : Out),
      (s.tick.play.levelAt o).accSum = (s.play.levelAt o).accSum +
        ((List.range 16).map fun k => (senseAt o.val (s.play.lvc.sampled + k)).natAbs ^ 2).sum ∧
      (s.tick.play.levelAt o).accCount = (s.play.levelAt o).accCount + 16 ∧
      s.tick.play.lvc.sampled = s.play.lvc.sampled + 16 ∧
      ∀ k, -32768 ≤ senseAt o.val k ∧ senseAt o.val k ≤ 32767) ∧
    ∀ (s : State) (sums : Vector Nat 8), s.Quiet → s.elapsed % 128 = 0 → 0 < s.elapsed →
      s.play.lvc.windowAt ≠ s.elapsed → (∀ o, (s.play.surveyAt o).work = none) →
      ∃ v : Levels, exec (.windowEnd sums) s = .next { s with play := { s.play with
          lvc := v, cfu := { s.play.cfu with boundaryAt := s.elapsed } } } ∧
        v.windowAt = s.elapsed ∧ v.shapings = s.play.lvc.shapings ∧ v.sampled = s.play.lvc.sampled ∧
        ∀ o : Out, v.outs.get o =
          { s.play.levelAt o with
            last := levelCode ((s.play.levelAt o).accSum + sums.get o), accSum := 0, accCount := 0, spoiled := false
            n16 := if (s.play.zone o).id.isSome ∧ (s.play.levelAt o).spoiled = false ∧
                (s.play.levelAt o).discard = false
              then noiseAfter (s.play.levelAt o).n16 (levelCode ((s.play.levelAt o).accSum + sums.get o))
              else (s.play.levelAt o).n16
            discard := if (s.play.zone o).id.isSome ∧ (s.play.levelAt o).spoiled = false
              then false else (s.play.levelAt o).discard }) ∧
    ((∀ (s : State) (o : Out), (s.tick.play.levelAt o).spoiled = true ↔ (s.play.levelAt o).spoiled = true ∨
        s.play.evl.active = true ∨ ((s.play.zone o).state ≠ .idle ∧ (s.play.zone o).state ≠ .starting)) ∧
    (∀ (c : Instr) (s t : State), exec c s = .next t → c ≠ .powerOnReset → (∀ sums, c ≠ .windowEnd sums) →
      ∀ o : Out, (t.play.levelAt o).spoiled = (s.play.levelAt o).spoiled) ∧
    (∀ (s : State) (sums : Vector Nat 8), s.elapsed % 128 = 0 → 0 < s.elapsed → s.play.lvc.windowAt ≠ s.elapsed →
      ∃ (v : Levels) (q : Play), exec (.windowEnd sums) s = .next (State.finishBoundary { s with play := q }) ∧
        q = allOuts.foldl (fun p o => p.surveyWindow s.env o (v.outs.get o).last)
          { s.play with lvc := v, cfu := { s.play.cfu with boundaryAt := s.elapsed } } ∧
        v.windowAt = s.elapsed ∧ v.shapings = s.play.lvc.shapings ∧ v.sampled = s.play.lvc.sampled ∧
        ∀ o : Out, v.outs.get o = { s.play.levelAt o with
            last := levelCode ((s.play.levelAt o).accSum + sums.get o), accSum := 0, accCount := 0, spoiled := false
            n16 := if (s.play.zone o).id.isSome ∧ (s.play.levelAt o).spoiled = false ∧
                (s.play.levelAt o).discard = false
              then noiseAfter (s.play.levelAt o).n16 (levelCode ((s.play.levelAt o).accSum + sums.get o))
              else (s.play.levelAt o).n16
            discard := if (s.play.zone o).id.isSome ∧ (s.play.levelAt o).spoiled = false
              then false else (s.play.levelAt o).discard }))

/-- A raw level other than the one held starts its 50 ms afresh. Asserted for 50 ms, evacuation becomes active and is
counted, the evacuation slot holds its body, and no entry of another class is left RENDERING (R95, R170, R171). With
the slot empty before, every owned zone in RUNNING that is not FAULTED, and before RUNNING every output whose line is
up, with room in its queue, then holds the EVAC entry of id (own address, 0) (R79, R105, R171). Released for 50 ms, it
is active no more, no EVAC entry is left waiting, and the discard mark of every zone is set, the model setting that of
all eight outputs (R175; deduced, log entry 39). Neither touches the call table, the triggers, the clock or the
loader. Before 50 ms neither changes anything (the model's guard, log entry 2). -/
def Obligations.EvacuationInput : Prop :=
  ∀ s : State,
    (∀ level : Bool, s.Quiet → exec (.evacInputChange level) s = .next (s.onPlay fun e p => { p with evl :=
      if p.evl.raw = level then p.evl else { p.evl with raw := level, since := e.elapsed } })) ∧
    (s.play.evl.since + 50 ≤ s.elapsed →
      (s.play.evl.raw = true → s.play.evl.active = false → ∃ t, exec .evacAssert s = .next t ∧
        t.play.evl.active = true ∧ t.play.evl.raw = true ∧ t.play.evl.assertions = bump s.play.evl.assertions ∧
        t.play.cmu.evacSlot.isSome = true ∧ t.play.evl.idInUse.isSome = true ∧
        (∀ (o : Out), ∀ en ∈ (t.play.zone o).queue, en.cls ≠ .evac → en.state ≠ .rendering) ∧ s.SameTables t ∧
        (s.play.cmu.evacSlot = none → (∀ q, ∀ x ∈ (s.play.zone q).queue, x.id ≠ ⟨s.cfl.own, 0⟩) →
          ∀ o : Out, (s.play.zone o).queue.length < 8 →
            (s.cfl.load = .running ∧ (s.play.zone o).id.isSome = true ∧ (s.play.zone o).faulted = false ∨
              s.cfl.load ≠ .running ∧ (s.play.zone o).id = none ∧ s.play.lineDown o = false) →
            ∃ en ∈ (t.play.zone o).queue, en.id = ⟨s.cfl.own, 0⟩ ∧ en.cls = .evac)) ∧
      (s.play.evl.raw = false → s.play.evl.active = true → ∃ t, exec .evacRelease s = .next t ∧
        t.play.evl.active = false ∧ t.play.evl.raw = false ∧ t.play.evl.assertions = s.play.evl.assertions ∧
        (∀ (o : Out), ∀ en ∈ (t.play.zone o).queue, en.cls = .evac → en.sounding = true) ∧
        (∀ o : Out, (t.play.levelAt o).discard = true) ∧ s.SameTables t)) ∧
    (s.Quiet → s.elapsed < s.play.evl.since + 50 → exec .evacAssert s = .next s ∧ exec .evacRelease s = .next s)

/-- A block read at the port that a PREPARING channel still wants fills its next-block place and grants the channel
(which boundaries count as taken before the grant: the model's choice, log entry 43), and the read leaves the channel;
one that a PLAYING channel wants fills its next-block place; a failed one fills it with zeros, is counted, and
UNDERRUN is reported for each member (R131, R134, R136, R138; at every failed read, and in ascending output number:
the model's choices, log entries 53 and 72). A directory read holds the entry for the first segment of a PREPARING
channel, or as the next entry of a PLAYING one, when it is present, starts at block 129 or later and ends within the
store, and is otherwise a missing phrase, which is reported and counted (R127, R131, R135). A discarded read fills
nothing and reports nothing, whatever it brings; a discarded block read that failed is counted (R129, R136, R138). -/
def Obligations.ReadsComplete : Prop :=
  ∀ (s : State) (ch : Chan) (k : AnnClass), s.Quiet → s.play.cfu.port = some (.channel ch) →
    (∀ a : Nat, (s.play.chan ch).read = some ⟨.block a, k, false⟩ →
      ((s.play.chan ch).state = .preparing →
        (∀ samples : List Int, ∃ t, exec (.blockReadComplete (some samples)) s = .next t ∧
          t.play.chan ch = { s.play.chan ch with
            read := none, next := some (.audio samples), state := .granted, boundary := s.play.cfu.boundaryAt } ∧
          (∀ d, d ≠ ch → t.play.chan d = s.play.chan d) ∧ t.play.cfu.counts = s.play.cfu.counts ∧
          t.play.cfu.waiting = s.play.cfu.waiting ∧ t.play.zpc = s.play.zpc ∧ t.play.net = s.play.net ∧
          t.play.cmu = s.play.cmu ∧ t.play.lvc = s.play.lvc ∧ s.SameTables t) ∧
        (∃ t, exec (.blockReadComplete none) s = .next t ∧
          t.play.chan ch = { s.play.chan ch with
            read := none, next := some .zero, state := .granted, boundary := s.play.cfu.boundaryAt } ∧
          t.play.cfu.counts = { s.play.cfu.counts with readFailures := bump s.play.cfu.counts.readFailures } ∧
          t.play.net = (outsOf (s.play.chan ch).members).foldl
            (fun n o => Net.report s.env .underrun (s.env.faultSource o) n) s.play.net ∧
          t.play.zpc = s.play.zpc ∧ s.SameTables t)) ∧
      ((s.play.chan ch).state = .playing →
        (∀ samples : List Int, ∃ t, exec (.blockReadComplete (some samples)) s = .next t ∧
          t.play.chan ch = { s.play.chan ch with next := some (.audio samples), read := (t.play.chan ch).read } ∧
          (∀ d, d ≠ ch → t.play.chan d = s.play.chan d) ∧ t.play.cfu.counts = s.play.cfu.counts ∧
          t.play.zpc = s.play.zpc ∧ t.play.net = s.play.net ∧ t.play.lvc = s.play.lvc ∧ s.SameTables t) ∧
        (∃ t, exec (.blockReadComplete none) s = .next t ∧
          t.play.chan ch = { s.play.chan ch with next := some .zero, read := (t.play.chan ch).read } ∧
          t.play.cfu.counts = { s.play.cfu.counts with readFailures := bump s.play.cfu.counts.readFailures } ∧
          t.play.net = (outsOf (s.play.chan ch).members).foldl
            (fun n o => Net.report s.env .underrun (s.env.faultSource o) n) s.play.net ∧
          t.play.zpc = s.play.zpc ∧ s.SameTables t))) ∧
    (∀ (f b : Nat) (r : Option DirEntry), (s.play.chan ch).read = some ⟨.directory f b, k, false⟩ →
      (s.play.chan ch).state = .preparing ∨ (s.play.chan ch).state = .playing →
      ∃ t, exec (.directoryReadComplete r) s = .next t ∧
        (∀ d : DirEntry, r = some d → d.present = true → 129 ≤ d.start →
          d.start + (if d.count = 0 then 65536 else d.count) ≤ s.play.cfu.size →
          (if (s.play.chan ch).state = .playing then (t.play.chan ch).nextEntry else (t.play.chan ch).segEntry) =
            some (.found d) ∧ t.play.cfu.counts = s.play.cfu.counts ∧ t.play.net = s.play.net) ∧
        ((∀ d : DirEntry, r = some d → d.present = false ∨ d.start < 129 ∨
            s.play.cfu.size < d.start + (if d.count = 0 then 65536 else d.count)) →
          (if (s.play.chan ch).state = .playing then (t.play.chan ch).nextEntry else (t.play.chan ch).segEntry) =
            some .missing ∧
          t.play.cfu.counts = { s.play.cfu.counts with missing := bump s.play.cfu.counts.missing } ∧
          t.play.net = Net.report s.env .phraseMissing f s.play.net) ∧
        (∀ d, d ≠ ch → t.play.chan d = s.play.chan d) ∧ t.play.zpc = s.play.zpc ∧ s.SameTables t) ∧
    (∀ kind : ReadKind, (s.play.chan ch).read = some ⟨kind, k, true⟩ →
      (kind.isBlock = true → ∀ r : Option (List Int), ∃ t, exec (.blockReadComplete r) s = .next t ∧
        t.play.cfu.counts = (if r.isSome then s.play.cfu.counts else
          { s.play.cfu.counts with readFailures := bump s.play.cfu.counts.readFailures }) ∧
        ((s.play.chan ch).state = .free → t.play.chan ch = { s.play.chan ch with read := none }) ∧
        (t.play.chan ch).segEntry = (s.play.chan ch).segEntry ∧
        (t.play.chan ch).nextEntry = (s.play.chan ch).nextEntry ∧
        (∀ d, d ≠ ch → t.play.chan d = s.play.chan d) ∧ t.play.zpc = s.play.zpc ∧ t.play.net = s.play.net ∧
        s.SameTables t) ∧
      (kind.isBlock = false → ∀ r : Option DirEntry, ∃ t, exec (.directoryReadComplete r) s = .next t ∧
        t.play.cfu.counts = s.play.cfu.counts ∧
        ((s.play.chan ch).state = .free → t.play.chan ch = { s.play.chan ch with read := none }) ∧
        (t.play.chan ch).segEntry = (s.play.chan ch).segEntry ∧
        (t.play.chan ch).nextEntry = (s.play.chan ch).nextEntry ∧
        (∀ d, d ≠ ch → t.play.chan d = s.play.chan d) ∧ t.play.zpc = s.play.zpc ∧ t.play.net = s.play.net ∧
        s.SameTables t))

/-- At a block boundary not taken before its grant a GRANTED channel that serves no evacuation body becomes PLAYING at
segment 0, pass 0, block 0 with its start time, its first block in play, and its member's STARTING entry enters
RENDERING there with its sync start gone (R83, R131). A PLAYING channel between boundaries of the body takes its next
block; with none it plays silence, keeps its position and counts an underrun (R134, R137). That block boundaries stand
at multiples of 16 ms, and which of them a grant comes after, are the model's choices (log entries 10 and 43). -/
def Obligations.ChannelsPlay : Prop :=
  ∀ (s : State) (ch : Chan) (id : AnnId), s.elapsed % 16 = 0 → 0 < s.elapsed →
    (s.play.chan ch).served = some (.body id) →
    (∀ (o : Out) (en : Entry), (s.play.chan ch).state = .granted → (s.play.chan ch).cls ≠ .evac →
      (s.play.chan ch).boundary ≠ s.elapsed →
      outsOf (s.play.chan ch).members = [o] → (s.play.zone o).queue.find? (fun x => x.id = id) = some en →
      en.state = .starting →
      ∃ t, exec (.channelStart ch) s = .next t ∧ (t.play.chan ch).state = .playing ∧
        (t.play.chan ch).start = some s.elapsed ∧ (t.play.chan ch).playing = (s.play.chan ch).next ∧
        (t.play.chan ch).seg = 0 ∧ (t.play.chan ch).pass = 0 ∧ (t.play.chan ch).blk = 0 ∧
        (t.play.chan ch).members = (s.play.chan ch).members ∧
        t.play.zone o = { s.play.zone o with queue := (s.play.zone o).queue.map fun x =>
          if x.id = id then { x with state := .rendering, seg := 0, pass := 0, sync := none } else x } ∧
        (∀ q, q ≠ o → t.play.zone q = s.play.zone q) ∧ (∀ d, d ≠ ch → t.play.chan d = s.play.chan d) ∧
        s.SameTables t) ∧
    (s.Quiet → (s.play.chan ch).state = .playing → (s.play.chan ch).boundary ≠ s.elapsed →
      s.play.passEndDue s.env ch = false → s.play.stopDue s.env ch = [] →
      (∀ b : Block, (s.play.chan ch).next = some b → ∃ t, exec (.channelBlockAdvance ch) s = .next t ∧
        (t.play.chan ch).playing = some b ∧ (t.play.chan ch).silent = false ∧
        (t.play.chan ch).passEnded = false ∧ (t.play.chan ch).boundary = s.elapsed ∧
        (t.play.chan ch).blk = (if (s.play.chan ch).passEnded = true then (s.play.chan ch).blk
          else (s.play.chan ch).blk + 1) ∧ t.play.zpc = s.play.zpc ∧ t.play.net = s.play.net ∧
        (∀ d, d ≠ ch → t.play.chan d = s.play.chan d) ∧ s.SameTables t) ∧
      ((s.play.chan ch).next = none → ∃ t, exec (.channelBlockAdvance ch) s = .next t ∧
        t.play.chan ch = { s.play.chan ch with playing := some .zero, silent := true, boundary := s.elapsed } ∧
        t.play.cfu.counts = { s.play.cfu.counts with underruns := bump s.play.cfu.counts.underruns } ∧
        ((s.play.chan ch).silent = true → t.play.net = s.play.net) ∧
        (∀ o ∈ outsOf (s.play.chan ch).members, (t.play.levelAt o).out = .zero) ∧ t.play.zpc = s.play.zpc ∧
        s.SameTables t))

/-- A pass that ends and is not the last moves the member's RENDERING entry and the channel to the next pass (R85).
With evacuation released, the end of a body played whole ends its entry DONE: it leaves the queue and is counted
(R86). At a stop point an entry STOPPING for PREEMPT alone that nothing more urgent preempts returns to RENDERING
(R88); with evacuation released one that holds a drop reason leaves the queue and is counted under that reason (R89,
R104). -/
def Obligations.PassesAndStops : Prop :=
  ∀ (s : State) (ch : Chan) (id : AnnId) (o : Out) (en : Entry),
    (s.play.chan ch).served = some (.body id) → (s.play.zone o).queue.find? (fun x => x.id = id) = some en →
    (s.play.passEndDue s.env ch = true → outsOf (s.play.chan ch).members = [o] → en.state = .rendering →
      (s.play.lastPass (s.play.chan ch) = false → s.Quiet → ∃ t, exec (.passEnd ch) s = .next t ∧
        t.play.chan ch = { s.play.chan ch with pass := (s.play.chan ch).pass + 1, blk := 0, passEnded := true } ∧
        t.play.zone o = { s.play.zone o with queue := (s.play.zone o).queue.map fun x =>
          if x.id = id then { x with seg := (s.play.chan ch).seg, pass := (s.play.chan ch).pass + 1 } else x } ∧
        (∀ q, q ≠ o → t.play.zone q = s.play.zone q) ∧ t.play.zpc.counts = s.play.zpc.counts ∧
        t.play.net = s.play.net ∧ s.SameTables t) ∧
      (s.play.wholeAfter (s.play.chan ch) = true → s.play.evl.active = false → ∃ t, exec (.passEnd ch) s = .next t ∧
        (∀ x ∈ (t.play.zone o).queue, x.id ≠ id) ∧
        t.play.zpc.counts = { s.play.zpc.counts with done := bump s.play.zpc.counts.done } ∧ s.SameTables t)) ∧
    (∀ c : StopCause, s.play.stopDue s.env ch = [o] → en.state = .stopping c →
      (c.drop = none → c.theft = false → c.fault = false → c.evacEnd = false → s.play.evl.active = false → s.Quiet →
        (∀ x ∈ (s.play.zone o).queue, x.id ≠ id → moreUrgent x.cls en.cls = false) →
        ∃ t, exec (.stopPointReached ch) s = .next t ∧
          t.play.zone o = { s.play.zone o with queue := (s.play.zone o).queue.map fun x =>
            if x.id = id then { x with state := .rendering } else x } ∧
          (∀ q, q ≠ o → t.play.zone q = s.play.zone q) ∧
          t.play.cfu = { s.play.cfu with boundaryAt := s.elapsed } ∧ t.play.net = s.play.net ∧ s.SameTables t) ∧
      (∀ r : DropReason, c.drop = some r → s.play.evl.active = false →
        ∃ t, exec (.stopPointReached ch) s = .next t ∧ (∀ x ∈ (t.play.zone o).queue, x.id ≠ id) ∧
          t.play.zpc.counts = s.play.zpc.counts.countDrop r ∧ s.SameTables t))

/-- For an id that one zone alone holds: a QUEUED entry without a request whose expiry instant is reached, or whose
must-sync window has closed, leaves the queue and is counted EXPIRED or SYNC_MISSED, every other entry stands, and for
a REMOTE entry a ZONE_REPORT carries the drop to the origin's station (R91, R94, R117, R118). A STARTING entry whose
sync start instant is reached, and that has no request, asks for a channel: with no request waiting and none to join,
the FREE channel of lowest number (the model's choice of which, log entry 22) serves its body for it alone (R83, R130,
R131). Where the instant is not reached the row changes nothing (the model's guard, log entry 2). An instant is
reached when the clock is set and the service day lies after the instant's, by a signed difference modulo 65536, or
equals it with station time at or past the instant's time (R92). An entry is expired when it holds an expiry instant
that is reached; its sync start is reached when it holds none or one that is reached; and a must-sync entry's window
has closed 2000 ms past its sync start, an instant past the end of its day being held as the following day (R83, R91,
R92, R118). -/
def Obligations.WaitingInstants : Prop :=
  (∀ (s : State) (id : AnnId) (o : Out) (en : Entry), s.Quiet → (s.play.zone o).queue.filter (fun x => x.id = id) = [en] →
    (∀ q, q ≠ o → ∀ x ∈ (s.play.zone q).queue, x.id ≠ id) → s.play.hasRequest o (.body id) = false →
    (en.state = .queued →
      (s.env.expired en = true → ∃ t, exec (.expiryReached id) s = .next t ∧
        t.play.zone o = { s.play.zone o with queue := (s.play.zone o).queue.filter fun x => x.id ≠ id } ∧
        (∀ q, q ≠ o → t.play.zone q = s.play.zone q) ∧
        t.play.zpc.counts = { s.play.zpc.counts with expired := bump s.play.zpc.counts.expired } ∧
        ((∀ a, en.origin ≠ .remote a) → t.play.net = s.play.net) ∧
        (∀ a, en.origin = .remote a → s.cfl.load = .running → s.play.net.lki.queue.length < 16 →
          t.play.net.lki.queue = insertFrame s.play.net.lki.queue ⟨if en.cls = .alert then 0 else 1, id.origin,
            .zoneReport ⟨id.origin, id.seq, [⟨en.reported, 4, 2⟩]⟩⟩) ∧
        t.play.cfu = s.play.cfu ∧ s.SameTables t) ∧
      (s.env.expired en = false → exec (.expiryReached id) s = .next s) ∧
      (s.env.syncMissed en = true → ∃ t, exec (.syncWindowClose id) s = .next t ∧
        t.play.zone o = { s.play.zone o with queue := (s.play.zone o).queue.filter fun x => x.id ≠ id } ∧
        (∀ q, q ≠ o → t.play.zone q = s.play.zone q) ∧
        t.play.zpc.counts = { s.play.zpc.counts with syncMissed := bump s.play.zpc.counts.syncMissed } ∧
        ((∀ a, en.origin ≠ .remote a) → t.play.net = s.play.net) ∧
        (∀ a, en.origin = .remote a → s.cfl.load = .running → s.play.net.lki.queue.length < 16 →
          t.play.net.lki.queue = insertFrame s.play.net.lki.queue ⟨if en.cls = .alert then 0 else 1, id.origin,
            .zoneReport ⟨id.origin, id.seq, [⟨en.reported, 4, 8⟩]⟩⟩) ∧
        t.play.cfu = s.play.cfu ∧ s.SameTables t) ∧
      (s.env.syncMissed en = false → exec (.syncWindowClose id) s = .next s)) ∧
    (∀ ch : Chan, en.state = .starting → s.env.syncReached en = true → s.play.cfu.waiting = [] →
      (∀ d : Chan, (s.play.chan d).served ≠ some (.body id)) → (s.play.chan ch).state = .free →
      (∀ d : Chan, d < ch → (s.play.chan d).state ≠ .free) →
      ∃ t, exec (.syncStartReached id) s = .next t ∧ (t.play.chan ch).served = some (.body id) ∧
        (t.play.chan ch).cls = en.cls ∧ outsOf (t.play.chan ch).members = [o] ∧ (t.play.chan ch).start = none ∧
        (t.play.chan ch).seg = 0 ∧ (t.play.chan ch).pass = 0 ∧
        (∀ d, d ≠ ch → t.play.chan d = s.play.chan d) ∧
        t.play.cfu.counts.assigned = bump s.play.cfu.counts.assigned ∧
        t.play.zpc = s.play.zpc ∧ t.play.net = s.play.net ∧ s.SameTables t)) ∧
    ((∀ (e : Env) (i : Instant), e.reached i = true ↔ e.clock ≠ .unset ∧
      (1 ≤ (e.now.day - i.day).toNat ∧ (e.now.day - i.day).toNat ≤ 32767 ∨
        e.now.day = i.day ∧ i.time ≤ e.now.time)) ∧
    (∀ (e : Env) (en : Entry),
      (e.expired en = true ↔ ∃ i, en.expiry = some i ∧ e.reached i = true) ∧
      (e.syncReached en = true ↔ ∀ i, en.sync = some i → e.reached i = true) ∧
      (e.syncMissed en = true ↔ en.mustSync = true ∧ ∃ i, en.sync = some i ∧
        e.reached (if i.time + 2000 < 86400000 then ⟨i.day, i.time + 2000⟩
          else ⟨i.day + 1, i.time + 2000 - 86400000⟩) = true)))

/-- In RUNNING, with room in the queue, reporting a list of outcomes queues one ZONE_REPORT for each announcement, in
the order in which the announcements first arose (the model's choice, log entry 60): at urgency 0 for one admitted as
ALERT and 1 for another, to the station of its id, with every outcome of that announcement in the order in which they
arose (the model's choice, log entry 60); each is counted, and nothing else of the Peer Announcement Unit and nothing
of the Fault Log changes (R117, R183). A command ends by reporting what it gathered (log entry 21); what the commands
of one block boundary gather is held while one of them is still due, and is reported when none is (log entry 42). -/
def Obligations.ReportsGoOut : Prop :=
  (∀ (e : Env) (l : List ReportedOutcome) (n : Net), e.load = .running → n.pau.counts.reportSent ≤ 65535 →
      n.lki.queue.length + (l.map (·.id)).eraseDups.length ≤ 16 →
      (Net.reportAll e l n).lki = { n.lki with queue := (l.map (·.id)).eraseDups.foldl (fun q i =>
        match l.filter (fun x => x.id = i) with
        | [] => q
        | r :: rest => insertFrame q ⟨if r.cls = .alert then 0 else 1, i.origin, .zoneReport ⟨i.origin, i.seq,
            (r :: rest).map fun x => ⟨x.zone, (outcomeBytes x.outcome).1, (outcomeBytes x.outcome).2⟩⟩⟩) n.lki.queue } ∧
      (Net.reportAll e l n).pau = { n.pau with counts := { n.pau.counts with
        reportSent := bumpBy (l.map (·.id)).eraseDups.length n.pau.counts.reportSent } } ∧
      (Net.reportAll e l n).flt = n.flt) ∧
    (∀ (e : Env) (p : Play), p.evl.gateClosed = false →
      (p.boundaryDue e = false → p.finish e =
        { p with net := Net.flush e (Net.reportAll e p.net.pau.held { p.net with pau := { p.net.pau with held := [] } }) }) ∧
      (p.boundaryDue e = true → p.finish e =
        { p with net := Net.reportAll e p.net.pau.outbox { p.net with pau := { p.net.pau with outbox := [] } } }) ∧
      (p.boundaryDue e = true → p.finishBoundary e = { p with net := { p.net with pau :=
        { p.net.pau with held := p.net.pau.held ++ p.net.pau.outbox, outbox := [] } } }) ∧
      (p.boundaryDue e = false → p.finishBoundary e =
        { p with net := Net.reportAll e (p.net.pau.held ++ p.net.pau.outbox)
                     { p.net with pau := { p.net.pau with held := [], outbox := [] } } }))

/-- With no place free the fault CALL_TABLE_FULL is reported with the new record's platform as source, and a record is
evicted for it: of those in DEPARTED or COMPLETE the one with the least retire hold, else of those in CANCELLED the
one with the least, else of those in BOOKED that are due later than the newcomer the latest, the lowest index among
equals. The newcomer takes its place, the eviction is counted, the evicted call's LOCAL entries are left only where
they sound, and its originations are withdrawn. With no such record the newcomer is refused and counted (R8, R23). A
complete CALL_PLATFORM for a key not held and a covered platform creates its record with altered-in set, epoch 0 and
qualified, at the lowest free place (R12). Withdrawing origination entries in RUNNING, with ids held once, an open
zone in each and room in the queue: each selected entry has its withdrawn flag set with its zones, their outcomes and
its deadline as they were, and each that was not withdrawn before queues one WITHDRAW of granularity ANNOUNCEMENT with
its id, at urgency 1, to each owner of an open zone, each owner once (in table order and, within one, in the order of
the zone list, with 0 in the fields not used: the model's choices, log entries 66, 58 and 71), each counted; nothing
else of the Peer Announcement Unit and nothing of the Fault Log changes (R114). A removal of what carries a service
key withdraws the originations it selects by that rule, and so, with no trigger configured, a good CALL_CANCEL of a
live call withdraws those of its key and of another epoch than the new one (R13, R17, R114). -/
def Obligations.FullTableSettled : Prop :=
  ((∀ (s : State) (r : CallRec), s.ctb.freePlace = none →
      (∀ (i : Fin 96) (old : CallRec), s.ctb.places.get i = .held old → ¬ (old.code = r.code ∧ old.kind = r.kind)) →
      (s.ctb.victim r = none → s.create r = (s.onPlay fun e p => p.fault e .callTableFull r.platform).onCtb fun c =>
        { c with counts := { c.counts with refused := bump c.counts.refused } }) ∧
      (∀ i old, s.ctb.victim r = some (i, old) →
        (∃ r', (s.create r).ctb.places.get i = .held r' ∧ { r' with fired := r.fired } = r) ∧
        (∀ j, j ≠ i → (s.create r).ctb.places.get j = s.ctb.places.get j) ∧
        (s.create r).ctb.counts = { s.ctb.counts with evicted := bump s.ctb.counts.evicted } ∧
        (s.triggers = [] →
          (s.create r).play.net.flt = (Net.report s.env .callTableFull r.platform s.play.net).flt) ∧
        ((∃ k, s.play.net.flt.records.get k = none) → ∃ k x, (s.create r).play.net.flt.records.get k = some x ∧
          x.kind = .callTableFull ∧ x.source = r.platform) ∧
        (∀ o, ∀ en ∈ ((s.create r).play.zone o).queue, en.origin = .own → en.key = some old.key →
          en.sounding = true ∧ en.stale = true) ∧
        (∀ x ∈ (s.create r).play.net.pau.table, x.key = some old.key → x.withdrawn = true))) ∧
    (∀ (c : CallTable) (r : CallRec),
      (∀ i old, c.victim r = some (i, old) → c.places.get i = .held old ∧
        ((old.state = .departed ∨ old.state = .complete) ∧ (∀ j x, c.places.get j = .held x →
            x.state = .departed ∨ x.state = .complete →
            old.hold.getD 0 < x.hold.getD 0 ∨ old.hold.getD 0 = x.hold.getD 0 ∧ i ≤ j) ∨
          (∀ j x, c.places.get j = .held x → x.state ≠ .departed ∧ x.state ≠ .complete) ∧
            (old.state = .cancelled ∧ (∀ j x, c.places.get j = .held x → x.state = .cancelled →
                old.hold.getD 0 < x.hold.getD 0 ∨ old.hold.getD 0 = x.hold.getD 0 ∧ i ≤ j) ∨
              (∀ j x, c.places.get j = .held x → x.state ≠ .cancelled) ∧
                old.state = .booked ∧ r.expected < old.expected ∧ ∀ j x, c.places.get j = .held x → x.state = .booked →
                  x.expected < old.expected ∨ x.expected = old.expected ∧ i ≤ j))) ∧
      (c.victim r = none ↔ ∀ j x, c.places.get j = .held x → x.state ≠ .departed ∧ x.state ≠ .complete ∧
        x.state ≠ .cancelled ∧ (x.state = .booked → x.expected ≤ r.expected))) ∧
    (∀ (s : State) (env : Envelope) (f : CallPlatformFrame) (kind : CallKind) (shift : Int) (raw fields : CallFields)
        (i : Fin 96), s.TakesFrame env → f.key.kind ≤ 1 → s.checkKey f.key = some (kind, shift) →
      platformOk f.platform = true → f.complete = some raw → checkFields kind shift raw = some fields →
      s.ctb.find f.key.code kind = none → s.env.covers f.platform = true → s.ctb.freePlace = some i →
      ∃ t r, exec (.callPlatform env f) s = .next t ∧ t.ctb.places.get i = .held r ∧
        { r with fired := 0 } = newCall f.key.code kind f.platform fields true s.env.now ∧
        (∀ j, j ≠ i → t.ctb.places.get j = s.ctb.places.get j) ∧ t.ctb.counts = s.ctb.counts ∧ t.sck = s.sck)) ∧
    ((∀ (e : Env) (sel : Origination → Bool) (n : Net) (frames : List TxFrame), e.load = .running →
      (n.pau.table.map (·.id)).Nodup → (∀ x ∈ n.pau.table, ∃ z ∈ x.zones, z.outcome.final = false) →
      frames = (n.pau.table.filter fun x => sel x && !x.withdrawn).flatMap (fun x =>
        ((x.zones.filter fun z => !z.outcome.final).filterMap (·.owner)).eraseDups.map fun a =>
          ⟨1, a, .withdraw ⟨1, x.id.origin, x.id.seq, 0, 0, 0⟩⟩) →
      n.lki.queue.length + frames.length ≤ 16 → n.pau.counts.withdrawSent ≤ 65535 →
      Net.withdrawAll e sel n = { n with
        lki := { n.lki with queue := frames.foldl insertFrame n.lki.queue }
        pau := { n.pau with
          table := n.pau.table.map fun x => if sel x = true then { x with withdrawn := true } else x
          counts := { n.pau.counts with withdrawSent := bumpBy frames.length n.pau.counts.withdrawSent } } }) ∧
    (∀ (e : Env) (sel : Option ServiceKey → Option (BitVec 8) → Bool) (stop : Bool) (p : Play),
      (p.removeCalls e sel stop).net = Net.withdrawAll e (fun x => sel x.key x.epoch) p.net) ∧
    (∀ (s : State) (env : Envelope) (f : CallKeyFields) (kind : CallKind) (shift : Int) (i : Fin 96) (r : CallRec),
      s.TakesFrame env → s.Quiet → s.triggers = [] → f.kind ≤ 1 → s.checkKey f = some (kind, shift) →
      s.ctb.find f.code kind = some (i, r) → r.state.live = true →
      ∃ t, exec (.callCancel env f) s = .next t ∧ t.play.net = Net.withdrawAll s.env
        (fun x => x.key = some r.key && x.epoch ≠ some (r.epoch + 1)) s.tookGood.play.net))

/-- A good CALL_SET for a live call to another covered platform takes every field, returns the call to BOOKED,
increments its epoch and qualifies it; to an uncovered platform its place becomes free. Each leaves of the call's
LOCAL items of an earlier epoch only those that sound, each of them to stop, and so does CALL_CANCEL (R9, R13, R14,
R17). For a CANCELLED call a covered platform reinstates it, BOOKED with no retire hold, altered-in cleared, its epoch
incremented and qualified, and leaves of the items of an earlier epoch those that sound, with their stale mark set
(the model's choice for those, log entry 46); an uncovered one removes the record and changes nothing else (R10). A
call that was BOOKED keeps its state-entry instant (the model's choice, log entry 25). Where a CALL_DELAY or a
CALL_SET at the call's platform reaches the requalify threshold (DELAYED), and where an occupancy input clears under a
call at its platform (DEPARTED, COMPLETE), the LOCAL items of an earlier epoch that are left are those that sound,
with their stale mark set (R17). -/
def Obligations.CallMovesAndReturns : Prop :=
  (∀ (s : State) (env : Envelope) (f : CallSetFrame) (kind : CallKind) (shift : Int) (fields : CallFields)
      (i : Fin 96) (r : CallRec),
    s.TakesFrame env → f.key.kind ≤ 1 → s.checkKey f.key = some (kind, shift) → s.ctb.find f.key.code kind = some (i, r) →
    (platformOk f.platform = true → checkFields kind shift f.fields = some fields →
      (r.state.live = true → s.env.covers f.platform = true → f.platform ≠ r.platform →
        ∃ t r', exec (.callSet env f) s = .next t ∧ t.ctb.places.get i = .held r' ∧
          { r' with fired := r.fired } = ((r.take f.platform fields).enter .booked s.env.now).nextEpoch ∧
          (∀ j, j ≠ i → t.ctb.places.get j = s.ctb.places.get j) ∧ t.sck = s.sck ∧
          (∀ o, ∀ en ∈ (t.play.zone o).queue, en.origin = .own → en.key = some r.key → en.epoch ≠ some (r.epoch + 1) →
            en.isStopping = true)) ∧
      (r.state.live = true → s.env.covers f.platform = false →
        ∃ t, exec (.callSet env f) s = .next t ∧ t.ctb.places.get i = .free ∧
          (∀ j, j ≠ i → t.ctb.places.get j = s.ctb.places.get j) ∧ t.sck = s.sck ∧
          (∀ o, ∀ en ∈ (t.play.zone o).queue, en.origin = .own → en.key = some r.key → en.epoch ≠ some (r.epoch + 1) →
            en.isStopping = true)) ∧
      (r.state = .cancelled → s.env.covers f.platform = true →
        ∃ t r', exec (.callSet env f) s = .next t ∧ t.ctb.places.get i = .held r' ∧
          { r' with fired := r.fired } =
            { ((r.take f.platform fields).enter .booked s.env.now).nextEpoch with alteredIn := false } ∧
          (∀ j, j ≠ i → t.ctb.places.get j = s.ctb.places.get j) ∧ t.sck = s.sck ∧
          (∀ o, ∀ en ∈ (t.play.zone o).queue, en.origin = .own → en.key = some r.key → en.epoch ≠ some (r.epoch + 1) →
            en.sounding = true ∧ en.stale = true)) ∧
      (r.state = .cancelled → s.env.covers f.platform = false → s.Quiet →
        exec (.callSet env f) s = .next (s.tookGood.onCtb fun c => c.put i .free))) ∧
    (r.state.live = true → ∃ t, exec (.callCancel env f.key) s = .next t ∧
          (∀ o, ∀ en ∈ (t.play.zone o).queue, en.origin = .own → en.key = some r.key → en.epoch ≠ some (r.epoch + 1) →
            en.isStopping = true))) ∧
    ((∀ (s : State) (env : Envelope) (k : CallKeyFields) (kind : CallKind) (shift : Int) (m : Image) (i : Fin 96)
        (r : CallRec), s.TakesFrame env → k.kind ≤ 1 → s.checkKey k = some (kind, shift) → s.cfl.image = some m →
      s.ctb.find k.code kind = some (i, r) → r.state.live = true →
      (∀ f : CallDelayFrame, f.key = k → clampInt (-60) 720 f.delay ≠ r.delay →
        m.requalify ≤ (expectedTime r.booked (clampInt (-60) 720 f.delay) - r.qualified).natAbs →
        ∃ t, exec (.callDelay env f) s = .next t ∧
          (∀ o, ∀ en ∈ (t.play.zone o).queue, en.origin = .own → en.key = some r.key → en.epoch ≠ some (r.epoch + 1) →
            en.sounding = true ∧ en.stale = true)) ∧
      (∀ (f : CallSetFrame) (fields : CallFields), f.key = k → platformOk f.platform = true →
        checkFields kind shift f.fields = some fields → s.env.covers f.platform = true → f.platform = r.platform →
        fields.booked ≠ r.booked ∨ fields.delay ≠ r.delay →
        m.requalify ≤ (expectedTime fields.booked fields.delay - r.qualified).natAbs →
        ∃ t, exec (.callSet env f) s = .next t ∧
          (∀ o, ∀ en ∈ (t.play.zone o).queue, en.origin = .own → en.key = some r.key → en.epoch ≠ some (r.epoch + 1) →
            en.sounding = true ∧ en.stale = true))) ∧
    (∀ (s : State) (i : Fin 8) (n : Nat), s.cfl.load = .running → s.ctb.KeysDistinct →
      n ∈ s.platformsOf .occupancy i → (s.ctb.occupancy.get i).raw = false →
      (s.ctb.occupancy.get i).level = some true → (s.ctb.occupancy.get i).since + 2000 ≤ s.elapsed →
      ∃ t, exec (.occupancyClear i) s = .next t ∧ ∀ j r, s.ctb.places.get j = .held r → r.platform = n →
        r.state = .atPlatform →
          (∀ o, ∀ en ∈ (t.play.zone o).queue, en.origin = .own → en.key = some r.key → en.epoch ≠ some (r.epoch + 1) →
            en.sounding = true ∧ en.stale = true)))

/-- A trigger accepts a call by its kind select, by the masked bits of platform, category and operator, and by its
minimum delay (R41). At a call event the hit counter of every enabled STATE entry of that event that accepts the call
increments and no skip does; of these the first requests, and each other that is additive. While the clock is UNSET
every request is withheld and counted, one without a zone too and there alone (deduced, log entry 37), and otherwise
one without a zone is, and every other is counted as issued (R42, R53, R54). A request carries the trigger's number,
template and class, the snapshot, the zones of its zone platforms and its extra zones, the request time, its expiry
and its sync flag (R50, R51). -/
def Obligations.RequestsMatch : Prop :=
  (∀ (t : Trigger) (r : CallRec) (n : Nat), t.accepts r n = true ↔
      ((t.select = .any ∨ t.select = .arr ∧ r.kind = .arr ∨ t.select = .dep ∧ r.kind = .dep) ∧
        (∀ b : Nat, b < 6 → t.platMask.getLsbD b = true → t.platValue.getLsbD b = n.testBit b) ∧
        (∀ b : Nat, b < 3 → t.catMask.getLsbD b = true → t.catValue.getLsbD b = r.category.testBit b) ∧
        (∀ b : Nat, b < 4 → t.opMask.getLsbD b = true → t.opValue.getLsbD b = r.operator.testBit b) ∧
        (t.minDelay = 0 ∨ (t.minDelay : Int) ≤ r.delay))) ∧
    (∀ (e : Env) (t : Trigger) (l : List Nat) (z : Nat), z < 64 → ((e.requestZones t l).getLsbD z = true ↔
      t.extra.getLsbD z = true ∨ t.platformZones = true ∧ ∃ n ∈ l, ∃ c, e.platformCfg n = some c ∧
        ∃ (o : Out) (k : ZoneCfg), c.zones.getLsbD o.val = true ∧ e.zoneCfg o = some k ∧ k.zone = z)) ∧
    (∀ (s : State) (ev : CallEvent) (r : CallRec) (n : Nat) (l : List Nat) (m : Image)
        (found : List (Fin 32 × Trigger)) (asking : List (Fin 32 × Trigger)), s.cfl.image = some m →
      found = s.triggers.filter (fun t => t.2.enabled && t.2.kind = .state && t.2.event = some ev && t.2.accepts r n) →
      asking = found.take 1 ++ (found.drop 1).filter (fun t => t.2.additive) →
      s.tgu.issued ≤ 65535 → s.tgu.noZone ≤ 65535 → s.tgu.unsetHeld ≤ 65535 →
      (∀ k : Fin 32, (s.stateMatch ev r n l).tgu.hits.get k =
        (if (m.triggers[k.val]?).any (fun t => t.enabled && t.kind = .state && t.event = some ev && t.accepts r n)
          then bump (s.tgu.hits.get k) else s.tgu.hits.get k)) ∧
      (s.stateMatch ev r n l).tgu.skips = s.tgu.skips ∧ (s.stateMatch ev r n l).ctb = s.ctb ∧
      s.SameSurroundings (s.stateMatch ev r n l) ∧
      (s.sck.state = .unset → (s.stateMatch ev r n l).play = s.play ∧
        (s.stateMatch ev r n l).tgu.unsetHeld = bumpBy asking.length s.tgu.unsetHeld ∧
        (s.stateMatch ev r n l).tgu.issued = s.tgu.issued ∧ (s.stateMatch ev r n l).tgu.noZone = s.tgu.noZone) ∧
      (s.sck.state ≠ .unset → (s.stateMatch ev r n l).tgu.unsetHeld = s.tgu.unsetHeld ∧
        (s.stateMatch ev r n l).tgu.issued =
          bumpBy (asking.filter fun t => s.env.requestZones t.2 l ≠ 0).length s.tgu.issued ∧
        (s.stateMatch ev r n l).tgu.noZone =
          bumpBy (asking.filter fun t => s.env.requestZones t.2 l = 0).length s.tgu.noZone) ∧
      (∀ (k : Fin 32) (t : Trigger), asking = [(k, t)] → s.sck.state ≠ .unset → s.env.requestZones t l ≠ 0 →
        (s.stateMatch ev r n l).play = s.play.compose s.env
          { trigger := k, template := t.template, cls := t.cls, snap := r, zones := s.env.requestZones t l,
            issued := ⟨s.sck.day, s.sck.time⟩, expiryMs := t.expiry * 1000, sync := t.sync }))

/-- In an evaluation of a held live record with the clock set, a pair with an enabled LEAD entry that accepts the
record is due when its flag is clear and station time has reached expected time × 60,000 − lead × 1000. Every due pair
has its flag set; one more than the stale limit past its instant counts a skip, and every other a hit, of which the
first requests and each other that is additive (R44, R46). With the clock UNSET, or a record in an ended state,
nothing changes (R45). A re-arm clears the flags of LEAD entries whose instants lie ahead and no other (R48). -/
def Obligations.LeadsFire : Prop :=
  (∀ (s : State) (i : Fin 96) (r : CallRec) (m : Image) (due late : Trigger → Bool), s.ctb.places.get i = .held r →
      s.cfl.image = some m →
      (s.sck.state = .unset ∨ r.state.live = false → s.evaluate i = s) ∧
      (s.sck.state ≠ .unset → r.state.live = true → s.tgu.issued ≤ 65535 →
        (∀ t, late t = decide (r.expected * 60000 - (t.lead : Int) * 1000 + t.stale * 1000 < s.sck.time)) →
        (∀ t, due t = (t.enabled && t.kind = .lead && t.accepts r r.platform &&
          r.expected * 60000 - (t.lead : Int) * 1000 ≤ s.sck.time)) →
        (∀ k : Fin 32,
          (s.evaluate i).tgu.hits.get k = (if r.fired.getLsbD k.val = false ∧
            (m.triggers[k.val]?).any (fun t => due t && !late t) = true then bump (s.tgu.hits.get k) else s.tgu.hits.get k) ∧
          (s.evaluate i).tgu.skips.get k = (if r.fired.getLsbD k.val = false ∧
            (m.triggers[k.val]?).any (fun t => due t && late t) = true then bump (s.tgu.skips.get k)
            else s.tgu.skips.get k)) ∧
        (∃ r', (s.evaluate i).ctb.places.get i = .held r' ∧ { r' with fired := r.fired } = r ∧
          ∀ k : Fin 32, r'.fired.getLsbD k.val = (r.fired.getLsbD k.val || (m.triggers[k.val]?).any due)) ∧
        (∀ j, j ≠ i → (s.evaluate i).ctb.places.get j = s.ctb.places.get j) ∧ s.SameSurroundings (s.evaluate i) ∧
        (∀ fresh : List (Fin 32 × Trigger),
          fresh = s.triggers.filter (fun t => due t.2 && !late t.2 && !r.fired.getLsbD t.1.val) →
          (s.evaluate i).tgu.issued = bumpBy (((fresh.take 1 ++ (fresh.drop 1).filter (fun t => t.2.additive))).filter
            fun t => s.env.requestZones t.2 [r.platform] ≠ 0).length s.tgu.issued ∧
          (fresh = [] → (s.evaluate i).play = s.play)))) ∧
    (∀ (s : State) (i : Fin 96) (r : CallRec) (m : Image), s.ctb.places.get i = .held r → s.cfl.image = some m →
      ∃ r', (s.rearm i).ctb.places.get i = .held r' ∧ { r' with fired := r.fired } = r ∧
        ∀ k : Fin 32, r'.fired.getLsbD k.val = (r.fired.getLsbD k.val && !(m.triggers[k.val]?).any fun t =>
          t.kind = .lead && (s.sck.time : Int) < r.expected * 60000 - (t.lead : Int) * 1000))

/-- For the meter windows of a running survey. BASELINE takes the first four windows that begin at or after its start
(measured from the millisecond of the start, the model's choice, log entry 51); Nb is the floor of their mean, and the
start probe follows with a channel request (R164, R165). A probe takes the windows that end after its start and at or
before its end; at its end the output falls silent and TAIL follows (R165). The TAIL window is the first that begins
at or after the probe's end: the probe is scored a × (Lp − Nb − b) + (16 − a) × (c − (Lt − Nb)), a strictly greater
score becomes the best and clears the misses, and any other counts a miss (R166). The next valid candidate is probed,
or, with more misses than look-beyond or no candidate left, the survey ends IMPROVED with the best candidate's index
and P, or KEPT, and the zone is released (R166, R167). -/
def Obligations.SurveyCourse : Prop :=
  ∀ (e : Env) (o : Out) (p : Play) (v : Survey) (w : SurveyWork) (l : Nat), p.surveyAt o = v → v.work = some w →
    (v.phase = .baseline →
      (e.elapsed < w.entered + 128 → p.surveyWindow e o l = p) ∧
      (w.entered + 128 ≤ e.elapsed →
        (w.levels.length < 3 → p.surveyWindow e o l =
          p.onSurvey o fun _ => { v with work := some { w with levels := w.levels ++ [l] } }) ∧
        (w.levels.length = 3 → (p.surveyWindow e o l).surveyAt o = { v with
            phase := .probe
            work := some { w with
              levels := [], nb := some ((w.levels.sum + l) / 4), current := .active, asked := e.elapsed
              probeStart := none, probeEnd := none } } ∧
          (p.cfu.waiting = [] → (p.surveyWindow e o l).hasRequest o (.probe o v.params.probe) = true)))) ∧
    (v.phase = .probe → ∀ x, w.probeStart = some x →
      (x < e.elapsed → p.surveyWindow e o l =
        p.onSurvey o fun _ => { v with work := some { w with levels := w.levels ++ [l] } }) ∧
      (e.elapsed ≤ x → p.surveyWindow e o l = p) ∧
      (w.abort = none → (p.endProbe e o).surveyAt o = { v with
          phase := .tail, work := some { w with probeEnd := some e.elapsed } } ∧
        ((p.endProbe e o).levelAt o).out = .zero)) ∧
    (v.phase = .tail → ∀ x y, w.probeStart = some x → w.probeEnd = some y → x < y →
      (y = e.elapsed → p.surveyWindow e o l =
        p.onSurvey o fun _ => { v with work := some { w with levels := w.levels ++ [l] } }) ∧
      (y < e.elapsed → e.elapsed < y + 128 → p.surveyWindow e o l = p) ∧
      (y + 128 ≤ e.elapsed → ∀ (nb lp : Nat) (score : Int) (better : Bool) (d : SurveyWork), nb = w.nb.getD 0 →
        lp = (match w.levels with
          | [] => nb
          | [a] => a
          | _ :: rest => rest.sum / rest.length) →
        score = (v.params.a : Int) * ((lp : Int) - nb - v.params.b) +
          (16 - (v.params.a : Int)) * ((v.params.c : Int) - ((l : Int) - nb)) →
        (better = true ↔ ∀ b, w.bestScore = some b → b < score) →
        d = { w with
          probes := w.probes ++ [⟨w.current, v.probeCurve w.current, lp, l, score⟩]
          bestScore := if better then some score else w.bestScore
          best := if better then some w.current else w.best
          bestLp := if better then lp else w.bestLp
          misses := if better then 0 else w.misses + 1 } →
        (∀ i : Nat, d.misses ≤ v.params.lookBeyond → w.nextIndex ≤ i → i < 16 →
          (v.candidates[i]?).any (fun c => c.valid) = true →
          (∀ j, w.nextIndex ≤ j → j < i → (v.candidates[j]?).any (fun c => c.valid) = false) →
          (p.surveyWindow e o l).surveyAt o = { v with
            phase := .probe
            work := some { d with nextIndex := i + 1, current := .candidate i, asked := e.elapsed,
                                  probeStart := none, probeEnd := none, levels := [] } }) ∧
        (v.params.lookBeyond < d.misses ∨
            (∀ j, w.nextIndex ≤ j → j < 16 → (v.candidates[j]?).any (fun c => c.valid) = false) →
          ((p.surveyWindow e o l).zone o).survey = false ∧ ((p.surveyWindow e o l).levelAt o).discard = true ∧
          (∀ i : Nat, d.best = some (.candidate i) → ∀ offset : Int,
            offset = max (-16) (min 15 ((v.params.tref : Int) - ((d.bestLp : Int) - nb))) →
            (p.surveyWindow e o l).surveyAt o = { v with
              phase := .none, work := none, preset := some i, offset := offset
              record := ⟨.improved, none, some w.begun, some w.starter, w.nb, d.probes, some i, some offset⟩ } ∧
            (p.surveyWindow e o l).vsu.counts = { p.vsu.counts with improved := bump p.vsu.counts.improved }) ∧
          ((∀ i : Nat, d.best ≠ some (.candidate i)) →
            (p.surveyWindow e o l).surveyAt o = { v with
              phase := .none, work := none
              record := ⟨.kept, none, some w.begun, some w.starter, w.nb, d.probes, none, none⟩ } ∧
            (p.surveyWindow e o l).vsu.counts = { p.vsu.counts with kept := bump p.vsu.counts.kept }))))

/-- The cap in quiet hours is min(Gmax, max(Gmin, Qcap)) for SERVICE and INFO and Gmax otherwise (R147). A gain
computation sets the last target T, and the gain to T at a start from idle and to G + clamp(T − G, −S, +S) otherwise,
on that output alone (R149). An item that starts takes T from idle and slews where another entry of its zone ended or
stopped at that boundary, with the curve of the active preset latched (R83, R149, R150); an output without a
configured zone plays at 180 with curve 0 (R152). An output carries a zero block as zeros, and a block of samples as
the shaped samples, which are free values within −32768..32767 (log entry 4), each scaled by the gain table (R150,
R151). -/
def Obligations.GainApplied : Prop :=
  (∀ (z : ZoneCfg) (cls : AnnClass) (quiet : Bool), z.gmin ≤ z.gmax →
      ((cls = .service ∨ cls = .info) ∧ quiet = true → upperCap z cls quiet = min z.gmax (max z.gmin z.qcap)) ∧
      (¬ ((cls = .service ∨ cls = .info) ∧ quiet = true) → upperCap z cls quiet = z.gmax)) ∧
    (∀ (e : Env) (o : Out) (cls : AnnClass) (p : Play),
      (∀ (i : Image) (z : ZoneCfg) (t : Nat), e.image = some i → e.zoneCfg o = some z →
        t = gainTarget i z cls (wholeNoise (p.levelAt o).n16) (p.surveyAt o).offset e.quiet →
        p.computeGain e o cls true = p.onLevel o (fun l => { l with gain := t, target := some t }) ∧
        (∃ g : Nat, p.computeGain e o cls false = p.onLevel o (fun l => { l with gain := g, target := some t }) ∧
          (g : Int) = (p.levelAt o).gain + clampInt (-(i.slew : Int)) i.slew ((t : Int) - (p.levelAt o).gain)) ∧
        ∀ idle, ((p.gainAtStart e o cls idle).levelAt o).curve = (p.surveyAt o).curve ∧
          ((p.gainAtStart e o cls idle).levelAt o).gain = ((p.computeGain e o cls idle).levelAt o).gain) ∧
      (e.zoneCfg o = none → p.computeGain e o cls true = p ∧ p.computeGain e o cls false = p ∧
        ∀ idle, p.gainAtStart e o cls idle =
          p.onLevel o (fun l => { l with gain := 180, curve := 0, target := none }))) ∧
    (∀ (o : Out) (p : Play), ((p.carry o .zero).levelAt o).out = .zero ∧
      ∀ samples : List Int, ∃ xs : List Int, xs.length = samples.length ∧ (∀ x ∈ xs, -32768 ≤ x ∧ x ≤ 32767) ∧
        ((p.carry o (.audio samples)).levelAt o).out =
          .audio (xs.map (scaleSample (gainEntry (p.levelAt o).gain))) ∧
        ∀ q, q ≠ o → (p.carry o (.audio samples)).levelAt q = p.levelAt q) ∧
    (∀ (s : State) (ch : Chan) (id : AnnId) (o : Out) (en : Entry) (b : Block), s.elapsed % 16 = 0 → 0 < s.elapsed →
      (s.play.chan ch).served = some (.body id) → (s.play.chan ch).state = .granted → (s.play.chan ch).cls ≠ .evac →
      (s.play.chan ch).boundary ≠ s.elapsed → (s.play.chan ch).next = some b →
      outsOf (s.play.chan ch).members = [o] → (s.play.zone o).queue.find? (fun x => x.id = id) = some en →
      en.state = .starting →
      ∃ t, exec (.channelStart ch) s = .next t ∧
        ((∀ m, (s.play.zone o).lastStop = some m → m.elapsed = s.elapsed → m.order = en.order) →
          t.play.lvc = ((s.play.gainAtStart s.env o en.cls true).carry o b).lvc) ∧
        (∀ m, (s.play.zone o).lastStop = some m → m.elapsed = s.elapsed → m.order ≠ en.order →
          t.play.lvc = ((s.play.gainAtStart s.env o en.cls false).carry o b).lvc))

/-- An offer to an output without an owned zone in RUNNING is refused NOT_OWNED; one whose id the queue holds changes
nothing; one whose expiry is reached is dropped EXPIRED (R79). To an IDLE zone with an empty queue, with a channel
FREE, no request waiting and nothing to hold the entry back, the entry enters STARTING, its reference is counted, and
the FREE channel of lowest number (the model's choice of which, log entry 22) serves its body (R82, R130, R131). An
entry more urgent than the RENDERING one stands before it, QUEUED, and that one is to stop for PREEMPT, at the next
block boundary for EVAC (R88). With eight entries the offer displaces the last QUEUED one when more urgent than it,
and is refused QUEUE_FULL otherwise (R80). -/
def Obligations.OffersSettled : Prop :=
  ∀ (e : Env) (o : Out) (en : Entry) (p : Play),
    ((p.zone o).id = none → e.load = .running → (p.offer e o en).zpc =
      { p.zpc with counts := { p.zpc.counts with notOwned := bump p.zpc.counts.notOwned } } ∧
      (p.offer e o en).cmu = p.cmu ∧ (p.offer e o en).cfu = p.cfu) ∧
    ((∃ x ∈ (p.zone o).queue, x.id = en.id) → (p.zone o).id.isSome = true → p.offer e o en = p) ∧
    ((p.zone o).id.isSome = true → (p.zone o).faulted = false → (∀ x ∈ (p.zone o).queue, x.id ≠ en.id) →
      (e.expired en = true → (p.offer e o en).zpc =
        { p.zpc with counts := { p.zpc.counts with expired := bump p.zpc.counts.expired } } ∧
        (p.offer e o en).cmu = p.cmu ∧ (p.offer e o en).cfu = p.cfu) ∧
      (e.expired en = false →
        (∀ ch : Chan, (p.zone o).survey = false → (p.zone o).queue = [] → (p.evl.active = false ∨ en.cls = .evac) →
          e.syncReached en = true → p.cfu.waiting = [] → (∀ d, (p.chan d).served ≠ some (.body en.id)) →
          (p.chan ch).state = .free → (∀ d, d < ch → (p.chan d).state ≠ .free) →
          ((p.offer e o en).zone o).queue = [{ en with
            order := (p.zone o).nextOrder, state := .starting, seg := 0, pass := 0 }] ∧
          (∀ q, q ≠ o → (p.offer e o en).zone q = p.zone q) ∧ (p.offer e o en).cmu = (p.addRef en).cmu ∧
          ((p.offer e o en).chan ch).served = some (.body en.id) ∧ ((p.offer e o en).chan ch).cls = en.cls ∧
          outsOf ((p.offer e o en).chan ch).members = [o] ∧
          (∀ d, d ≠ ch → (p.offer e o en).chan d = p.chan d) ∧
          (p.offer e o en).zpc.counts = p.zpc.counts) ∧
        (∀ x : Entry, (p.zone o).survey = false → (p.zone o).queue = [x] → x.state = .rendering →
          moreUrgent en.cls x.cls = true →
          ((p.offer e o en).zone o).queue = [{ en with
              order := (p.zone o).nextOrder, state := .queued, seg := 0, pass := 0 },
            { x with state := .stopping ⟨none, true, false, false, false, false, decide (en.cls = .evac)⟩ }] ∧
          (∀ q, q ≠ o → (p.offer e o en).zone q = p.zone q) ∧ (p.offer e o en).cfu = p.cfu) ∧
        (8 ≤ (p.zone o).queue.length → ∀ (before after : List Entry) (x : Entry),
          (p.zone o).queue = before ++ x :: after → x.state = .queued → (∀ y ∈ after, y.state ≠ .queued) →
          (moreUrgent en.cls x.cls = true →
            (∃ y ∈ ((p.offer e o en).zone o).queue, y.id = en.id) ∧
            (∀ y ∈ ((p.offer e o en).zone o).queue, y.id ≠ x.id) ∧
            (p.offer e o en).zpc.counts = { p.zpc.counts with displaced := bump p.zpc.counts.displaced }) ∧
          (moreUrgent en.cls x.cls = false → (p.offer e o en).zpc =
            { p.zpc with counts := { p.zpc.counts with queueFull := bump p.zpc.counts.queueFull } } ∧
            (p.offer e o en).cmu = p.cmu ∧ (p.offer e o en).cfu = p.cfu))))

/-- With evacuation released, an entry that stops for PREEMPT, something more urgent still standing in its queue, or
for THEFT: with its stale mark clear and replay allowance 1 it stays in the queue at segment 0, pass 0 with allowance
0, at its place, and nothing is counted; one whose expiry is reached is dropped EXPIRED; with allowance 0 it is
dropped PREEMPTED; with its stale mark set it is dropped CALL_ENDED. One that holds EVAC_END is removed DONE. In each
case the output falls silent and the discard mark is set (R88, R89, R91, R143). -/
def Obligations.StopsSettled : Prop :=
  ∀ (s : State) (ch : Chan) (id : AnnId) (o : Out) (en : Entry) (c : StopCause),
    (s.play.chan ch).served = some (.body id) → (s.play.zone o).queue.find? (fun x => x.id = id) = some en →
    s.play.stopDue s.env ch = [o] → en.state = .stopping c → c.drop = none → s.play.evl.active = false →
    ∃ t, exec (.stopPointReached ch) s = .next t ∧ s.SameTables t ∧
      (c.evacEnd = true → (t.play.levelAt o).out = .zero ∧ (t.play.levelAt o).discard = true ∧
        (∀ x ∈ (t.play.zone o).queue, x.id ≠ id) ∧
        t.play.zpc.counts = { s.play.zpc.counts with done := bump s.play.zpc.counts.done }) ∧
      (c.evacEnd = false → c.fault = false →
        (c.theft = true ∨ ∃ x ∈ (s.play.zone o).queue, x.id ≠ id ∧ moreUrgent x.cls en.cls = true) →
        (t.play.levelAt o).out = .zero ∧ (t.play.levelAt o).discard = true ∧
        (en.stale = true → (∀ x ∈ (t.play.zone o).queue, x.id ≠ id) ∧
          t.play.zpc.counts = { s.play.zpc.counts with callEnded := bump s.play.zpc.counts.callEnded }) ∧
        (en.stale = false → en.allowance ≠ 1 → (∀ x ∈ (t.play.zone o).queue, x.id ≠ id) ∧
          t.play.zpc.counts = { s.play.zpc.counts with preempted := bump s.play.zpc.counts.preempted }) ∧
        (en.stale = false → en.allowance = 1 → s.env.expired en = true → (∀ x ∈ (t.play.zone o).queue, x.id ≠ id) ∧
          t.play.zpc.counts = { s.play.zpc.counts with expired := bump s.play.zpc.counts.expired }) ∧
        (en.stale = false → en.allowance = 1 → s.env.expired en = false →
          (t.play.zone o).queue.map (·.id) = (s.play.zone o).queue.map (·.id) ∧
          t.play.zpc.counts = s.play.zpc.counts ∧
          ∃ x ∈ (t.play.zone o).queue, { x with state := .queued } =
            { en with state := .queued, seg := 0, pass := 0, allowance := 0 } ∧
            (x.state = .queued ∨ x.state = .starting)))

/-- A fallback qualifies for an entry when it is configured, carries an owned zone that is not FAULTED, and does not
hold the id (R97). A moved entry with its stale mark clear enters the fallback with its id, class, origin, key, epoch,
instants and allowance, in that zone's arrival order and under its zone id, with no new reference, and a REMOTE one is
told REDIRECTED; expired, it is dropped EXPIRED under the fallback's id after the REDIRECTED; with no fallback it is
dropped ZONE_FAULT; with its stale mark set it is dropped CALL_ENDED (R89, R98, R99). An offer to a FAULTED zone that
the fallback takes is a new reference and told REDIRECTED in place of QUEUED; one that no fallback takes is dropped
ZONE_FAULT, counted under that reason (deduced, log entry 34) (R100). A FAULTED zone whose line is up, with nothing
sounding, returns; any other stays (R101). -/
def Obligations.FaultedZonesMove : Prop :=
  ∀ (e : Env) (p : Play) (o : Out) (en : Entry),
    (∀ (f : Out) (z : Nat), p.fallback e o en.id = some (f, z) ↔
      ∃ c, e.zoneCfg o = some c ∧ c.fallback = some f ∧ (p.zone f).id = some z ∧ (p.zone f).faulted = false ∧
        ∀ x ∈ (p.zone f).queue, x.id ≠ en.id) ∧
    (en.stale = true → (p.moveAway e o en).zpc =
        { p.zpc with counts := { p.zpc.counts with callEnded := bump p.zpc.counts.callEnded } } ∧
      ((∀ a, en.origin ≠ .remote a) → (p.moveAway e o en).net = p.net) ∧
        (∀ a, en.origin = .remote a → (p.moveAway e o en).net.pau.outbox = p.net.pau.outbox ++ [⟨en.id, en.cls, en.reported, .dropped 10⟩])) ∧
    (p.fallback e o en.id = none → en.stale = false → (p.moveAway e o en).zpc =
        { p.zpc with counts := { p.zpc.counts with zoneFault := bump p.zpc.counts.zoneFault } } ∧
      ((∀ a, en.origin ≠ .remote a) → (p.moveAway e o en).net = p.net) ∧
        (∀ a, en.origin = .remote a → (p.moveAway e o en).net.pau.outbox = p.net.pau.outbox ++ [⟨en.id, en.cls, en.reported, .dropped 7⟩])) ∧
    (p.fallback e o en.id = none → (p.redirect e o en).zpc =
        { p.zpc with counts := { p.zpc.counts with zoneFault := bump p.zpc.counts.zoneFault } } ∧
      (p.redirect e o en).cmu = p.cmu ∧ (p.redirect e o en).cfu = p.cfu ∧
      ((∀ a, en.origin ≠ .remote a) → (p.redirect e o en).net = p.net) ∧
        (∀ a, en.origin = .remote a → (p.redirect e o en).net.pau.outbox = p.net.pau.outbox ++ [⟨en.id, en.cls, en.reported, .dropped 7⟩])) ∧
    (∀ (f : Out) (z : Nat), p.fallback e o en.id = some (f, z) →
      (e.expired en = true →
        (en.stale = false → (p.moveAway e o en).zpc =
            { p.zpc with counts := { p.zpc.counts with expired := bump p.zpc.counts.expired } } ∧
          ((∀ a, en.origin ≠ .remote a) → (p.moveAway e o en).net = p.net) ∧
        (∀ a, en.origin = .remote a → (p.moveAway e o en).net.pau.outbox = p.net.pau.outbox ++ [⟨en.id, en.cls, en.reported, .redirected z⟩, ⟨en.id, en.cls, z, .dropped 2⟩])) ∧
        (p.redirect e o en).zpc =
          { p.zpc with counts := { p.zpc.counts with zoneFault := bump p.zpc.counts.zoneFault } } ∧
        ((∀ a, en.origin ≠ .remote a) → (p.redirect e o en).net = p.net) ∧
        (∀ a, en.origin = .remote a → (p.redirect e o en).net.pau.outbox = p.net.pau.outbox ++ [⟨en.id, en.cls, en.reported, .dropped 7⟩])) ∧
      (e.expired en = false → (p.zone f).queue.length < 8 →
        (en.stale = false → (p.moveAway e o en).cmu = p.cmu ∧ (p.moveAway e o en).zpc.counts = p.zpc.counts ∧
          (∃ x ∈ ((p.moveAway e o en).zone f).queue, { x with state := .queued } = { en with
            order := (p.zone f).nextOrder, reported := z, state := .queued, seg := 0, pass := 0 } ∧
            (x.state = .queued ∨ x.state = .starting)) ∧
          ((∀ a, en.origin ≠ .remote a) → (p.moveAway e o en).net = p.net) ∧
        (∀ a, en.origin = .remote a → (p.moveAway e o en).net.pau.outbox = p.net.pau.outbox ++ [⟨en.id, en.cls, en.reported, .redirected z⟩])) ∧
        (p.redirect e o en).cmu = (p.addRef en).cmu ∧ (p.redirect e o en).zpc.counts = p.zpc.counts ∧
        (∃ x ∈ ((p.redirect e o en).zone f).queue, { x with state := .queued } = { en with
          order := (p.zone f).nextOrder, reported := z, state := .queued, seg := 0, pass := 0 }) ∧
        ((∀ a, en.origin ≠ .remote a) → (p.redirect e o en).net = p.net) ∧
        (∀ a, en.origin = .remote a → (p.redirect e o en).net.pau.outbox = p.net.pau.outbox ++ [⟨en.id, en.cls, en.reported, .redirected z⟩]))) ∧
    ((p.zone o).faulted = true →
      (p.lineDown o = true ∨ (∃ x ∈ (p.zone o).queue, x.sounding = true) → p.recoverZone e o = p) ∧
      (p.lineDown o = false → (∀ x ∈ (p.zone o).queue, x.sounding = false) →
        ((p.recoverZone e o).zone o).faulted = false))

/-- The built-in body is LOOP(4032, 8 s), PHRASE(4033), SILENCE(20 steps), and a list that renders nothing gives one
250 ms SILENCE (R73, R171). While the gate is closed no channel of the evacuation body is due to start; with the gate
open it starts as any other, but at a later boundary than one that was taken before the gate opened (which boundary
counts as taken, and that boundaries stand at multiples of 16 ms, are the model's choices, log entries 43 and 10)
(R131, R172). The gate opens when every counted output holds no EVAC entry or one STARTING with its request, and stays
closed otherwise. The re-offers on entry to RUNNING leave the gate as it is, and those of a soft restart during
evacuation close it (R172, R174). A FAULTED zone that returns during evacuation, its line up and its queue empty, and
an owned zone whose EVAC entry has left it, hold the EVAC entry again, with the held body's id in use, or that of a
new body (R101, R174). -/
def Obligations.EvacuationStartsTogether : Prop :=
  (∀ (b : PhraseBases) (day : Nat),
      evacSegments b day builtInEvac = [.loop 4032 8, .phrase 4033, .silence 20] ∧ evacSegments b day [] = [.silence 5]) ∧
    (∀ (e : Env) (p : Play) (ch : Chan), (p.chan ch).cls = .evac →
      (p.evl.gateClosed = true → p.startDue e ch = false) ∧
      (p.evl.gateClosed = false → (p.startDue e ch = true ↔ (p.chan ch).state = .granted ∧ e.elapsed % 16 = 0 ∧
        0 < e.elapsed ∧ (p.chan ch).boundary ≠ e.elapsed ∧ p.evl.openedAt ≠ some e.elapsed))) ∧
    (∀ p : Play, p.evl.gateClosed = true →
      ((∀ o : Out, p.evl.counted.getLsbD o.val = true → ∀ en, (p.zone o).queue.find? (fun x => x.cls = .evac) = some en →
          en.state = .starting ∧ p.hasRequest o (.body en.id) = true) →
        p.gateCheck = { p with evl := { p.evl with
          gateClosed := false, openedAt := some p.cfu.boundaryAt, counted := 0 } }) ∧
      (∀ (o : Out) (en : Entry), p.evl.counted.getLsbD o.val = true →
        (p.zone o).queue.find? (fun x => x.cls = .evac) = some en →
        en.state ≠ .starting ∨ p.hasRequest o (.body en.id) = false → p.gateCheck = p)) ∧
    (∀ (e : Env) (p : Play), p.evl.active = true →
      (p.reofferAll e).evl.gateClosed = p.evl.gateClosed ∧ (p.reofferRestart e).evl.gateClosed = true ∧
      (p.reofferRestart e).evl.active = true) ∧
    (∀ (e : Env) (p : Play) (o : Out) (id : AnnId), p.evl.active = true → (p.zone o).id.isSome = true →
      p.lineDown o = false → (p.zone o).survey = false →
      (∀ b, p.cmu.evacSlot = some b → p.evl.idInUse = some id) → (p.cmu.evacSlot = none → id = ⟨e.own, 0⟩) →
      ((p.zone o).faulted = true → (p.zone o).queue = [] → ∃ en ∈ ((p.recoverZone e o).zone o).queue,
        en.id = id ∧ en.cls = .evac ∧ en.origin = .evac ∧ (en.state = .queued ∨ en.state = .starting)) ∧
      (∀ gone : Entry, (p.zone o).faulted = false → gone.cls = .evac → gone.restarting = false →
        (p.zone o).queue.length < 8 → (∀ x ∈ (p.zone o).queue, x.cls ≠ .evac ∧ x.id ≠ id) →
        ∃ en ∈ ((p.afterStop e o gone).zone o).queue, en.id = id ∧ en.cls = .evac ∧ en.origin = .evac))

/-- From every state in which each zone queue holds at most 8 entries of distinct ids, ordered by class and then by
arrival, every step that answers next gives such a state again (R78, R80). That arrival orders lie below the next one
to give out is about the model's own counter (log entry 19). -/
def Obligations.ZonesStayOrdered : Prop :=
  ∀ s t : State, (∀ o, (s.play.zone o).Ordered) → step s = .next t → ∀ o, (t.play.zone o).Ordered

/-- From every state in which no two held records have the same service code and kind, every step that answers next
gives such a state again (R3). -/
def Obligations.KeysStayDistinct : Prop :=
  ∀ s t : State, s.ctb.KeysDistinct → step s = .next t → t.ctb.KeysDistinct

/-- From every state whose transmit queue holds at most 16 frames, every step that answers next gives such a state
again (R181); and from every state whose valid fault records are of distinct kinds and sources, every step gives such
a state again (R194). -/
def Obligations.LinkAndLogStayValid : Prop :=
  ∀ s t : State, step s = .next t →
    (s.play.net.lki.Valid → t.play.net.lki.Valid) ∧ (s.play.net.flt.Distinct → t.play.net.flt.Distinct)

/-- From every state in which the count of every held body is the number of queue entries that refer to it, with what
keeps it so (State.RefsCounted: each queue's ids and the slots' ids distinct, every entry with its body, the
evacuation slot for EVAC entries alone, no body in hand, no trigger of class EVAC, at most 16 originations), every
step that answers next gives such a state again (R39, R66, R69, R108). -/
def Obligations.RefsStayCounted : Prop :=
  ∀ s t : State, s.RefsCounted → step s = .next t → t.RefsCounted

/-- Right after reset station time lies within the service day, and time and day are 0 with no day end due in UNSET
(R27, R28); every zone queue is in order (R78), the keys of the held records are distinct (R3), the transmit queue is
within its bound (R181), the fault records are distinct (R194), and every body's count is the number of entries that
refer to it (R69). -/
def Obligations.InvariantsAtReset : Prop :=
  State.reset.sck.Valid ∧ (∀ o, (State.reset.play.zone o).Ordered) ∧ State.reset.ctb.KeysDistinct ∧
    State.reset.play.net.lki.Valid ∧ State.reset.play.net.flt.Distinct ∧ State.reset.RefsCounted
end

