-- ==== Sys2Proof/Laws/State.lean ====
section
/-! SUPPORT. What each block-structured update leaves and changes: one lemma for each field of each update, so that no
proof unfolds a record update. -/
namespace Sys2Proof.Machine

/-! ### `State` -/

@[simp] theorem State.onPlay_play (s : State) (f : Env → Play → Play) : (s.onPlay f).play = f s.env s.play := rfl
@[simp] theorem State.onPlay_sck (s : State) (f : Env → Play → Play) : (s.onPlay f).sck = s.sck := rfl
@[simp] theorem State.onPlay_ctb (s : State) (f : Env → Play → Play) : (s.onPlay f).ctb = s.ctb := rfl
@[simp] theorem State.onPlay_tgu (s : State) (f : Env → Play → Play) : (s.onPlay f).tgu = s.tgu := rfl
@[simp] theorem State.onPlay_cfl (s : State) (f : Env → Play → Play) : (s.onPlay f).cfl = s.cfl := rfl
@[simp] theorem State.onPlay_elapsed (s : State) (f : Env → Play → Play) : (s.onPlay f).elapsed = s.elapsed := rfl
@[simp] theorem State.onPlay_pending (s : State) (f : Env → Play → Play) : (s.onPlay f).pending = s.pending := rfl
@[simp] theorem State.onPlay_env (s : State) (f : Env → Play → Play) : (s.onPlay f).env = s.env := rfl

@[simp] theorem State.onNet_play (s : State) (f : Env → Net → Net) : (s.onNet f).play = s.play.onNet (f s.env) := rfl
@[simp] theorem State.onNet_sck (s : State) (f : Env → Net → Net) : (s.onNet f).sck = s.sck := rfl
@[simp] theorem State.onNet_ctb (s : State) (f : Env → Net → Net) : (s.onNet f).ctb = s.ctb := rfl
@[simp] theorem State.onNet_tgu (s : State) (f : Env → Net → Net) : (s.onNet f).tgu = s.tgu := rfl
@[simp] theorem State.onNet_cfl (s : State) (f : Env → Net → Net) : (s.onNet f).cfl = s.cfl := rfl
@[simp] theorem State.onNet_elapsed (s : State) (f : Env → Net → Net) : (s.onNet f).elapsed = s.elapsed := rfl
@[simp] theorem State.onNet_pending (s : State) (f : Env → Net → Net) : (s.onNet f).pending = s.pending := rfl
@[simp] theorem State.onNet_env (s : State) (f : Env → Net → Net) : (s.onNet f).env = s.env := rfl

@[simp] theorem State.onLki_play (s : State) (f : LinkUnit → LinkUnit) :
    (s.onLki f).play = s.play.onNet fun n => { n with lki := f n.lki } := rfl
@[simp] theorem State.onLki_sck (s : State) (f : LinkUnit → LinkUnit) : (s.onLki f).sck = s.sck := rfl
@[simp] theorem State.onLki_ctb (s : State) (f : LinkUnit → LinkUnit) : (s.onLki f).ctb = s.ctb := rfl
@[simp] theorem State.onLki_tgu (s : State) (f : LinkUnit → LinkUnit) : (s.onLki f).tgu = s.tgu := rfl
@[simp] theorem State.onLki_cfl (s : State) (f : LinkUnit → LinkUnit) : (s.onLki f).cfl = s.cfl := rfl
@[simp] theorem State.onLki_elapsed (s : State) (f : LinkUnit → LinkUnit) : (s.onLki f).elapsed = s.elapsed := rfl
@[simp] theorem State.onLki_pending (s : State) (f : LinkUnit → LinkUnit) : (s.onLki f).pending = s.pending := rfl
@[simp] theorem State.onLki_env (s : State) (f : LinkUnit → LinkUnit) : (s.onLki f).env = s.env := rfl

@[simp] theorem State.onFlt_play (s : State) (f : FaultLog → FaultLog) :
    (s.onFlt f).play = s.play.onNet fun n => { n with flt := f n.flt } := rfl
@[simp] theorem State.onFlt_sck (s : State) (f : FaultLog → FaultLog) : (s.onFlt f).sck = s.sck := rfl
@[simp] theorem State.onFlt_ctb (s : State) (f : FaultLog → FaultLog) : (s.onFlt f).ctb = s.ctb := rfl
@[simp] theorem State.onFlt_tgu (s : State) (f : FaultLog → FaultLog) : (s.onFlt f).tgu = s.tgu := rfl
@[simp] theorem State.onFlt_cfl (s : State) (f : FaultLog → FaultLog) : (s.onFlt f).cfl = s.cfl := rfl
@[simp] theorem State.onFlt_elapsed (s : State) (f : FaultLog → FaultLog) : (s.onFlt f).elapsed = s.elapsed := rfl
@[simp] theorem State.onFlt_pending (s : State) (f : FaultLog → FaultLog) : (s.onFlt f).pending = s.pending := rfl
@[simp] theorem State.onFlt_env (s : State) (f : FaultLog → FaultLog) : (s.onFlt f).env = s.env := rfl

@[simp] theorem State.onSck_play (s : State) (f : Clock → Clock) : (s.onSck f).play = s.play := rfl
@[simp] theorem State.onSck_sck (s : State) (f : Clock → Clock) : (s.onSck f).sck = f s.sck := rfl
@[simp] theorem State.onSck_ctb (s : State) (f : Clock → Clock) : (s.onSck f).ctb = s.ctb := rfl
@[simp] theorem State.onSck_tgu (s : State) (f : Clock → Clock) : (s.onSck f).tgu = s.tgu := rfl
@[simp] theorem State.onSck_cfl (s : State) (f : Clock → Clock) : (s.onSck f).cfl = s.cfl := rfl
@[simp] theorem State.onSck_elapsed (s : State) (f : Clock → Clock) : (s.onSck f).elapsed = s.elapsed := rfl
@[simp] theorem State.onSck_pending (s : State) (f : Clock → Clock) : (s.onSck f).pending = s.pending := rfl

@[simp] theorem State.onCtb_play (s : State) (f : CallTable → CallTable) : (s.onCtb f).play = s.play := rfl
@[simp] theorem State.onCtb_sck (s : State) (f : CallTable → CallTable) : (s.onCtb f).sck = s.sck := rfl
@[simp] theorem State.onCtb_ctb (s : State) (f : CallTable → CallTable) : (s.onCtb f).ctb = f s.ctb := rfl
@[simp] theorem State.onCtb_tgu (s : State) (f : CallTable → CallTable) : (s.onCtb f).tgu = s.tgu := rfl
@[simp] theorem State.onCtb_cfl (s : State) (f : CallTable → CallTable) : (s.onCtb f).cfl = s.cfl := rfl
@[simp] theorem State.onCtb_elapsed (s : State) (f : CallTable → CallTable) : (s.onCtb f).elapsed = s.elapsed := rfl
@[simp] theorem State.onCtb_pending (s : State) (f : CallTable → CallTable) : (s.onCtb f).pending = s.pending := rfl
@[simp] theorem State.onCtb_env (s : State) (f : CallTable → CallTable) : (s.onCtb f).env = s.env := rfl

@[simp] theorem State.onTgu_play (s : State) (f : Triggers → Triggers) : (s.onTgu f).play = s.play := rfl
@[simp] theorem State.onTgu_sck (s : State) (f : Triggers → Triggers) : (s.onTgu f).sck = s.sck := rfl
@[simp] theorem State.onTgu_ctb (s : State) (f : Triggers → Triggers) : (s.onTgu f).ctb = s.ctb := rfl
@[simp] theorem State.onTgu_tgu (s : State) (f : Triggers → Triggers) : (s.onTgu f).tgu = f s.tgu := rfl
@[simp] theorem State.onTgu_cfl (s : State) (f : Triggers → Triggers) : (s.onTgu f).cfl = s.cfl := rfl
@[simp] theorem State.onTgu_elapsed (s : State) (f : Triggers → Triggers) : (s.onTgu f).elapsed = s.elapsed := rfl
@[simp] theorem State.onTgu_pending (s : State) (f : Triggers → Triggers) : (s.onTgu f).pending = s.pending := rfl
@[simp] theorem State.onTgu_env (s : State) (f : Triggers → Triggers) : (s.onTgu f).env = s.env := rfl

@[simp] theorem State.onCfl_play (s : State) (f : Loader → Loader) : (s.onCfl f).play = s.play := rfl
@[simp] theorem State.onCfl_sck (s : State) (f : Loader → Loader) : (s.onCfl f).sck = s.sck := rfl
@[simp] theorem State.onCfl_ctb (s : State) (f : Loader → Loader) : (s.onCfl f).ctb = s.ctb := rfl
@[simp] theorem State.onCfl_tgu (s : State) (f : Loader → Loader) : (s.onCfl f).tgu = s.tgu := rfl
@[simp] theorem State.onCfl_cfl (s : State) (f : Loader → Loader) : (s.onCfl f).cfl = f s.cfl := rfl
@[simp] theorem State.onCfl_elapsed (s : State) (f : Loader → Loader) : (s.onCfl f).elapsed = s.elapsed := rfl
@[simp] theorem State.onCfl_pending (s : State) (f : Loader → Loader) : (s.onCfl f).pending = s.pending := rfl

/-! ### `Play` -/

@[simp] theorem Play.onNet_net (p : Play) (f : Net → Net) : (p.onNet f).net = f p.net := rfl
@[simp] theorem Play.onNet_cmu (p : Play) (f : Net → Net) : (p.onNet f).cmu = p.cmu := rfl
@[simp] theorem Play.onNet_zpc (p : Play) (f : Net → Net) : (p.onNet f).zpc = p.zpc := rfl
@[simp] theorem Play.onNet_cfu (p : Play) (f : Net → Net) : (p.onNet f).cfu = p.cfu := rfl
@[simp] theorem Play.onNet_lvc (p : Play) (f : Net → Net) : (p.onNet f).lvc = p.lvc := rfl
@[simp] theorem Play.onNet_lsu (p : Play) (f : Net → Net) : (p.onNet f).lsu = p.lsu := rfl
@[simp] theorem Play.onNet_vsu (p : Play) (f : Net → Net) : (p.onNet f).vsu = p.vsu := rfl
@[simp] theorem Play.onNet_evl (p : Play) (f : Net → Net) : (p.onNet f).evl = p.evl := rfl
@[simp] theorem Play.onNet_zone (p : Play) (f : Net → Net) (q : Out) : (p.onNet f).zone q = p.zone q := rfl
@[simp] theorem Play.onNet_chan (p : Play) (f : Net → Net) (q : Chan) : (p.onNet f).chan q = p.chan q := rfl
@[simp] theorem Play.onNet_surveyAt (p : Play) (f : Net → Net) (q : Out) :
    (p.onNet f).surveyAt q = p.surveyAt q := rfl
@[simp] theorem Play.onNet_levelAt (p : Play) (f : Net → Net) (q : Out) : (p.onNet f).levelAt q = p.levelAt q := rfl
@[simp] theorem Play.onNet_lineAt (p : Play) (f : Net → Net) (q : Out) : (p.onNet f).lineAt q = p.lineAt q := rfl

@[simp] theorem Play.onZone_net (p : Play) (o : Out) (f : Zone → Zone) : (p.onZone o f).net = p.net := rfl
@[simp] theorem Play.onZone_cmu (p : Play) (o : Out) (f : Zone → Zone) : (p.onZone o f).cmu = p.cmu := rfl
@[simp] theorem Play.onZone_zpc (p : Play) (o : Out) (f : Zone → Zone) :
    (p.onZone o f).zpc = { p.zpc with zones := upd p.zpc.zones o f } := rfl
@[simp] theorem Play.onZone_cfu (p : Play) (o : Out) (f : Zone → Zone) : (p.onZone o f).cfu = p.cfu := rfl
@[simp] theorem Play.onZone_lvc (p : Play) (o : Out) (f : Zone → Zone) : (p.onZone o f).lvc = p.lvc := rfl
@[simp] theorem Play.onZone_lsu (p : Play) (o : Out) (f : Zone → Zone) : (p.onZone o f).lsu = p.lsu := rfl
@[simp] theorem Play.onZone_vsu (p : Play) (o : Out) (f : Zone → Zone) : (p.onZone o f).vsu = p.vsu := rfl
@[simp] theorem Play.onZone_evl (p : Play) (o : Out) (f : Zone → Zone) : (p.onZone o f).evl = p.evl := rfl
@[simp] theorem Play.onZone_chan (p : Play) (o : Out) (f : Zone → Zone) (q : Chan) :
    (p.onZone o f).chan q = p.chan q := rfl
@[simp] theorem Play.onZone_surveyAt (p : Play) (o : Out) (f : Zone → Zone) (q : Out) :
    (p.onZone o f).surveyAt q = p.surveyAt q := rfl
@[simp] theorem Play.onZone_levelAt (p : Play) (o : Out) (f : Zone → Zone) (q : Out) :
    (p.onZone o f).levelAt q = p.levelAt q := rfl
@[simp] theorem Play.onZone_lineAt (p : Play) (o : Out) (f : Zone → Zone) (q : Out) :
    (p.onZone o f).lineAt q = p.lineAt q := rfl

@[simp] theorem Play.onLevel_net (p : Play) (o : Out) (f : Level → Level) : (p.onLevel o f).net = p.net := rfl
@[simp] theorem Play.onLevel_cmu (p : Play) (o : Out) (f : Level → Level) : (p.onLevel o f).cmu = p.cmu := rfl
@[simp] theorem Play.onLevel_zpc (p : Play) (o : Out) (f : Level → Level) : (p.onLevel o f).zpc = p.zpc := rfl
@[simp] theorem Play.onLevel_cfu (p : Play) (o : Out) (f : Level → Level) : (p.onLevel o f).cfu = p.cfu := rfl
@[simp] theorem Play.onLevel_lvc (p : Play) (o : Out) (f : Level → Level) :
    (p.onLevel o f).lvc = { p.lvc with outs := upd p.lvc.outs o f } := rfl
@[simp] theorem Play.onLevel_lsu (p : Play) (o : Out) (f : Level → Level) : (p.onLevel o f).lsu = p.lsu := rfl
@[simp] theorem Play.onLevel_vsu (p : Play) (o : Out) (f : Level → Level) : (p.onLevel o f).vsu = p.vsu := rfl
@[simp] theorem Play.onLevel_evl (p : Play) (o : Out) (f : Level → Level) : (p.onLevel o f).evl = p.evl := rfl
@[simp] theorem Play.onLevel_zone (p : Play) (o : Out) (f : Level → Level) (q : Out) :
    (p.onLevel o f).zone q = p.zone q := rfl
@[simp] theorem Play.onLevel_chan (p : Play) (o : Out) (f : Level → Level) (q : Chan) :
    (p.onLevel o f).chan q = p.chan q := rfl
@[simp] theorem Play.onLevel_surveyAt (p : Play) (o : Out) (f : Level → Level) (q : Out) :
    (p.onLevel o f).surveyAt q = p.surveyAt q := rfl
@[simp] theorem Play.onLevel_lineAt (p : Play) (o : Out) (f : Level → Level) (q : Out) :
    (p.onLevel o f).lineAt q = p.lineAt q := rfl

@[simp] theorem Play.onLine_net (p : Play) (o : Out) (f : Line → Line) : (p.onLine o f).net = p.net := rfl
@[simp] theorem Play.onLine_cmu (p : Play) (o : Out) (f : Line → Line) : (p.onLine o f).cmu = p.cmu := rfl
@[simp] theorem Play.onLine_zpc (p : Play) (o : Out) (f : Line → Line) : (p.onLine o f).zpc = p.zpc := rfl
@[simp] theorem Play.onLine_cfu (p : Play) (o : Out) (f : Line → Line) : (p.onLine o f).cfu = p.cfu := rfl
@[simp] theorem Play.onLine_lvc (p : Play) (o : Out) (f : Line → Line) : (p.onLine o f).lvc = p.lvc := rfl
@[simp] theorem Play.onLine_lsu (p : Play) (o : Out) (f : Line → Line) :
    (p.onLine o f).lsu = { p.lsu with lines := upd p.lsu.lines o f } := rfl
@[simp] theorem Play.onLine_vsu (p : Play) (o : Out) (f : Line → Line) : (p.onLine o f).vsu = p.vsu := rfl
@[simp] theorem Play.onLine_evl (p : Play) (o : Out) (f : Line → Line) : (p.onLine o f).evl = p.evl := rfl
@[simp] theorem Play.onLine_zone (p : Play) (o : Out) (f : Line → Line) (q : Out) :
    (p.onLine o f).zone q = p.zone q := rfl
@[simp] theorem Play.onLine_chan (p : Play) (o : Out) (f : Line → Line) (q : Chan) :
    (p.onLine o f).chan q = p.chan q := rfl
@[simp] theorem Play.onLine_surveyAt (p : Play) (o : Out) (f : Line → Line) (q : Out) :
    (p.onLine o f).surveyAt q = p.surveyAt q := rfl
@[simp] theorem Play.onLine_levelAt (p : Play) (o : Out) (f : Line → Line) (q : Out) :
    (p.onLine o f).levelAt q = p.levelAt q := rfl

@[simp] theorem Play.onSurvey_net (p : Play) (o : Out) (f : Survey → Survey) : (p.onSurvey o f).net = p.net := rfl
@[simp] theorem Play.onSurvey_cmu (p : Play) (o : Out) (f : Survey → Survey) : (p.onSurvey o f).cmu = p.cmu := rfl
@[simp] theorem Play.onSurvey_zpc (p : Play) (o : Out) (f : Survey → Survey) : (p.onSurvey o f).zpc = p.zpc := rfl
@[simp] theorem Play.onSurvey_cfu (p : Play) (o : Out) (f : Survey → Survey) : (p.onSurvey o f).cfu = p.cfu := rfl
@[simp] theorem Play.onSurvey_lvc (p : Play) (o : Out) (f : Survey → Survey) : (p.onSurvey o f).lvc = p.lvc := rfl
@[simp] theorem Play.onSurvey_lsu (p : Play) (o : Out) (f : Survey → Survey) : (p.onSurvey o f).lsu = p.lsu := rfl
@[simp] theorem Play.onSurvey_vsu (p : Play) (o : Out) (f : Survey → Survey) :
    (p.onSurvey o f).vsu = { p.vsu with outs := upd p.vsu.outs o f } := rfl
@[simp] theorem Play.onSurvey_evl (p : Play) (o : Out) (f : Survey → Survey) : (p.onSurvey o f).evl = p.evl := rfl
@[simp] theorem Play.onSurvey_zone (p : Play) (o : Out) (f : Survey → Survey) (q : Out) :
    (p.onSurvey o f).zone q = p.zone q := rfl
@[simp] theorem Play.onSurvey_chan (p : Play) (o : Out) (f : Survey → Survey) (q : Chan) :
    (p.onSurvey o f).chan q = p.chan q := rfl
@[simp] theorem Play.onSurvey_levelAt (p : Play) (o : Out) (f : Survey → Survey) (q : Out) :
    (p.onSurvey o f).levelAt q = p.levelAt q := rfl
@[simp] theorem Play.onSurvey_lineAt (p : Play) (o : Out) (f : Survey → Survey) (q : Out) :
    (p.onSurvey o f).lineAt q = p.lineAt q := rfl

@[simp] theorem Play.onChan_net (p : Play) (c : Chan) (f : Channel → Channel) : (p.onChan c f).net = p.net := rfl
@[simp] theorem Play.onChan_cmu (p : Play) (c : Chan) (f : Channel → Channel) : (p.onChan c f).cmu = p.cmu := rfl
@[simp] theorem Play.onChan_zpc (p : Play) (c : Chan) (f : Channel → Channel) : (p.onChan c f).zpc = p.zpc := rfl
@[simp] theorem Play.onChan_cfu (p : Play) (c : Chan) (f : Channel → Channel) :
    (p.onChan c f).cfu = { p.cfu with channels := upd p.cfu.channels c f } := rfl
@[simp] theorem Play.onChan_lvc (p : Play) (c : Chan) (f : Channel → Channel) : (p.onChan c f).lvc = p.lvc := rfl
@[simp] theorem Play.onChan_lsu (p : Play) (c : Chan) (f : Channel → Channel) : (p.onChan c f).lsu = p.lsu := rfl
@[simp] theorem Play.onChan_vsu (p : Play) (c : Chan) (f : Channel → Channel) : (p.onChan c f).vsu = p.vsu := rfl
@[simp] theorem Play.onChan_evl (p : Play) (c : Chan) (f : Channel → Channel) : (p.onChan c f).evl = p.evl := rfl
@[simp] theorem Play.onChan_zone (p : Play) (c : Chan) (f : Channel → Channel) (q : Out) :
    (p.onChan c f).zone q = p.zone q := rfl
@[simp] theorem Play.onChan_surveyAt (p : Play) (c : Chan) (f : Channel → Channel) (q : Out) :
    (p.onChan c f).surveyAt q = p.surveyAt q := rfl
@[simp] theorem Play.onChan_levelAt (p : Play) (c : Chan) (f : Channel → Channel) (q : Out) :
    (p.onChan c f).levelAt q = p.levelAt q := rfl
@[simp] theorem Play.onChan_lineAt (p : Play) (c : Chan) (f : Channel → Channel) (q : Out) :
    (p.onChan c f).lineAt q = p.lineAt q := rfl

@[simp] theorem Play.onCfu_net (p : Play) (f : Clips → Clips) : (p.onCfu f).net = p.net := rfl
@[simp] theorem Play.onCfu_cmu (p : Play) (f : Clips → Clips) : (p.onCfu f).cmu = p.cmu := rfl
@[simp] theorem Play.onCfu_zpc (p : Play) (f : Clips → Clips) : (p.onCfu f).zpc = p.zpc := rfl
@[simp] theorem Play.onCfu_cfu (p : Play) (f : Clips → Clips) : (p.onCfu f).cfu = f p.cfu := rfl
@[simp] theorem Play.onCfu_lvc (p : Play) (f : Clips → Clips) : (p.onCfu f).lvc = p.lvc := rfl
@[simp] theorem Play.onCfu_lsu (p : Play) (f : Clips → Clips) : (p.onCfu f).lsu = p.lsu := rfl
@[simp] theorem Play.onCfu_vsu (p : Play) (f : Clips → Clips) : (p.onCfu f).vsu = p.vsu := rfl
@[simp] theorem Play.onCfu_evl (p : Play) (f : Clips → Clips) : (p.onCfu f).evl = p.evl := rfl
@[simp] theorem Play.onCfu_zone (p : Play) (f : Clips → Clips) (q : Out) : (p.onCfu f).zone q = p.zone q := rfl
@[simp] theorem Play.onCfu_surveyAt (p : Play) (f : Clips → Clips) (q : Out) :
    (p.onCfu f).surveyAt q = p.surveyAt q := rfl
@[simp] theorem Play.onCfu_levelAt (p : Play) (f : Clips → Clips) (q : Out) :
    (p.onCfu f).levelAt q = p.levelAt q := rfl
@[simp] theorem Play.onCfu_lineAt (p : Play) (f : Clips → Clips) (q : Out) : (p.onCfu f).lineAt q = p.lineAt q := rfl

@[simp] theorem Play.onCmu_net (p : Play) (f : Composition → Composition) : (p.onCmu f).net = p.net := rfl
@[simp] theorem Play.onCmu_cmu (p : Play) (f : Composition → Composition) : (p.onCmu f).cmu = f p.cmu := rfl
@[simp] theorem Play.onCmu_zpc (p : Play) (f : Composition → Composition) : (p.onCmu f).zpc = p.zpc := rfl
@[simp] theorem Play.onCmu_cfu (p : Play) (f : Composition → Composition) : (p.onCmu f).cfu = p.cfu := rfl
@[simp] theorem Play.onCmu_lvc (p : Play) (f : Composition → Composition) : (p.onCmu f).lvc = p.lvc := rfl
@[simp] theorem Play.onCmu_lsu (p : Play) (f : Composition → Composition) : (p.onCmu f).lsu = p.lsu := rfl
@[simp] theorem Play.onCmu_vsu (p : Play) (f : Composition → Composition) : (p.onCmu f).vsu = p.vsu := rfl
@[simp] theorem Play.onCmu_evl (p : Play) (f : Composition → Composition) : (p.onCmu f).evl = p.evl := rfl
@[simp] theorem Play.onCmu_zone (p : Play) (f : Composition → Composition) (q : Out) :
    (p.onCmu f).zone q = p.zone q := rfl
@[simp] theorem Play.onCmu_chan (p : Play) (f : Composition → Composition) (q : Chan) :
    (p.onCmu f).chan q = p.chan q := rfl
@[simp] theorem Play.onCmu_surveyAt (p : Play) (f : Composition → Composition) (q : Out) :
    (p.onCmu f).surveyAt q = p.surveyAt q := rfl
@[simp] theorem Play.onCmu_levelAt (p : Play) (f : Composition → Composition) (q : Out) :
    (p.onCmu f).levelAt q = p.levelAt q := rfl
@[simp] theorem Play.onCmu_lineAt (p : Play) (f : Composition → Composition) (q : Out) :
    (p.onCmu f).lineAt q = p.lineAt q := rfl

@[simp] theorem Play.onEvl_net (p : Play) (f : Evac → Evac) : (p.onEvl f).net = p.net := rfl
@[simp] theorem Play.onEvl_cmu (p : Play) (f : Evac → Evac) : (p.onEvl f).cmu = p.cmu := rfl
@[simp] theorem Play.onEvl_zpc (p : Play) (f : Evac → Evac) : (p.onEvl f).zpc = p.zpc := rfl
@[simp] theorem Play.onEvl_cfu (p : Play) (f : Evac → Evac) : (p.onEvl f).cfu = p.cfu := rfl
@[simp] theorem Play.onEvl_lvc (p : Play) (f : Evac → Evac) : (p.onEvl f).lvc = p.lvc := rfl
@[simp] theorem Play.onEvl_lsu (p : Play) (f : Evac → Evac) : (p.onEvl f).lsu = p.lsu := rfl
@[simp] theorem Play.onEvl_vsu (p : Play) (f : Evac → Evac) : (p.onEvl f).vsu = p.vsu := rfl
@[simp] theorem Play.onEvl_evl (p : Play) (f : Evac → Evac) : (p.onEvl f).evl = f p.evl := rfl
@[simp] theorem Play.onEvl_zone (p : Play) (f : Evac → Evac) (q : Out) : (p.onEvl f).zone q = p.zone q := rfl
@[simp] theorem Play.onEvl_chan (p : Play) (f : Evac → Evac) (q : Chan) : (p.onEvl f).chan q = p.chan q := rfl
@[simp] theorem Play.onEvl_surveyAt (p : Play) (f : Evac → Evac) (q : Out) :
    (p.onEvl f).surveyAt q = p.surveyAt q := rfl
@[simp] theorem Play.onEvl_levelAt (p : Play) (f : Evac → Evac) (q : Out) :
    (p.onEvl f).levelAt q = p.levelAt q := rfl
@[simp] theorem Play.onEvl_lineAt (p : Play) (f : Evac → Evac) (q : Out) : (p.onEvl f).lineAt q = p.lineAt q := rfl

@[simp] theorem Play.onLsu_net (p : Play) (f : Supervision → Supervision) : (p.onLsu f).net = p.net := rfl
@[simp] theorem Play.onLsu_cmu (p : Play) (f : Supervision → Supervision) : (p.onLsu f).cmu = p.cmu := rfl
@[simp] theorem Play.onLsu_zpc (p : Play) (f : Supervision → Supervision) : (p.onLsu f).zpc = p.zpc := rfl
@[simp] theorem Play.onLsu_cfu (p : Play) (f : Supervision → Supervision) : (p.onLsu f).cfu = p.cfu := rfl
@[simp] theorem Play.onLsu_lvc (p : Play) (f : Supervision → Supervision) : (p.onLsu f).lvc = p.lvc := rfl
@[simp] theorem Play.onLsu_lsu (p : Play) (f : Supervision → Supervision) : (p.onLsu f).lsu = f p.lsu := rfl
@[simp] theorem Play.onLsu_vsu (p : Play) (f : Supervision → Supervision) : (p.onLsu f).vsu = p.vsu := rfl
@[simp] theorem Play.onLsu_evl (p : Play) (f : Supervision → Supervision) : (p.onLsu f).evl = p.evl := rfl
@[simp] theorem Play.onLsu_zone (p : Play) (f : Supervision → Supervision) (q : Out) :
    (p.onLsu f).zone q = p.zone q := rfl
@[simp] theorem Play.onLsu_chan (p : Play) (f : Supervision → Supervision) (q : Chan) :
    (p.onLsu f).chan q = p.chan q := rfl
@[simp] theorem Play.onLsu_surveyAt (p : Play) (f : Supervision → Supervision) (q : Out) :
    (p.onLsu f).surveyAt q = p.surveyAt q := rfl
@[simp] theorem Play.onLsu_levelAt (p : Play) (f : Supervision → Supervision) (q : Out) :
    (p.onLsu f).levelAt q = p.levelAt q := rfl

@[simp] theorem Play.onSurveyCounts_net (p : Play) (f : SurveyCounts → SurveyCounts) :
    (p.onSurveyCounts f).net = p.net := rfl
@[simp] theorem Play.onSurveyCounts_cmu (p : Play) (f : SurveyCounts → SurveyCounts) :
    (p.onSurveyCounts f).cmu = p.cmu := rfl
@[simp] theorem Play.onSurveyCounts_zpc (p : Play) (f : SurveyCounts → SurveyCounts) :
    (p.onSurveyCounts f).zpc = p.zpc := rfl
@[simp] theorem Play.onSurveyCounts_cfu (p : Play) (f : SurveyCounts → SurveyCounts) :
    (p.onSurveyCounts f).cfu = p.cfu := rfl
@[simp] theorem Play.onSurveyCounts_lvc (p : Play) (f : SurveyCounts → SurveyCounts) :
    (p.onSurveyCounts f).lvc = p.lvc := rfl
@[simp] theorem Play.onSurveyCounts_lsu (p : Play) (f : SurveyCounts → SurveyCounts) :
    (p.onSurveyCounts f).lsu = p.lsu := rfl
@[simp] theorem Play.onSurveyCounts_vsu (p : Play) (f : SurveyCounts → SurveyCounts) :
    (p.onSurveyCounts f).vsu = { p.vsu with counts := f p.vsu.counts } := rfl
@[simp] theorem Play.onSurveyCounts_evl (p : Play) (f : SurveyCounts → SurveyCounts) :
    (p.onSurveyCounts f).evl = p.evl := rfl
@[simp] theorem Play.onSurveyCounts_zone (p : Play) (f : SurveyCounts → SurveyCounts) (q : Out) :
    (p.onSurveyCounts f).zone q = p.zone q := rfl
@[simp] theorem Play.onSurveyCounts_chan (p : Play) (f : SurveyCounts → SurveyCounts) (q : Chan) :
    (p.onSurveyCounts f).chan q = p.chan q := rfl
@[simp] theorem Play.onSurveyCounts_levelAt (p : Play) (f : SurveyCounts → SurveyCounts) (q : Out) :
    (p.onSurveyCounts f).levelAt q = p.levelAt q := rfl
@[simp] theorem Play.onSurveyCounts_lineAt (p : Play) (f : SurveyCounts → SurveyCounts) (q : Out) :
    (p.onSurveyCounts f).lineAt q = p.lineAt q := rfl

@[simp] theorem Play.onCmuCounts_net (p : Play) (f : CmuCounts → CmuCounts) : (p.onCmuCounts f).net = p.net := rfl
@[simp] theorem Play.onCmuCounts_cmu (p : Play) (f : CmuCounts → CmuCounts) :
    (p.onCmuCounts f).cmu = { p.cmu with counts := f p.cmu.counts } := rfl
@[simp] theorem Play.onCmuCounts_zpc (p : Play) (f : CmuCounts → CmuCounts) : (p.onCmuCounts f).zpc = p.zpc := rfl
@[simp] theorem Play.onCmuCounts_cfu (p : Play) (f : CmuCounts → CmuCounts) : (p.onCmuCounts f).cfu = p.cfu := rfl
@[simp] theorem Play.onCmuCounts_lvc (p : Play) (f : CmuCounts → CmuCounts) : (p.onCmuCounts f).lvc = p.lvc := rfl
@[simp] theorem Play.onCmuCounts_lsu (p : Play) (f : CmuCounts → CmuCounts) : (p.onCmuCounts f).lsu = p.lsu := rfl
@[simp] theorem Play.onCmuCounts_vsu (p : Play) (f : CmuCounts → CmuCounts) : (p.onCmuCounts f).vsu = p.vsu := rfl
@[simp] theorem Play.onCmuCounts_evl (p : Play) (f : CmuCounts → CmuCounts) : (p.onCmuCounts f).evl = p.evl := rfl
@[simp] theorem Play.onCmuCounts_zone (p : Play) (f : CmuCounts → CmuCounts) (q : Out) :
    (p.onCmuCounts f).zone q = p.zone q := rfl
@[simp] theorem Play.onCmuCounts_chan (p : Play) (f : CmuCounts → CmuCounts) (q : Chan) :
    (p.onCmuCounts f).chan q = p.chan q := rfl
@[simp] theorem Play.onCmuCounts_surveyAt (p : Play) (f : CmuCounts → CmuCounts) (q : Out) :
    (p.onCmuCounts f).surveyAt q = p.surveyAt q := rfl
@[simp] theorem Play.onCmuCounts_levelAt (p : Play) (f : CmuCounts → CmuCounts) (q : Out) :
    (p.onCmuCounts f).levelAt q = p.levelAt q := rfl
@[simp] theorem Play.onCmuCounts_lineAt (p : Play) (f : CmuCounts → CmuCounts) (q : Out) :
    (p.onCmuCounts f).lineAt q = p.lineAt q := rfl

@[simp] theorem Play.countDrop_net (p : Play) (r : DropReason) : (Play.countDrop r p).net = p.net := rfl
@[simp] theorem Play.countDrop_cmu (p : Play) (r : DropReason) : (Play.countDrop r p).cmu = p.cmu := rfl
@[simp] theorem Play.countDrop_zpc (p : Play) (r : DropReason) :
    (Play.countDrop r p).zpc = { p.zpc with counts := p.zpc.counts.countDrop r } := rfl
@[simp] theorem Play.countDrop_cfu (p : Play) (r : DropReason) : (Play.countDrop r p).cfu = p.cfu := rfl
@[simp] theorem Play.countDrop_lvc (p : Play) (r : DropReason) : (Play.countDrop r p).lvc = p.lvc := rfl
@[simp] theorem Play.countDrop_lsu (p : Play) (r : DropReason) : (Play.countDrop r p).lsu = p.lsu := rfl
@[simp] theorem Play.countDrop_vsu (p : Play) (r : DropReason) : (Play.countDrop r p).vsu = p.vsu := rfl
@[simp] theorem Play.countDrop_evl (p : Play) (r : DropReason) : (Play.countDrop r p).evl = p.evl := rfl
@[simp] theorem Play.countDrop_chan (p : Play) (r : DropReason) (q : Chan) :
    (Play.countDrop r p).chan q = p.chan q := rfl
@[simp] theorem Play.countDrop_surveyAt (p : Play) (r : DropReason) (q : Out) :
    (Play.countDrop r p).surveyAt q = p.surveyAt q := rfl
@[simp] theorem Play.countDrop_levelAt (p : Play) (r : DropReason) (q : Out) :
    (Play.countDrop r p).levelAt q = p.levelAt q := rfl
@[simp] theorem Play.countDrop_lineAt (p : Play) (r : DropReason) (q : Out) :
    (Play.countDrop r p).lineAt q = p.lineAt q := rfl

@[simp] theorem Play.takeBoundary_net (p : Play) (e : Env) : (p.takeBoundary e).net = p.net := rfl
@[simp] theorem Play.takeBoundary_cmu (p : Play) (e : Env) : (p.takeBoundary e).cmu = p.cmu := rfl
@[simp] theorem Play.takeBoundary_zpc (p : Play) (e : Env) : (p.takeBoundary e).zpc = p.zpc := rfl
@[simp] theorem Play.takeBoundary_cfu (p : Play) (e : Env) :
    (p.takeBoundary e).cfu = { p.cfu with boundaryAt := e.elapsed } := rfl
@[simp] theorem Play.takeBoundary_lvc (p : Play) (e : Env) : (p.takeBoundary e).lvc = p.lvc := rfl
@[simp] theorem Play.takeBoundary_lsu (p : Play) (e : Env) : (p.takeBoundary e).lsu = p.lsu := rfl
@[simp] theorem Play.takeBoundary_vsu (p : Play) (e : Env) : (p.takeBoundary e).vsu = p.vsu := rfl
@[simp] theorem Play.takeBoundary_evl (p : Play) (e : Env) : (p.takeBoundary e).evl = p.evl := rfl
@[simp] theorem Play.takeBoundary_zone (p : Play) (e : Env) (q : Out) : (p.takeBoundary e).zone q = p.zone q := rfl
@[simp] theorem Play.takeBoundary_surveyAt (p : Play) (e : Env) (q : Out) :
    (p.takeBoundary e).surveyAt q = p.surveyAt q := rfl
@[simp] theorem Play.takeBoundary_levelAt (p : Play) (e : Env) (q : Out) :
    (p.takeBoundary e).levelAt q = p.levelAt q := rfl
@[simp] theorem Play.takeBoundary_lineAt (p : Play) (e : Env) (q : Out) :
    (p.takeBoundary e).lineAt q = p.lineAt q := rfl

/-! ### `Net` -/

@[simp] theorem Net.onPau_lki (n : Net) (f : Peers → Peers) : (n.onPau f).lki = n.lki := rfl
@[simp] theorem Net.onPau_pau (n : Net) (f : Peers → Peers) : (n.onPau f).pau = f n.pau := rfl
@[simp] theorem Net.onPau_flt (n : Net) (f : Peers → Peers) : (n.onPau f).flt = n.flt := rfl
@[simp] theorem LinkUnit.frameEnds_queue (l : LinkUnit) : l.frameEnds.queue = l.queue := rfl
@[simp] theorem LinkUnit.count_queue (l : LinkUnit) (f : LinkCounts → LinkCounts) :
    (l.count f).queue = l.queue := rfl
@[simp] theorem LinkUnit.frameEnds_sending (l : LinkUnit) : l.frameEnds.sending = l.sending := rfl
@[simp] theorem LinkUnit.count_sending (l : LinkUnit) (f : LinkCounts → LinkCounts) :
    (l.count f).sending = l.sending := rfl
@[simp] theorem LinkUnit.frameEnds_beaconAt (l : LinkUnit) : l.frameEnds.beaconAt = l.beaconAt := rfl
@[simp] theorem LinkUnit.count_beaconAt (l : LinkUnit) (f : LinkCounts → LinkCounts) :
    (l.count f).beaconAt = l.beaconAt := rfl

end Sys2Proof.Machine
end

