-- ==== Sys2Proof/Laws/Ops.lean ====
section
/-! SUPPORT. What the shared operations of Machine/Ops.lean do: vectors changed at one place and at every place, sets of
outputs and zones, saturating counts, and the blocks read after an update. -/
namespace Sys2Proof.Machine

/-! ### Vectors -/

@[simp] theorem upd_get_self {α : Type} {n : Nat} (v : Vector α n) (i : Fin n) (f : α → α) :
    (upd v i f).get i = f (v.get i) := by
  simp [upd, Vector.get_eq_getElem]

theorem upd_get_of_ne {α : Type} {n : Nat} (v : Vector α n) (i j : Fin n) (f : α → α) (h : j ≠ i) :
    (upd v i f).get j = v.get j := by
  have : i.val ≠ j.val := fun e => h (Fin.ext e.symm)
  simp [upd, Vector.get_eq_getElem, Vector.getElem_set_ne _ _ this]

/-- An element changed at one place, read anywhere. -/
theorem upd_get {α : Type} {n : Nat} (v : Vector α n) (i j : Fin n) (f : α → α) :
    (upd v i f).get j = if j = i then f (v.get j) else v.get j := by
  split
  · next h => subst h; exact upd_get_self v j f
  · next h => exact upd_get_of_ne v i j f h

@[simp] theorem mapIdx_get {α β : Type} {n : Nat} (v : Vector α n) (f : Fin n → α → β) (i : Fin n) :
    (mapIdx v f).get i = f i (v.get i) := by
  simp [mapIdx, Vector.get_eq_getElem]

/-- Two vectors are equal when every place is. -/
theorem vector_ext {α : Type} {n : Nat} {v w : Vector α n} (h : ∀ i : Fin n, v.get i = w.get i) : v = w := by
  apply Vector.ext
  intro i hi
  simpa [Vector.get_eq_getElem] using h ⟨i, hi⟩

/-- A change that leaves the element as it is leaves the vector. -/
theorem upd_eq_self {α : Type} {n : Nat} (v : Vector α n) (i : Fin n) (f : α → α) (h : f (v.get i) = v.get i) :
    upd v i f = v := by
  apply vector_ext
  intro j
  rw [upd_get]
  split
  · next e => subst e; exact h
  · rfl

/-- Two changes of one element are one change. -/
theorem upd_upd {α : Type} {n : Nat} (v : Vector α n) (i : Fin n) (f g : α → α) :
    upd (upd v i f) i g = upd v i fun x => g (f x) := by
  apply vector_ext
  intro j
  simp only [upd_get]
  split <;> rfl

@[simp] theorem replicate_get {α : Type} {n : Nat} (a : α) (i : Fin n) : (Vector.replicate n a).get i = a := by
  simp [Vector.get_eq_getElem]

/-! ### Reading a block after it was changed at one place -/

@[simp] theorem Play.onZone_zone_self (p : Play) (o : Out) (f : Zone → Zone) : (p.onZone o f).zone o = f (p.zone o) :=
  upd_get_self _ _ _

theorem Play.onZone_zone (p : Play) (o q : Out) (f : Zone → Zone) :
    (p.onZone o f).zone q = if q = o then f (p.zone q) else p.zone q := upd_get _ _ _ _

theorem Play.onZone_zone_of_ne (p : Play) (o q : Out) (f : Zone → Zone) (h : q ≠ o) :
    (p.onZone o f).zone q = p.zone q := upd_get_of_ne _ _ _ _ h

@[simp] theorem Play.onLevel_levelAt_self (p : Play) (o : Out) (f : Level → Level) :
    (p.onLevel o f).levelAt o = f (p.levelAt o) := upd_get_self _ _ _

theorem Play.onLevel_levelAt (p : Play) (o q : Out) (f : Level → Level) :
    (p.onLevel o f).levelAt q = if q = o then f (p.levelAt q) else p.levelAt q := upd_get _ _ _ _

@[simp] theorem Play.onLine_lineAt_self (p : Play) (o : Out) (f : Line → Line) :
    (p.onLine o f).lineAt o = f (p.lineAt o) := upd_get_self _ _ _

theorem Play.onLine_lineAt (p : Play) (o q : Out) (f : Line → Line) :
    (p.onLine o f).lineAt q = if q = o then f (p.lineAt q) else p.lineAt q := upd_get _ _ _ _

@[simp] theorem Play.onSurvey_surveyAt_self (p : Play) (o : Out) (f : Survey → Survey) :
    (p.onSurvey o f).surveyAt o = f (p.surveyAt o) := upd_get_self _ _ _

theorem Play.onSurvey_surveyAt (p : Play) (o q : Out) (f : Survey → Survey) :
    (p.onSurvey o f).surveyAt q = if q = o then f (p.surveyAt q) else p.surveyAt q := upd_get _ _ _ _

@[simp] theorem Play.onChan_chan_self (p : Play) (c : Chan) (f : Channel → Channel) :
    (p.onChan c f).chan c = f (p.chan c) := upd_get_self _ _ _

theorem Play.onChan_chan (p : Play) (c d : Chan) (f : Channel → Channel) :
    (p.onChan c f).chan d = if d = c then f (p.chan d) else p.chan d := upd_get _ _ _ _

/-- A change of a zone that leaves it as it is leaves the blocks. -/
theorem Play.onZone_eq_self (p : Play) (o : Out) (f : Zone → Zone) (h : f (p.zone o) = p.zone o) : p.onZone o f = p := by
  have e : upd p.zpc.zones o f = p.zpc.zones := upd_eq_self _ _ _ h
  simp [Play.onZone, e]

/-! ### Sets of outputs and of zones -/

@[simp] theorem mem_allOuts (o : Out) : o ∈ allOuts := List.mem_finRange o

theorem mem_outsOf (m : OutSet) (o : Out) : o ∈ outsOf m ↔ m.getLsbD o.val = true := by simp [outsOf]

theorem addOut_has (m : OutSet) (o q : Out) : (addOut m o).getLsbD q.val = (m.getLsbD q.val || decide (q = o)) := by
  revert m o q; simp only [addOut]; intro m o q
  have hq := q.isLt
  have ho := o.isLt
  simp only [BitVec.getLsbD_or, BitVec.getLsbD_shiftLeft, BitVec.getLsbD_one]
  congr 1
  by_cases e : q = o
  · subst e; simp
  · have : q.val ≠ o.val := fun h => e (Fin.ext h)
    have hd : decide (q = o) = false := by simp [e]
    rw [hd]
    by_cases l : q.val < o.val
    · simp [l]
    · have : ¬ q.val - o.val = 0 := by omega
      simp [this]

theorem dropOut_has (m : OutSet) (o q : Out) : (dropOut m o).getLsbD q.val = (m.getLsbD q.val && !decide (q = o)) := by
  have hq := q.isLt
  simp only [dropOut, BitVec.getLsbD_and, BitVec.getLsbD_not, BitVec.getLsbD_shiftLeft, BitVec.getLsbD_one]
  by_cases e : q = o
  · subst e; simp
  · have : q.val ≠ o.val := fun h => e (Fin.ext h)
    have hd : decide (q = o) = false := by simp [e]
    rw [hd]
    by_cases l : q.val < o.val
    · simp [l, hq]
    · have : ¬ q.val - o.val = 0 := by omega
      simp [this, hq]

theorem mem_zonesOf (z : ZoneSet) (i : Nat) : i ∈ zonesOf z ↔ i < 64 ∧ z.getLsbD i = true := by simp [zonesOf]

theorem zonesOf_nodup (z : ZoneSet) : (zonesOf z).Nodup := List.Nodup.filter _ List.nodup_range

/-! ### Counts -/

theorem bump_le (n : Nat) : bump n ≤ 65535 := Nat.min_le_left _ _

theorem bumpBy_le (k n : Nat) : bumpBy k n ≤ 65535 := Nat.min_le_left _ _

theorem bump_of_lt {n : Nat} (h : n < 65535) : bump n = n + 1 := by unfold bump; omega

theorem clampInt_mem {lo hi : Int} (h : lo ≤ hi) (x : Int) : lo ≤ clampInt lo hi x ∧ clampInt lo hi x ≤ hi := by
  unfold clampInt; omega

theorem clampInt_of_mem {lo hi x : Int} (h1 : lo ≤ x) (h2 : x ≤ hi) : clampInt lo hi x = x := by
  unfold clampInt; omega

end Sys2Proof.Machine
end

