-- ==== Sys2Proof/Laws/Net.lean ====
section
/-! SUPPORT. What queuing a frame, reporting a fault and reporting outcomes can do (R117, R181, R194). -/
namespace Sys2Proof.Machine

/-! ### The transmit queue (R181) -/

@[simp] theorem insertFrame_length (q : List TxFrame) (f : TxFrame) : (insertFrame q f).length = q.length + 1 := by
  induction q with
  | nil => rfl
  | cons g rest ih => simp only [insertFrame]; split <;> simp [ih]

theorem mem_insertFrame (q : List TxFrame) (f x : TxFrame) : x ∈ insertFrame q f ↔ x = f ∨ x ∈ q := by
  induction q with
  | nil => simp [insertFrame]
  | cons g rest ih =>
    simp only [insertFrame]; split
    · simp
    · simp only [List.mem_cons, ih]; tauto

/-- Giving up zones of an entry changes the table and the NO_RESPONSE count alone. -/
theorem Peers.giveUp_frame (p : Peers) (id : AnnId) (sel : Outcome → Bool) :
    (p.giveUp id sel).owners = p.owners ∧ (p.giveUp id sel).outbox = p.outbox ∧
      (p.giveUp id sel).held = p.held := by
  unfold Peers.giveUp; split <;> exact ⟨rfl, rfl, rfl⟩

/-- Telling the sender of a dropped frame changes the origination table and its counts alone. -/
theorem Net.frameDropped_frame (n : Net) (f : TxFrame) :
    (n.frameDropped f).lki = n.lki ∧ (n.frameDropped f).flt = n.flt ∧
      (n.frameDropped f).pau.owners = n.pau.owners ∧ (n.frameDropped f).pau.outbox = n.pau.outbox ∧
      (n.frameDropped f).pau.held = n.pau.held := by
  unfold Net.frameDropped
  split
  · exact ⟨rfl, rfl, Peers.giveUp_frame _ _ _⟩
  · exact ⟨rfl, rfl, rfl, rfl, rfl⟩

/-- What queuing a frame can do: nothing outside RUNNING; with room the frame joins and nothing else changes; with none
the last of the 17 goes and is counted (R181). -/
theorem Net.enqueue_cases (e : Env) (f : TxFrame) (n : Net) :
    (e.running = false ∧ Net.enqueue e f n = n) ∨
    (e.running = true ∧ n.lki.queue.length < 16 ∧
      Net.enqueue e f n = { n with lki := { n.lki with queue := insertFrame n.lki.queue f } }) ∨
    (e.running = true ∧ 16 ≤ n.lki.queue.length ∧ ∃ g, (insertFrame n.lki.queue f).getLast? = some g ∧
      Net.enqueue e f n = Net.frameDropped { n with lki := { n.lki with
        queue := (insertFrame n.lki.queue f).dropLast
        counts := { n.lki.counts with dropped := bump n.lki.counts.dropped } } } g) := by
  unfold Net.enqueue
  cases hr : e.running with
  | false => simp
  | true =>
    by_cases hl : n.lki.queue.length < 16
    · right; left
      have : (insertFrame n.lki.queue f).length ≤ 16 := by simp; omega
      simp [hl, Nat.lt_iff_add_one_le.mp hl]
    · right; right
      have hne : insertFrame n.lki.queue f ≠ [] := by
        intro h; have := congrArg List.length h; simp at this
      have h16 : ¬ n.lki.queue.length + 1 ≤ 16 := by omega
      refine ⟨rfl, by omega, (insertFrame n.lki.queue f).getLast hne, List.getLast?_eq_some_getLast hne, ?_⟩
      simp [h16, List.getLast?_eq_some_getLast hne]

theorem Net.enqueue_room {e : Env} {n : Net} (f : TxFrame) (hr : e.running = true) (hl : n.lki.queue.length < 16) :
    Net.enqueue e f n = { n with lki := { n.lki with queue := insertFrame n.lki.queue f } } := by
  rcases Net.enqueue_cases e f n with ⟨h, _⟩ | ⟨_, _, h⟩ | ⟨_, h, _⟩
  · simp [hr] at h
  · exact h
  · omega

theorem Net.enqueue_idle {e : Env} {n : Net} (f : TxFrame) (hr : e.running = false) : Net.enqueue e f n = n := by
  simp [Net.enqueue, hr]

/-- Queuing a frame leaves the fault log, the owner map, the outbox and what is being sent. -/
theorem Net.enqueue_frame (e : Env) (f : TxFrame) (n : Net) :
    (Net.enqueue e f n).flt = n.flt ∧ (Net.enqueue e f n).pau.owners = n.pau.owners ∧
      (Net.enqueue e f n).pau.outbox = n.pau.outbox ∧ (Net.enqueue e f n).lki.sending = n.lki.sending ∧
      (Net.enqueue e f n).lki.idle = n.lki.idle ∧ (Net.enqueue e f n).lki.busy = n.lki.busy ∧
      (Net.enqueue e f n).lki.beaconAt = n.lki.beaconAt ∧ (Net.enqueue e f n).pau.held = n.pau.held := by
  rcases Net.enqueue_cases e f n with ⟨_, h⟩ | ⟨_, _, h⟩ | ⟨_, _, g, _, h⟩
  · rw [h]; simp
  · rw [h]; simp
  · rw [h]
    obtain ⟨h1, h2, h3, h4, h5⟩ := Net.frameDropped_frame { n with lki := { n.lki with
        queue := (insertFrame n.lki.queue f).dropLast
        counts := { n.lki.counts with dropped := bump n.lki.counts.dropped } } } g
    rw [h1, h2, h3, h4, h5]; simp

@[simp] theorem Net.enqueue_flt (e : Env) (f : TxFrame) (n : Net) : (Net.enqueue e f n).flt = n.flt :=
  (Net.enqueue_frame e f n).1

@[simp] theorem Net.enqueue_owners (e : Env) (f : TxFrame) (n : Net) : (Net.enqueue e f n).pau.owners = n.pau.owners :=
  (Net.enqueue_frame e f n).2.1

@[simp] theorem Net.enqueue_outbox (e : Env) (f : TxFrame) (n : Net) : (Net.enqueue e f n).pau.outbox = n.pau.outbox :=
  (Net.enqueue_frame e f n).2.2.1

@[simp] theorem Net.enqueue_held (e : Env) (f : TxFrame) (n : Net) : (Net.enqueue e f n).pau.held = n.pau.held :=
  (Net.enqueue_frame e f n).2.2.2.2.2.2.2

/-! ### Fault reports (R194) -/

/-- What a fault report can do: count a record it matches; take the lowest invalid record, announcing it in RUNNING; or
be lost (R194). -/
theorem Net.report_cases (e : Env) (k : FaultKind) (source : Nat) (n : Net) :
    (∃ i r, recordIndex n.flt (sameFault k source) = some i ∧ n.flt.records.get i = some r ∧ r.kind = k ∧
      r.source = source ∧ Net.report e k source n = { n with flt := { n.flt with
          records := upd n.flt.records i fun _ => some { r with count := min 255 (r.count + 1), last := e.now } } }) ∨
    (recordIndex n.flt (sameFault k source) = none ∧ ∃ i, recordIndex n.flt Option.isNone = some i ∧
      ∃ m, (Net.report e k source n).flt =
        { n.flt with records := upd n.flt.records i (fun _ => some ⟨k, source, e.now, e.now, 1⟩), notices := m } ∧
      (e.running = false → Net.report e k source n = { n with flt :=
        { n.flt with records := upd n.flt.records i fun _ => some ⟨k, source, e.now, e.now, 1⟩ } }) ∧
      (e.running = true → Net.report e k source n =
        Net.enqueue e ⟨2, 31, .faultNotice ⟨i.val, faultCode k, source, e.now.day, e.now.time⟩⟩
          { n with flt := { n.flt with
            records := upd n.flt.records i fun _ => some ⟨k, source, e.now, e.now, 1⟩
            notices := bump n.flt.notices } })) ∨
    (recordIndex n.flt (sameFault k source) = none ∧ recordIndex n.flt Option.isNone = none ∧
      Net.report e k source n = { n with flt := { n.flt with overflow := true, lost := min 255 (n.flt.lost + 1) } }) := by
  unfold Net.report
  cases h : recordIndex n.flt (sameFault k source) with
  | some i =>
    left
    have hs : sameFault k source (n.flt.records.get i) = true := by
      have := List.find?_some h; simpa using this
    cases hr : n.flt.records.get i with
    | none => simp [hr, sameFault] at hs
    | some r =>
      simp only [hr, sameFault, Bool.and_eq_true, decide_eq_true_eq] at hs
      refine ⟨i, r, rfl, hr, hs.1, hs.2, ?_⟩
      have : upd n.flt.records i (Option.map fun r : FaultRecord =>
          { r with count := min 255 (r.count + 1), last := e.now }) =
          upd n.flt.records i fun _ => some { r with count := min 255 (r.count + 1), last := e.now } := by
        apply vector_ext
        intro j
        simp only [upd_get]
        split
        · next hj => subst hj; simp [hr]
        · rfl
      simp [this]
  | none =>
    right
    cases hi : recordIndex n.flt Option.isNone with
    | some i =>
      left
      refine ⟨rfl, i, rfl, ?_⟩
      cases hr : e.running with
      | true => exact ⟨bump n.flt.notices, by simp, by simp, by simp⟩
      | false => exact ⟨n.flt.notices, by simp, by simp, by simp⟩
    | none => right; exact ⟨rfl, rfl, rfl⟩

/-- A fault report leaves the outcomes to report and the owner map. -/
theorem Net.report_frame (e : Env) (k : FaultKind) (source : Nat) (n : Net) :
    (Net.report e k source n).pau.outbox = n.pau.outbox ∧ (Net.report e k source n).pau.owners = n.pau.owners ∧
      (Net.report e k source n).pau.held = n.pau.held := by
  rcases Net.report_cases e k source n with ⟨i, r, _, _, _, _, h⟩ | ⟨_, i, _, m, _, h1, h2⟩ | ⟨_, _, h⟩
  · rw [h]; simp
  · cases hr : e.running with
    | true => rw [h2 hr]; simp
    | false => rw [h1 hr]; simp
  · rw [h]; simp

@[simp] theorem Net.report_outbox (e : Env) (k : FaultKind) (source : Nat) (n : Net) :
    (Net.report e k source n).pau.outbox = n.pau.outbox := (Net.report_frame e k source n).1

@[simp] theorem Net.report_owners (e : Env) (k : FaultKind) (source : Nat) (n : Net) :
    (Net.report e k source n).pau.owners = n.pau.owners := (Net.report_frame e k source n).2.1

@[simp] theorem Net.report_held (e : Env) (k : FaultKind) (source : Nat) (n : Net) :
    (Net.report e k source n).pau.held = n.pau.held := (Net.report_frame e k source n).2.2

theorem Net.enqueue_congr {e d : Env} (h : e.load = d.load) (f : TxFrame) (n : Net) :
    Net.enqueue e f n = Net.enqueue d f n := by simp only [Net.enqueue, Env.running, h]

/-- A fault report reads the load state and the instant alone. -/
theorem Net.report_congr {e d : Env} (hl : e.load = d.load) (hn : e.now = d.now) (k : FaultKind) (source : Nat)
    (n : Net) : Net.report e k source n = Net.report d k source n := by
  have : Net.enqueue e = Net.enqueue d := by
    funext f n; exact Net.enqueue_congr hl f n
  unfold Net.report Env.running
  rw [hl, hn, this]

/-! ### Reports of outcomes (R117) -/

@[simp] theorem Net.sendReport_outbox (e : Env) (items : List ReportedOutcome) (n : Net) :
    (n.sendReport e items).pau.outbox = n.pau.outbox := by
  unfold Net.sendReport; split <;> simp

@[simp] theorem Net.sendReport_held (e : Env) (items : List ReportedOutcome) (n : Net) :
    (n.sendReport e items).pau.held = n.pau.held := by
  unfold Net.sendReport; split <;> simp

@[simp] theorem Net.sendReport_flt (e : Env) (items : List ReportedOutcome) (n : Net) :
    (n.sendReport e items).flt = n.flt := by
  unfold Net.sendReport; split <;> simp

/-- Reports queue frames and count them: what is gathered, what is held and the fault log stand (R117). -/
theorem Net.reportAll_frame (e : Env) (l : List ReportedOutcome) (n : Net) :
    (n.reportAll e l).pau.outbox = n.pau.outbox ∧ (n.reportAll e l).pau.held = n.pau.held ∧
      (n.reportAll e l).flt = n.flt := by
  unfold Net.reportAll
  generalize groupOutcomes l.length l = groups
  induction groups generalizing n with
  | nil => exact ⟨rfl, rfl, rfl⟩
  | cons g rest ih =>
    rw [List.foldl_cons]
    obtain ⟨h1, h2, h3⟩ := ih (n.sendReport e g)
    exact ⟨by rw [h1, Net.sendReport_outbox], by rw [h2, Net.sendReport_held], by rw [h3, Net.sendReport_flt]⟩

@[simp] theorem Net.reportAll_nil (e : Env) (n : Net) : n.reportAll e [] = n := rfl

/-- Every outcome gathered is reported: none is left (R117). -/
@[simp] theorem Net.flush_outbox (e : Env) (n : Net) : (n.flush e).pau.outbox = [] :=
  (Net.reportAll_frame e _ _).1

@[simp] theorem Net.flush_held (e : Env) (n : Net) : (n.flush e).pau.held = n.pau.held :=
  (Net.reportAll_frame e _ _).2.1

@[simp] theorem Net.flush_flt (e : Env) (n : Net) : (n.flush e).flt = n.flt := (Net.reportAll_frame e _ _).2.2

/-- Every outcome held is reported: none is left (R117). -/
@[simp] theorem Net.flushHeld_held (e : Env) (n : Net) : (n.flushHeld e).pau.held = [] :=
  (Net.reportAll_frame e _ _).2.1

@[simp] theorem Net.flushHeld_outbox (e : Env) (n : Net) : (n.flushHeld e).pau.outbox = n.pau.outbox :=
  (Net.reportAll_frame e _ _).1

@[simp] theorem Net.flushHeld_flt (e : Env) (n : Net) : (n.flushHeld e).flt = n.flt :=
  (Net.reportAll_frame e _ _).2.2

/-- With no outcome gathered there is nothing to report. -/
theorem Net.flush_of_empty (e : Env) {n : Net} (h : n.pau.outbox = []) : n.flush e = n := by
  unfold Net.flush
  rw [h, Net.reportAll_nil]
  cases n with
  | mk lki pau flt => cases pau; simp_all [Net.onPau]

/-- With no outcome held there is nothing to report. -/
theorem Net.flushHeld_of_empty (e : Env) {n : Net} (h : n.pau.held = []) : n.flushHeld e = n := by
  unfold Net.flushHeld
  rw [h, Net.reportAll_nil]
  cases n with
  | mk lki pau flt => cases pau; simp_all [Net.onPau]

end Sys2Proof.Machine
end

