-- ==== Sys2Proof/Laws/Playout.lean ====
section
/-! SUPPORT. Which blocks the allocator and the zone operations can change: a channel operation touches the Clip Fetch
Unit and, by a theft, the states of sounding entries; a start adds the state of its entry; a drop adds the queue, the
body's count and what is told (R82, R90, R94, R131 to R133). -/
namespace Sys2Proof.Machine

/-- The blocks that no channel operation touches are the same. -/
def Play.SameBesideChannels (p q : Play) : Prop :=
  q.net = p.net ∧ q.cmu = p.cmu ∧ q.lvc = p.lvc ∧ q.lsu = p.lsu ∧ q.vsu = p.vsu ∧ q.evl = p.evl ∧
    q.zpc.counts = p.zpc.counts ∧
    ∀ o, (q.zone o).id = (p.zone o).id ∧ (q.zone o).faulted = (p.zone o).faulted ∧
      (q.zone o).survey = (p.zone o).survey ∧ (q.zone o).queue.map (·.id) = (p.zone o).queue.map (·.id)

theorem Play.SameBesideChannels.refl (p : Play) : p.SameBesideChannels p := ⟨rfl, rfl, rfl, rfl, rfl, rfl, rfl, fun _ => ⟨rfl, rfl, rfl, rfl⟩⟩

theorem Play.SameBesideChannels.trans {p q r : Play} (h : p.SameBesideChannels q) (k : q.SameBesideChannels r) : p.SameBesideChannels r := by
  obtain ⟨a1, a2, a3, a4, a5, a6, a7, a8⟩ := h
  obtain ⟨b1, b2, b3, b4, b5, b6, b7, b8⟩ := k
  refine ⟨b1.trans a1, b2.trans a2, b3.trans a3, b4.trans a4, b5.trans a5, b6.trans a6, b7.trans a7, fun o => ?_⟩
  obtain ⟨c1, c2, c3, c4⟩ := a8 o
  obtain ⟨d1, d2, d3, d4⟩ := b8 o
  exact ⟨d1.trans c1, d2.trans c2, d3.trans c3, d4.trans c4⟩

/-! ### Channels -/

/-- A change of the Clip Fetch Unit alone. -/
theorem sameBeside_cfu (p : Play) (c : Clips) : p.SameBesideChannels { p with cfu := c } := Play.SameBesideChannels.refl p

theorem Play.fillNext_sameBeside (ch : Chan) (p : Play) : p.SameBesideChannels (p.fillNext ch) := by
  unfold Play.fillNext; split
  · exact sameBeside_cfu p _
  · exact Play.SameBesideChannels.refl p

theorem Play.askRead_sameBeside (ch : Chan) (p : Play) : p.SameBesideChannels (p.askRead ch) := by
  unfold Play.askRead; dsimp only; split
  · exact Play.SameBesideChannels.refl p
  · split
    · exact sameBeside_cfu p _
    · split
      · exact sameBeside_cfu p _
      · exact Play.SameBesideChannels.refl p

theorem Play.grantPort_sameBeside (p : Play) : p.SameBesideChannels p.grantPort := by
  unfold Play.grantPort; split
  · exact Play.SameBesideChannels.refl p
  · split
    · exact sameBeside_cfu p _
    · exact Play.SameBesideChannels.refl p

theorem Play.pump_sameBeside (ch : Chan) (p : Play) : p.SameBesideChannels (p.pump ch) :=
  ((p.fillNext_sameBeside ch).trans ((p.fillNext ch).askRead_sameBeside ch)).trans
    (((p.fillNext ch).askRead ch).grantPort_sameBeside)

/-- A change of a zone's entries that keeps their ids. -/
theorem sameBeside_entries (p : Play) (o : Out) (test : Entry → Bool) (f : Entry → Entry) (hf : ∀ x, (f x).id = x.id) :
    p.SameBesideChannels (p.onZone o fun z => z.onEntries test f) := by
  refine ⟨rfl, rfl, rfl, rfl, rfl, rfl, rfl, fun q => ?_⟩
  rw [Play.onZone_zone]
  split
  · refine ⟨rfl, rfl, rfl, ?_⟩
    simp only [Zone.onEntries, List.map_map]
    apply List.map_congr_left
    intro x _
    simp only [Function.comp]
    split
    · exact hf x
    · rfl
  · exact ⟨rfl, rfl, rfl, rfl⟩

@[simp] theorem Entry.addCause_id (en : Entry) (f : StopCause → StopCause) : (en.addCause f).id = en.id := by
  unfold Entry.addCause; split <;> rfl

@[simp] theorem Entry.addCause_cls (en : Entry) (f : StopCause → StopCause) : (en.addCause f).cls = en.cls := by
  unfold Entry.addCause; split <;> rfl

@[simp] theorem Entry.addCause_sounding (en : Entry) (f : StopCause → StopCause) :
    (en.addCause f).sounding = en.sounding := by
  unfold Entry.addCause
  cases h : en.state <;> simp [Entry.sounding, h]

theorem Play.tellTheft_sameBeside (ch : Chan) (taker : AnnClass) (p : Play) :
    p.SameBesideChannels (p.tellTheft ch taker) := by
  unfold Play.tellTheft
  dsimp only
  split
  · next id hs =>
    clear hs
    generalize outsOf (p.chan ch).members = l
    induction l generalizing p with
    | nil => exact Play.SameBesideChannels.refl p
    | cons o rest ih =>
      exact (sameBeside_entries p o _ _ fun x => Entry.addCause_id x _).trans (ih _)
  · exact Play.SameBesideChannels.refl p

theorem Play.assign_sameBeside (ch : Chan) (r : ChanRequest) (p : Play) : p.SameBesideChannels (p.assign ch r) :=
  Play.SameBesideChannels.trans (sameBeside_cfu p _) (Play.pump_sameBeside ch _)

theorem Play.newRequest_sameBeside (r : ChanRequest) (p : Play) : p.SameBesideChannels (p.newRequest r) := by
  unfold Play.newRequest
  dsimp only
  split
  · exact sameBeside_cfu p _
  · split
    · exact Play.assign_sameBeside _ r p
    · exact sameBeside_cfu p _

theorem Play.freeChan_sameBeside (ch : Chan) (p : Play) : p.SameBesideChannels (p.freeChan ch) := sameBeside_cfu p _

/-- The allocator changes the Clip Fetch Unit and, by a theft, the stop causes of sounding entries (R131, R133). -/
theorem Play.allocate_sameBeside (n : Nat) (l : List ChanRequest) (p : Play) :
    p.SameBesideChannels (Play.allocate n l p) := by
  induction n generalizing l p with
  | zero => exact Play.SameBesideChannels.refl p
  | succ n ih =>
    unfold Play.allocate
    split
    · exact (Play.assign_sameBeside _ _ p).trans (ih _ _)
    · split
      · exact (Play.newRequest_sameBeside _ p).trans (ih _ _)
      · split
        · exact Play.SameBesideChannels.refl p
        · dsimp only
          split
          · exact (sameBeside_cfu p _).trans (ih _ _)
          · split
            · exact ((sameBeside_cfu p _).trans (Play.tellTheft_sameBeside _ _ _)).trans (ih _ _)
            · exact (sameBeside_cfu p _).trans (ih _ _)

theorem Play.requestChan_sameBeside (o : Out) (cls : AnnClass) (s : Served) (p : Play) :
    p.SameBesideChannels (p.requestChan o cls s) :=
  (sameBeside_cfu p _).trans (Play.allocate_sameBeside _ _ _)

theorem Play.leaveChan_sameBeside (o : Out) (ch : Chan) (p : Play) : p.SameBesideChannels (p.leaveChan o ch) := by
  unfold Play.leaveChan
  dsimp only
  split
  · exact ((sameBeside_cfu p _).trans (Play.freeChan_sameBeside ch _)).trans (Play.allocate_sameBeside _ _ _)
  · exact sameBeside_cfu p _

theorem Play.withdrawRequest_sameBeside (o : Out) (s : Served) (p : Play) :
    p.SameBesideChannels (p.withdrawRequest o s) := by
  unfold Play.withdrawRequest
  dsimp only
  split
  · exact (sameBeside_cfu p _).trans (Play.leaveChan_sameBeside o _ _)
  · exact sameBeside_cfu p _

/-! ### Starting (R82, R83) -/

theorem Play.onEntry_sameBeside (o : Out) (id : AnnId) (f : Entry → Entry) (hf : ∀ x, (f x).id = x.id) (p : Play) :
    p.SameBesideChannels (p.onEntry o id f) := sameBeside_entries p o _ f hf

theorem Play.askChannel_sameBeside (e : Env) (o : Out) (en : Entry) (p : Play) :
    p.SameBesideChannels (p.askChannel e o en) := by
  unfold Play.askChannel; split
  · exact Play.requestChan_sameBeside _ _ _ p
  · exact Play.SameBesideChannels.refl p

/-- A start changes the state of its entry and asks for a channel (R82, R83). -/
theorem Play.startHead_sameBeside (e : Env) (o : Out) (p : Play) : p.SameBesideChannels (p.startHead e o) := by
  unfold Play.startHead
  dsimp only
  split
  · exact Play.SameBesideChannels.refl p
  · split
    · exact Play.SameBesideChannels.refl p
    · exact (Play.onEntry_sameBeside o _ (fun x => { x with state := .starting }) (fun _ => rfl) p).trans
        (Play.askChannel_sameBeside e o _ _)

theorem Play.unstart_sameBeside (o : Out) (p : Play) : p.SameBesideChannels (p.unstart o) := by
  unfold Play.unstart
  split
  · exact Play.SameBesideChannels.refl p
  · exact (Play.onEntry_sameBeside o _ (fun x => { x with state := .queued }) (fun _ => rfl) p).trans
      (Play.withdrawRequest_sameBeside _ _ _)

/-! ### Telling and leaving (R77, R94) -/

/-- Telling an outcome adds to the outbox alone. -/
theorem Play.tellEntry_cases (en : Entry) (o : Outcome) (p : Play) :
    ((∀ a, en.origin ≠ .remote a) ∧ p.tellEntry en o = p) ∨
    ((∃ a, en.origin = .remote a) ∧ p.tellEntry en o = p.onNet (Net.tell en.id en.cls en.reported o)) := by
  unfold Play.tellEntry
  split
  · next a h => exact Or.inr ⟨⟨a, h⟩, rfl⟩
  · next h => exact Or.inl ⟨fun a k => h a k, rfl⟩

@[simp] theorem Play.tellEntry_zpc (en : Entry) (o : Outcome) (p : Play) : (p.tellEntry en o).zpc = p.zpc := by
  rcases Play.tellEntry_cases en o p with ⟨_, h⟩ | ⟨_, h⟩ <;> rw [h]; rfl

@[simp] theorem Play.tellEntry_cfu (en : Entry) (o : Outcome) (p : Play) : (p.tellEntry en o).cfu = p.cfu := by
  rcases Play.tellEntry_cases en o p with ⟨_, h⟩ | ⟨_, h⟩ <;> rw [h]; rfl

@[simp] theorem Play.tellEntry_cmu (en : Entry) (o : Outcome) (p : Play) : (p.tellEntry en o).cmu = p.cmu := by
  rcases Play.tellEntry_cases en o p with ⟨_, h⟩ | ⟨_, h⟩ <;> rw [h]; rfl

@[simp] theorem Play.tellEntry_evl (en : Entry) (o : Outcome) (p : Play) : (p.tellEntry en o).evl = p.evl := by
  rcases Play.tellEntry_cases en o p with ⟨_, h⟩ | ⟨_, h⟩ <;> rw [h]; rfl

/-- A body's count is lowered: the zones, the channels, the levels, the lines, the surveys and what is sent stand. -/
theorem Play.releaseRef_frame (en : Entry) (p : Play) :
    (p.releaseRef en).net = p.net ∧ (p.releaseRef en).zpc = p.zpc ∧ (p.releaseRef en).cfu = p.cfu ∧
      (p.releaseRef en).lvc = p.lvc ∧ (p.releaseRef en).lsu = p.lsu ∧ (p.releaseRef en).vsu = p.vsu ∧
      (p.releaseRef en).evl.active = p.evl.active ∧ (p.releaseRef en).evl.gateClosed = p.evl.gateClosed := by
  unfold Play.releaseRef
  split
  · unfold Play.sweepEvac
    split
    · split <;> simp
    · simp
  · simp

/-- An entry taken out leaves its queue by id and every other zone as it was (R77). -/
theorem Play.takeOut_zone (o q : Out) (en : Entry) (p : Play) :
    (p.takeOut o en).zone q =
      if q = o then { p.zone q with queue := (p.zone q).queue.filter fun x => x.id ≠ en.id } else p.zone q := by
  have h : (p.takeOut o en).zpc =
      (p.onZone o fun z => { z with queue := z.queue.filter fun x => x.id ≠ en.id }).zpc :=
    (Play.releaseRef_frame en _).2.1
  have : (p.takeOut o en).zone q =
      (p.onZone o fun z => { z with queue := z.queue.filter fun x => x.id ≠ en.id }).zone q := by
    simp only [Play.zone, h]
  rw [this, Play.onZone_zone]

/-! ### Offers and moves (R79, R80, R98 to R100) -/

/-- What settling an offer comes to: it is refused with its reason, taken, or taken in the place of the least urgent
QUEUED entry of a full queue (R79, R80). -/
theorem Play.settleOffer_cases (e : Env) (o : Out) (en : Entry) (welcome : Play → Play)
    (refuse : DropReason → Play → Play) (p : Play) :
    (∃ r, (r = .expired ∨ r = .queueFull) ∧ p.settleOffer e o en welcome refuse = refuse r p) ∨
    (e.expired en = false ∧ (p.zone o).queue.length < 8 ∧
      p.settleOffer e o en welcome refuse = (welcome p).enterZone e o en) ∨
    (∃ x, e.expired en = false ∧ 8 ≤ (p.zone o).queue.length ∧ (p.zone o).leastQueued = some x ∧
      moreUrgent en.cls x.cls = true ∧
      p.settleOffer e o en welcome refuse = (welcome (p.dropWaiting e o .displaced x)).enterZone e o en) := by
  unfold Play.settleOffer
  cases he : e.expired en with
  | true => exact Or.inl ⟨.expired, Or.inl rfl, by simp⟩
  | false =>
    by_cases hl : 8 ≤ (p.zone o).queue.length
    · cases hx : (p.zone o).leastQueued with
      | none => exact Or.inl ⟨.queueFull, Or.inr rfl, by simp [hl]⟩
      | some x =>
        cases hu : moreUrgent en.cls x.cls with
        | true => exact Or.inr (Or.inr ⟨x, rfl, hl, rfl, hu, by simp [hl, hu]⟩)
        | false => exact Or.inl ⟨.queueFull, Or.inr rfl, by simp [hl, hu]⟩
    · exact Or.inr (Or.inl ⟨rfl, by omega, by simp [hl]⟩)

/-- A fallback is the configured output of an owned zone that is not FAULTED and whose queue does not hold the id
(R97). -/
theorem Play.fallback_some {e : Env} {p : Play} {o f : Out} {id : AnnId} {z : Nat} (h : p.fallback e o id = some (f, z)) :
    (p.zone f).id = some z ∧ (p.zone f).faulted = false ∧ ∀ x ∈ (p.zone f).queue, x.id ≠ id := by
  unfold Play.fallback at h
  split at h
  · cases h
  · split at h
    · cases h
    · split at h
      · cases h
      · next hz =>
        split at h
        · cases h
        · next hc =>
          cases h
          simp only [Bool.or_eq_true, List.any_eq_true, decide_eq_true_eq, not_or, not_exists, not_and] at hc
          exact ⟨hz, by simpa using hc.1, hc.2⟩

/-! ### Block boundaries (R131, R136) -/

/-- A block that fills the next-block place grants a PREPARING channel, marked with the boundary taken last (R131). -/
theorem Channel.fill_cases (b : Block) (taken : Nat) (c : Channel) :
    (c.state = .preparing ∧ c.fill b taken = { c with next := some b, state := .granted, boundary := taken }) ∨
    (c.state ≠ .preparing ∧ c.fill b taken = { c with next := some b }) := by
  unfold Channel.fill
  split
  · next h => exact Or.inl ⟨h, rfl⟩
  · next h => exact Or.inr ⟨h, rfl⟩

/-- A read is served at a class only where the channel has one outstanding, and then at the channel's class unless the
channel is FREE (R136). -/
theorem Clips.readClass_some {c : Clips} {ch : Chan} {k : AnnClass} (h : c.readClass ch = some k) :
    (c.channels.get ch).read.isSome = true ∧
      ((c.channels.get ch).state ≠ .free → k = (c.channels.get ch).cls) := by
  unfold Clips.readClass at h
  dsimp only at h
  cases hr : (c.channels.get ch).read with
  | none => simp [hr] at h
  | some r =>
    simp only [hr, Option.map_some, Option.some.injEq] at h
    refine ⟨rfl, fun hs => ?_⟩
    rw [if_neg hs] at h
    exact h.symm

/-! ### The end of a command (R117, R172) -/

/-- The start gate changes the evacuation unit's gate alone (R172). -/
theorem Play.gateCheck_frame (p : Play) :
    p.gateCheck = { p with evl := p.gateCheck.evl } ∧ p.gateCheck.evl.active = p.evl.active ∧
      p.gateCheck.evl.raw = p.evl.raw ∧ p.gateCheck.evl.idInUse = p.evl.idInUse ∧
      p.gateCheck.evl.assertions = p.evl.assertions := by
  unfold Play.gateCheck
  dsimp only
  split
  · simp
  · split <;> simp [Play.onEvl]

/-- An open gate stands open. -/
theorem Play.gateCheck_of_open {p : Play} (h : p.evl.gateClosed = false) : p.gateCheck = p := by
  simp [Play.gateCheck, h]

/-- With nothing to report and the gate open, the end of a command changes nothing. -/
theorem Play.finish_of_quiet (e : Env) {p : Play} (ho : p.net.pau.outbox = []) (hh : p.net.pau.held = [])
    (hg : p.evl.gateClosed = false) : p.finish e = p := by
  have h1 : p.onNet (Net.flushHeld e) = p := by simp only [Play.onNet, Net.flushHeld_of_empty e hh]
  have h2 : p.onNet (Net.flush e) = p := by simp only [Play.onNet, Net.flush_of_empty e ho]
  unfold Play.finish
  simp only [h1, ite_self, h2]
  exact Play.gateCheck_of_open hg

/-- With nothing to report and the gate open, the end of a command of a block boundary changes nothing. -/
theorem Play.finishBoundary_of_quiet (e : Env) {p : Play} (ho : p.net.pau.outbox = []) (hh : p.net.pau.held = [])
    (hg : p.evl.gateClosed = false) : p.finishBoundary e = p := by
  have h0 : (p.onNet fun n => n.onPau fun q => { q with held := q.held ++ q.outbox, outbox := [] }) = p := by
    cases p with
    | mk net zpc cmu cfu lvc lsu vsu evl =>
      cases net with
      | mk lki pau flt => cases pau; simp_all [Play.onNet, Net.onPau]
  have h1 : p.onNet (Net.flushHeld e) = p := by simp only [Play.onNet, Net.flushHeld_of_empty e hh]
  unfold Play.finishBoundary
  simp only [h0, h1, ite_self]
  exact Play.gateCheck_of_open hg

theorem State.finish_of_quiet {s : State} (h : s.Quiet) : s.finish = s := by
  simp only [State.finish, State.onPlay, Play.finish_of_quiet s.env h.1 h.2.1 h.2.2]

theorem State.finishBoundary_of_quiet {s : State} (h : s.Quiet) : s.finishBoundary = s := by
  simp only [State.finishBoundary, State.onPlay, Play.finishBoundary_of_quiet s.env h.1 h.2.1 h.2.2]

/-- The end of a command leaves everything but the transmit side, the outcomes to report and the gate, and leaves no
outcome gathered. -/
theorem State.finish_frame (s : State) :
    s.finish.play.zpc = s.play.zpc ∧ s.finish.play.cmu = s.play.cmu ∧ s.finish.play.cfu = s.play.cfu ∧
      s.finish.play.lvc = s.play.lvc ∧ s.finish.play.lsu = s.play.lsu ∧ s.finish.play.vsu = s.play.vsu ∧
      s.finish.play.net.flt = s.play.net.flt ∧ s.finish.play.evl.active = s.play.evl.active ∧
      s.finish.play.evl.raw = s.play.evl.raw ∧ s.finish.play.evl.idInUse = s.play.evl.idInUse ∧
      s.finish.play.evl.assertions = s.play.evl.assertions ∧ s.finish.play.net.pau.outbox = [] ∧
      s.SameTables s.finish := by
  have key : ∀ n : Net, n.flt = s.play.net.flt → n.pau.outbox = [] →
      ∀ q : Play, q = ({ s.play with net := n } : Play).gateCheck →
      q.zpc = s.play.zpc ∧ q.cmu = s.play.cmu ∧ q.cfu = s.play.cfu ∧ q.lvc = s.play.lvc ∧ q.lsu = s.play.lsu ∧
      q.vsu = s.play.vsu ∧ q.net.flt = s.play.net.flt ∧ q.evl.active = s.play.evl.active ∧
      q.evl.raw = s.play.evl.raw ∧ q.evl.idInUse = s.play.evl.idInUse ∧ q.evl.assertions = s.play.evl.assertions ∧
      q.net.pau.outbox = [] := by
    intro n hf ho q hq
    obtain ⟨h, h1, h2, h3, h4⟩ := Play.gateCheck_frame { s.play with net := n }
    rw [← hq] at h h1 h2 h3 h4
    refine ⟨by rw [h], by rw [h], by rw [h], by rw [h], by rw [h], by rw [h], by rw [h]; exact hf, h1, h2, h3, h4,
      by rw [h]; exact ho⟩
  have goal : ∃ n : Net, n.flt = s.play.net.flt ∧ n.pau.outbox = [] ∧
      s.finish.play = ({ s.play with net := n } : Play).gateCheck := by
    simp only [State.finish, State.onPlay, Play.finish]
    split
    · exact ⟨_, Net.flush_flt _ _, Net.flush_outbox _ _, rfl⟩
    · exact ⟨_, by simp, Net.flush_outbox _ _, rfl⟩
  obtain ⟨n, hf, ho, hq⟩ := goal
  obtain ⟨a1, a2, a3, a4, a5, a6, a7, a8, a9, a10, a11, a12⟩ := key n hf ho _ hq
  exact ⟨a1, a2, a3, a4, a5, a6, a7, a8, a9, a10, a11, a12, rfl, rfl, rfl, rfl, rfl, rfl⟩

end Sys2Proof.Machine
end

