-- ==== Sys2Proof/Laws/Link.lean ====
section
/-! SUPPORT. What receiving a frame and settling a maintenance request come to (R179, R197). -/
namespace Sys2Proof.Machine

/-! ### Guards -/

@[simp] theorem State.when_true (act : State → State) (s : State) : s.when true act = act s := rfl

@[simp] theorem State.when_false (act : State → State) (s : State) : s.when false act = s := rfl

theorem State.whenRunning_running {s : State} (act : State → State) (h : s.cfl.load = .running) :
    s.whenRunning act = act s := by simp [State.whenRunning, h]

theorem State.whenRunning_other {s : State} (act : State → State) (h : s.cfl.load ≠ .running) :
    s.whenRunning act = s := by simp [State.whenRunning, h]

theorem State.env_running {s : State} (h : s.cfl.load = .running) : s.env.running = true := by
  simp [Env.running, State.env, h]

theorem State.env_not_running {s : State} (h : s.cfl.load ≠ .running) : s.env.running = false := by
  simp [Env.running, State.env, h]

/-! ### A good frame taken (R179, R180) -/

@[simp] theorem State.tookGood_sck (s : State) : s.tookGood.sck = s.sck := rfl

@[simp] theorem State.tookGood_ctb (s : State) : s.tookGood.ctb = s.ctb := rfl

@[simp] theorem State.tookGood_tgu (s : State) : s.tookGood.tgu = s.tgu := rfl

@[simp] theorem State.tookGood_cfl (s : State) : s.tookGood.cfl = s.cfl := rfl

@[simp] theorem State.tookGood_elapsed (s : State) : s.tookGood.elapsed = s.elapsed := rfl

@[simp] theorem State.tookGood_pending (s : State) : s.tookGood.pending = s.pending := rfl

@[simp] theorem State.tookGood_env (s : State) : s.tookGood.env = s.env := rfl

/-- A good frame changes the idle count and the count of good frames of the Link Interface alone. -/
theorem State.tookGood_play (s : State) : s.tookGood.play = { s.play with net := { s.play.net with
    lki := { s.play.net.lki with
      idle := 0, busy := false
      counts := { s.play.net.lki.counts with good := bump s.play.net.lki.counts.good } } } } := rfl

@[simp] theorem State.tookGood_zone (s : State) (o : Out) : s.tookGood.play.zone o = s.play.zone o := rfl

@[simp] theorem State.tookGood_chan (s : State) (c : Chan) : s.tookGood.play.chan c = s.play.chan c := rfl

@[simp] theorem State.tookGood_surveyAt (s : State) (o : Out) : s.tookGood.play.surveyAt o = s.play.surveyAt o := rfl

@[simp] theorem State.tookGood_levelAt (s : State) (o : Out) : s.tookGood.play.levelAt o = s.play.levelAt o := rfl

@[simp] theorem State.tookGood_lineAt (s : State) (o : Out) : s.tookGood.play.lineAt o = s.play.lineAt o := rfl

theorem State.Quiet.tookGood {s : State} (h : s.Quiet) : s.tookGood.Quiet := h

/-! ### Receiving (R179) -/

/-- What receiving a frame of a row can do (R179). -/
theorem State.receive_cases (env : Envelope) (ok : Bool) (act : State → State) (s : State) :
    (destOk s.cfl.own env.dst = false ∧ s.receive env ok act =
      s.onLki fun l => { l with idle := 0, busy := false, counts :=
        { l.counts with wrongDest := bump l.counts.wrongDest } }) ∨
    (destOk s.cfl.own env.dst = true ∧ ok = false ∧ s.receive env ok act =
      s.onLki fun l => { l with idle := 0, busy := false, counts :=
        { l.counts with malformed := bump l.counts.malformed } }) ∨
    (destOk s.cfl.own env.dst = true ∧ ok = true ∧ s.receive env ok act = act s.tookGood) := by
  unfold State.receive
  cases h : destOk s.cfl.own env.dst with
  | false => left; simp [h]; rfl
  | true =>
    right
    cases ok with
    | false => left; simp [h]; rfl
    | true => right; simp [h]; rfl

theorem State.receive_good {s : State} {env : Envelope} (act : State → State) (h : destOk s.cfl.own env.dst = true) :
    s.receive env true act = act s.tookGood := by
  rcases State.receive_cases env true act s with ⟨k, _⟩ | ⟨_, k, _⟩ | ⟨_, _, k⟩
  · simp [h] at k
  · simp at k
  · exact k

/-- A frame that RUNNING hands to its block. -/
theorem State.receive_takes {s : State} {env : Envelope} (act : State → State) (h : s.TakesFrame env) :
    s.receive env true (State.whenRunning act) = act s.tookGood := by
  rw [State.receive_good _ h.2]
  exact State.whenRunning_running act h.1

/-! ### Maintenance requests (R197) -/

theorem State.TakesRequest.destOk {s : State} {h : MaintHead} (t : s.TakesRequest h) :
    destOk s.cfl.own h.env.dst = true := by
  obtain ⟨_, hd, h0, _⟩ := t
  simp [Sys2Proof.Machine.destOk, hd, h0]

/-- A request that the Fault Log takes is settled and answered. -/
theorem State.maint_takes {s : State} {h : MaintHead} (code : Nat) (settle : State → Settled) (t : s.TakesRequest h) :
    s.maint h code settle = (settle s.tookGood).reply h code := by
  unfold State.maint
  rw [State.receive_good _ t.destOk, State.whenRunning_running _ (by simpa using t.1)]
  have : h.env.dst ≠ 31 := by rw [t.2.1]; exact t.2.2.2.1
  simp [this]

/-- A settled request whose state has room in its transmit queue is answered by `State.replied`. -/
theorem Settled.reply_room {r : Settled} {h : MaintHead} {code : Nat} (hr : r.state.cfl.load = .running)
    (hl : r.state.play.net.lki.queue.length < 16) :
    r.reply h code = r.state.replied h code r.refused r.content := by
  have room : Net.enqueue r.state.env ⟨2, h.env.src, .maintReply code h.tag r.refused r.content⟩
      { r.state.play.net with flt := r.state.play.net.flt.countReply r.refused } =
      { r.state.play.net with
        flt := r.state.play.net.flt.countReply r.refused
        lki := { r.state.play.net.lki with
          queue := insertFrame r.state.play.net.lki.queue ⟨2, h.env.src, .maintReply code h.tag r.refused r.content⟩ } } :=
    Net.enqueue_room _ (State.env_running hr) hl
  simp only [Settled.reply, State.replied, State.onNet, State.onPlay, Play.onNet, room]

theorem State.replied_quiet {s : State} (h : s.Quiet) (head : MaintHead) (code : Nat) (refused : Option RefuseReason)
    (content : ReplyContent) : (s.replied head code refused content).Quiet := h

/-- A request that leaves the surroundings, the queue's room, the outbox and the gate as they were ends as its reply. -/
theorem State.maint_answer {s : State} {h : MaintHead} (code : Nat) (settle : State → Settled) (t : s.TakesRequest h)
    (hl : (settle s.tookGood).state.play.net.lki.queue = s.play.net.lki.queue)
    (hc : (settle s.tookGood).state.cfl.load = s.cfl.load) (hq : (settle s.tookGood).state.Quiet) :
    (s.maint h code settle).finish =
      (settle s.tookGood).state.replied h code (settle s.tookGood).refused (settle s.tookGood).content := by
  rw [State.maint_takes code settle t, Settled.reply_room (by rw [hc]; exact t.1) (by rw [hl]; exact t.2.2.2.2.1)]
  exact State.finish_of_quiet (State.replied_quiet hq h code _ _)

end Sys2Proof.Machine
end

