-- ==== Sys2Proof/Laws/Calls.lean ====
section
/-! SUPPORT. What issuing requests, evaluating LEAD triggers and settling a call event leave as they were: the clock, the
loader, and every call record but for its fired set (R16, R42, R46). -/
namespace Sys2Proof.Machine

theorem State.SameSurroundings.refl (s : State) : s.SameSurroundings s := ⟨rfl, rfl, rfl, rfl⟩

theorem State.SameSurroundings.trans {s t u : State} (h : s.SameSurroundings t) (k : t.SameSurroundings u) :
    s.SameSurroundings u :=
  ⟨k.1.trans h.1, k.2.1.trans h.2.1, k.2.2.1.trans h.2.2.1, k.2.2.2.trans h.2.2.2⟩

theorem State.onPlay_same (s : State) (f : Env → Play → Play) : s.SameSurroundings (s.onPlay f) := ⟨rfl, rfl, rfl, rfl⟩

theorem State.onCtb_same (s : State) (f : CallTable → CallTable) : s.SameSurroundings (s.onCtb f) := ⟨rfl, rfl, rfl, rfl⟩

theorem State.onTgu_same (s : State) (f : Triggers → Triggers) : s.SameSurroundings (s.onTgu f) := ⟨rfl, rfl, rfl, rfl⟩

/-- The surroundings settle what `Env` reads. -/
theorem State.SameSurroundings.env {s t : State} (h : s.SameSurroundings t) : t.env = s.env := by
  obtain ⟨h1, h2, h3, _⟩ := h
  simp only [State.env, h1, h2, h3]

/-! ### Requests (R50 to R54) -/

/-- Issuing a request leaves the Call Table and the surroundings: it counts and composes. -/
theorem State.issue_frame (snap : CallRec) (platforms : List Nat) (s : State) (t : Fin 32 × Trigger) :
    (State.issue snap platforms s t).ctb = s.ctb ∧ s.SameSurroundings (State.issue snap platforms s t) := by
  unfold State.issue
  dsimp only
  split
  · exact ⟨rfl, rfl, rfl, rfl, rfl⟩
  · split <;> exact ⟨rfl, rfl, rfl, rfl, rfl⟩

theorem State.issueAll_frame (snap : CallRec) (platforms : List Nat) (l : List (Fin 32 × Trigger)) (s : State) :
    (l.foldl (State.issue snap platforms) s).ctb = s.ctb ∧
      s.SameSurroundings (l.foldl (State.issue snap platforms) s) := by
  induction l generalizing s with
  | nil => exact ⟨rfl, rfl, rfl, rfl, rfl⟩
  | cons t rest ih =>
    obtain ⟨a, b⟩ := ih (State.issue snap platforms s t)
    obtain ⟨c, d⟩ := State.issue_frame snap platforms s t
    exact ⟨a.trans c, d.trans b⟩

/-- STATE matching leaves the Call Table and the surroundings (R42). -/
theorem State.stateMatch_frame (ev : CallEvent) (r : CallRec) (platform : Nat) (platforms : List Nat) (s : State) :
    (s.stateMatch ev r platform platforms).ctb = s.ctb ∧
      s.SameSurroundings (s.stateMatch ev r platform platforms) := by
  unfold State.stateMatch
  exact State.issueAll_frame _ _ _ _

/-! ### Evaluation (R45, R46) -/

/-- The fired set of a record after an evaluation at the state: the due pairs' flags are set while the clock is set and
the call live (R46). -/
def State.firedAfter (s : State) (r : CallRec) : BitVec 32 :=
  if s.sck.state = .unset ∨ r.state.live = false then r.fired
  else setFired r.fired (s.triggers.filter (leadDue s.sck.time r))

/-- An evaluation of a held record sets fired flags of that record alone (R46). -/
theorem State.evaluate_held {s : State} {i : Fin 96} {r : CallRec} (h : s.ctb.places.get i = .held r) :
    (s.evaluate i).ctb = { s.ctb with
      places := upd s.ctb.places i fun _ => .held { r with fired := s.firedAfter r } } ∧
      s.SameSurroundings (s.evaluate i) := by
  unfold State.evaluate State.firedAfter
  simp only [h]
  by_cases hu : s.sck.state = .unset ∨ r.state.live = false
  · have hb : (decide (s.sck.state = .unset) || !r.state.live) = true := by
      rcases hu with h1 | h1 <;> simp [h1]
    simp only [hb, hu, if_true]
    refine ⟨?_, State.SameSurroundings.refl s⟩
    have : upd s.ctb.places i (fun _ => .held { r with fired := r.fired }) = s.ctb.places :=
      upd_eq_self _ _ _ h.symm
    rw [this]
  · have hb : (decide (s.sck.state = .unset) || !r.state.live) = false := by
      simp only [not_or] at hu
      simp [hu.1, hu.2]
    simp only [hb, hu, if_false, Bool.false_eq_true]
    obtain ⟨a, b⟩ := State.issueAll_frame r [r.platform]
      (requesters ((s.triggers.filter (leadDue s.sck.time r)).filter fun t => !leadStale s.sck.time r t))
      ((s.onTgu fun g => (g.skip ((s.triggers.filter (leadDue s.sck.time r)).filter (leadStale s.sck.time r))).hit
        ((s.triggers.filter (leadDue s.sck.time r)).filter fun t => !leadStale s.sck.time r t)).onCtb fun c =>
          c.onRec i fun x => { x with fired := setFired x.fired (s.triggers.filter (leadDue s.sck.time r)) })
    refine ⟨a.trans ?_, ((State.onTgu_same s _).trans (State.onCtb_same _ _)).trans b⟩
    simp only [State.onCtb_ctb, State.onTgu_ctb, CallTable.onRec]
    congr 1
    apply vector_ext
    intro j
    simp only [upd_get]
    split
    · next e => subst e; simp [h]
    · rfl

/-- An evaluation of a place that holds no record changes nothing. -/
theorem State.evaluate_other {s : State} {i : Fin 96} (h : ∀ r, s.ctb.places.get i ≠ .held r) : s.evaluate i = s := by
  unfold State.evaluate
  split
  · next r hr => exact absurd hr (h r)
  · rfl

/-- An evaluation changes the Call Table at its place alone, and leaves the surroundings. -/
theorem State.evaluate_frame (s : State) (i : Fin 96) :
    s.SameSurroundings (s.evaluate i) ∧ s.ctb.SameInputs (s.evaluate i).ctb ∧
      (s.evaluate i).ctb.counts = s.ctb.counts ∧
      ∀ j, j ≠ i → (s.evaluate i).ctb.places.get j = s.ctb.places.get j := by
  by_cases h : ∃ r, s.ctb.places.get i = .held r
  · obtain ⟨r, hr⟩ := h
    obtain ⟨a, b⟩ := State.evaluate_held hr
    rw [a]
    exact ⟨b, ⟨rfl, rfl, rfl⟩, rfl, fun j hj => upd_get_of_ne _ _ _ _ hj⟩
  · rw [State.evaluate_other fun r hr => h ⟨r, hr⟩]
    exact ⟨State.SameSurroundings.refl s, ⟨rfl, rfl, rfl⟩, rfl, fun _ _ => rfl⟩

/-- A re-arm changes the fired set of its record alone (R48). -/
theorem State.rearm_eq (i : Fin 96) (s : State) : s.rearm i = s.onCtb fun c => c.onRec i fun x =>
    { x with fired := rearmed s.triggers s.sck.time x } := rfl

/-! ### Call events (R16) -/

/-- What a call event leaves on the record it is raised for: the record but for its fired set; every other place, the
inputs, the counts and the surroundings are as they were (R14 to R16). -/
theorem State.callEvent_frame {s : State} {i : Fin 96} {r : CallRec} (h : s.ctb.places.get i = .held r)
    (ev : CallEvent) (changed : Bool) (platform : Nat) (platforms : List Nat) (he : ev ≠ .alteredAway) :
    (∃ fired, (s.callEvent i ev changed platform platforms).ctb.places.get i = .held { r with fired := fired }) ∧
    (∀ j, j ≠ i → (s.callEvent i ev changed platform platforms).ctb.places.get j = s.ctb.places.get j) ∧
    s.ctb.SameInputs (s.callEvent i ev changed platform platforms).ctb ∧
    (s.callEvent i ev changed platform platforms).ctb.counts = s.ctb.counts ∧
    s.SameSurroundings (s.callEvent i ev changed platform platforms) := by
  have main : ∀ (u v : State), u.ctb = s.ctb → s.SameSurroundings u →
      (v = u ∨ ∃ g : CallRec → BitVec 32, v = u.onCtb fun c => c.onRec i fun x => { x with fired := g x }) →
      (∃ fired, (v.evaluate i).ctb.places.get i = .held { r with fired := fired }) ∧
      (∀ j, j ≠ i → (v.evaluate i).ctb.places.get j = s.ctb.places.get j) ∧
      s.ctb.SameInputs (v.evaluate i).ctb ∧ (v.evaluate i).ctb.counts = s.ctb.counts ∧
      s.SameSurroundings (v.evaluate i) := by
    intro u v hu hs hv
    have hv' : (∃ f, v.ctb.places.get i = .held { r with fired := f }) ∧
        (∀ j, j ≠ i → v.ctb.places.get j = s.ctb.places.get j) ∧ s.ctb.SameInputs v.ctb ∧
        v.ctb.counts = s.ctb.counts ∧ s.SameSurroundings v := by
      rcases hv with rfl | ⟨g, rfl⟩
      · rw [hu]; exact ⟨⟨r.fired, h⟩, fun _ _ => rfl, ⟨rfl, rfl, rfl⟩, rfl, hs⟩
      · simp only [State.onCtb_ctb, hu, CallTable.onRec]
        refine ⟨⟨g r, ?_⟩, fun j hj => upd_get_of_ne _ _ _ _ hj, ⟨rfl, rfl, rfl⟩, trivial, hs⟩
        simp [h]
    obtain ⟨⟨f, hf⟩, h2, h3, h4, h5⟩ := hv'
    obtain ⟨a, b⟩ := State.evaluate_held hf
    obtain ⟨_, _, _, e4⟩ := State.evaluate_frame v i
    rw [a] at e4 ⊢
    refine ⟨⟨v.firedAfter { r with fired := f }, by simp⟩, fun j hj => (e4 j hj).trans (h2 j hj), ?_, h4, h5.trans b⟩
    exact h3
  unfold State.callEvent
  simp only [h, Place.rec?, he, if_false]
  cases changed with
  | false =>
    simp only [Bool.false_eq_true, if_false]
    obtain ⟨a, b⟩ := State.stateMatch_frame ev r platform platforms s
    exact main _ _ a b (Or.inl rfl)
  | true =>
    simp only [if_true]
    obtain ⟨a, b⟩ := State.stateMatch_frame ev r platform platforms
      (s.onPlay fun e p => p.removeCalls e (fun k ep => k = some r.key && ep ≠ some r.epoch) ev.stops)
    have b' := (State.onPlay_same s _).trans b
    clear b
    generalize State.stateMatch ev r platform platforms _ = u at a b' ⊢
    rw [State.onPlay_ctb] at a
    exact main u (u.rearm i) a b' (Or.inr ⟨fun x => rearmed u.triggers u.sck.time x, State.rearm_eq i u⟩)

/-- What raising an event for a changed record leaves (R15, R16). -/
theorem State.raise_frame (i : Fin 96) (r : CallRec) (ev : CallEvent) (changed : Bool) (s : State)
    (he : ev ≠ .alteredAway) :
    (∃ fired, (s.raise i r ev changed).ctb.places.get i = .held { r with fired := fired }) ∧
    (∀ j, j ≠ i → (s.raise i r ev changed).ctb.places.get j = s.ctb.places.get j) ∧
    s.ctb.SameInputs (s.raise i r ev changed).ctb ∧ (s.raise i r ev changed).ctb.counts = s.ctb.counts ∧
    s.SameSurroundings (s.raise i r ev changed) := by
  have hp : (s.onCtb fun c => c.put i (.held r)).ctb.places.get i = .held r := by simp [CallTable.put]
  obtain ⟨h1, h2, h3, h4, h5⟩ := State.callEvent_frame hp ev changed r.platform [r.platform] he
  refine ⟨h1, fun j hj => (h2 j hj).trans ?_, h3, h4, (State.onCtb_same s _).trans h5⟩
  simp [CallTable.put, upd_get_of_ne _ _ _ _ hj]

/-- A record that leaves the table by ALTERED_AWAY frees its place (R14, R15). -/
theorem State.alterAway_frame (i : Fin 96) (old new : CallRec) (s : State) :
    (s.alterAway i old new).ctb.places.get i = .free ∧
    (∀ j, j ≠ i → (s.alterAway i old new).ctb.places.get j = s.ctb.places.get j) ∧
    s.ctb.SameInputs (s.alterAway i old new).ctb ∧ (s.alterAway i old new).ctb.counts = s.ctb.counts ∧
    s.SameSurroundings (s.alterAway i old new) := by
  unfold State.alterAway State.callEvent
  have hp : (s.onCtb fun c => c.put i (.leaving new.nextEpoch)).ctb.places.get i = .leaving new.nextEpoch := by
    simp [CallTable.put]
  simp only [hp, Place.rec?, if_true]
  obtain ⟨a, b⟩ := State.stateMatch_frame .alteredAway new.nextEpoch old.platform [old.platform]
    ((s.onCtb fun c => c.put i (.leaving new.nextEpoch)).onPlay fun e p =>
      p.removeCalls e (fun k ep => k = some new.nextEpoch.key && ep ≠ some new.nextEpoch.epoch) CallEvent.alteredAway.stops)
  simp only [State.onCtb_ctb, a, State.onPlay_ctb]
  refine ⟨by simp [CallTable.put], fun j hj => ?_, ⟨rfl, rfl, rfl⟩, rfl, ?_⟩
  · simp [CallTable.put, upd_get_of_ne _ _ _ _ hj]
  · exact ((State.onCtb_same s _).trans (State.onPlay_same _ _)).trans (b.trans (State.onCtb_same _ _))

/-- The evaluation of every record leaves each but for its fired set (R45). -/
theorem State.evaluateAll_frame (s : State) :
    s.SameSurroundings s.evaluateAll ∧ s.ctb.SameInputs s.evaluateAll.ctb ∧
      s.evaluateAll.ctb.counts = s.ctb.counts ∧
      (∀ i r, s.ctb.places.get i = .held r → ∃ fired, s.evaluateAll.ctb.places.get i = .held { r with fired := fired }) ∧
      ∀ i, (∀ r, s.ctb.places.get i ≠ .held r) → s.evaluateAll.ctb.places.get i = s.ctb.places.get i := by
  have step : ∀ (l : List (Fin 96)) (u : State),
      u.SameSurroundings (l.foldl State.evaluate u) ∧ u.ctb.SameInputs (l.foldl State.evaluate u).ctb ∧
      (l.foldl State.evaluate u).ctb.counts = u.ctb.counts ∧
      (∀ i r, u.ctb.places.get i = .held r →
        ∃ fired, (l.foldl State.evaluate u).ctb.places.get i = .held { r with fired := fired }) ∧
      ∀ i, (∀ r, u.ctb.places.get i ≠ .held r) →
        (l.foldl State.evaluate u).ctb.places.get i = u.ctb.places.get i := by
    intro l
    induction l with
    | nil => intro u; exact ⟨State.SameSurroundings.refl u, ⟨rfl, rfl, rfl⟩, rfl, fun i r h => ⟨r.fired, h⟩, fun _ _ => rfl⟩
    | cons j rest ih =>
      intro u
      obtain ⟨a1, a2, a3, a4, a5⟩ := ih (u.evaluate j)
      obtain ⟨b1, b2, b3, b4⟩ := State.evaluate_frame u j
      refine ⟨b1.trans a1, ⟨a2.1.trans b2.1, a2.2.1.trans b2.2.1, a2.2.2.trans b2.2.2⟩, a3.trans b3, ?_, ?_⟩
      · intro i r h
        by_cases hj : i = j
        · subst hj
          obtain ⟨c, _⟩ := State.evaluate_held h
          have : (u.evaluate i).ctb.places.get i = .held { r with fired := u.firedAfter r } := by rw [c]; simp
          obtain ⟨f, hf⟩ := a4 i _ this
          exact ⟨f, hf⟩
        · exact a4 i r ((b4 i hj).trans h)
      · intro i h
        by_cases hj : i = j
        · subst hj
          rw [List.foldl_cons, State.evaluate_other h]
          have := a5 i (by rw [State.evaluate_other h]; exact h)
          rw [State.evaluate_other h] at this
          exact this
        · exact (a5 i (by rw [b4 i hj]; exact h)).trans (b4 i hj)
  unfold State.evaluateAll
  exact step (List.finRange 96) s

end Sys2Proof.Machine
end

