-- ==== Sys2Proof/Laws/Blocks.lean ====
section
/-! SUPPORT. What the operations on levels, drops, offers and start-up can change. -/
namespace Sys2Proof.Machine

/-! ### Levels (R145 to R152) -/

/-- An operation of the Level Controller on one output: every other block, and every other output's values, stand. -/
def Play.OnlyLevel (o : Out) (p q : Play) : Prop :=
  q = { p with lvc := q.lvc } ∧ (∀ x, x ≠ o → q.levelAt x = p.levelAt x) ∧ q.lvc.windowAt = p.lvc.windowAt

theorem Play.onLevel_only (p : Play) (o : Out) (f : Level → Level) : p.OnlyLevel o (p.onLevel o f) :=
  ⟨rfl, fun _ h => upd_get_of_ne _ _ _ _ h, rfl⟩

theorem Play.OnlyLevel.refl (o : Out) (p : Play) : p.OnlyLevel o p := ⟨rfl, fun _ _ => rfl, rfl⟩

theorem Play.OnlyLevel.trans {o : Out} {p q r : Play} (h : p.OnlyLevel o q) (k : q.OnlyLevel o r) : p.OnlyLevel o r := by
  obtain ⟨a1, a2, a3⟩ := h
  obtain ⟨b1, b2, b3⟩ := k
  exact ⟨b1.trans (by rw [a1]), fun x hx => (b2 x hx).trans (a2 x hx), b3.trans a3⟩

theorem Play.computeGain_only (e : Env) (o : Out) (cls : AnnClass) (fromIdle : Bool) (p : Play) :
    p.OnlyLevel o (p.computeGain e o cls fromIdle) := by
  unfold Play.computeGain
  split
  · exact p.onLevel_only o _
  · exact Play.OnlyLevel.refl o p

theorem Play.gainAtStart_only (e : Env) (o : Out) (cls : AnnClass) (fromIdle : Bool) (p : Play) :
    p.OnlyLevel o (p.gainAtStart e o cls fromIdle) := by
  unfold Play.gainAtStart
  split
  · exact (p.onLevel_only o _).trans (Play.computeGain_only e o cls fromIdle _)
  · exact p.onLevel_only o _

theorem Play.gainAtProbe_only (e : Env) (o : Out) (curve : Nat) (p : Play) : p.OnlyLevel o (p.gainAtProbe e o curve) := by
  unfold Play.gainAtProbe
  split
  · exact p.onLevel_only o _
  · exact Play.OnlyLevel.refl o p

theorem Play.carry_only (o : Out) (b : Block) (p : Play) : p.OnlyLevel o (p.carry o b) := by
  unfold Play.carry
  split
  · exact p.onLevel_only o _
  · exact ⟨rfl, fun _ h => upd_get_of_ne _ _ _ _ h, rfl⟩

theorem Play.fallSilent_only (e : Env) (o : Out) (p : Play) : p.OnlyLevel o (p.fallSilent e o) := p.onLevel_only o _

/-- The gain of a zone with an owned zone record takes the target, or slews to it, and the target is stored (R148, R149). -/
theorem Play.computeGain_level {e : Env} {i : Image} {z : ZoneCfg} (o : Out) (cls : AnnClass) (fromIdle : Bool)
    (p : Play) (hi : e.image = some i) (hz : e.zoneCfg o = some z) :
    (p.computeGain e o cls fromIdle).levelAt o =
      { p.levelAt o with
        gain := if fromIdle then gainTarget i z cls (wholeNoise (p.levelAt o).n16) (p.surveyAt o).offset e.quiet
          else slewGain (p.levelAt o).gain
            (gainTarget i z cls (wholeNoise (p.levelAt o).n16) (p.surveyAt o).offset e.quiet) i.slew
        target := some (gainTarget i z cls (wholeNoise (p.levelAt o).n16) (p.surveyAt o).offset e.quiet) } := by
  unfold Play.computeGain
  simp [hi, hz]

/-! ### Meter (R140, R141) -/

/-- Samples entering one accumulator add the sum of their squares and their number, and nothing else changes. -/
theorem Level.accumulate_all (xs : List Int) (l : Level) :
    xs.foldl (fun l x => l.accumulate x) l =
      { l with accSum := l.accSum + (xs.map fun x => x.natAbs ^ 2).sum, accCount := l.accCount + xs.length } := by
  induction xs generalizing l with
  | nil => rfl
  | cons x rest ih =>
    rw [List.foldl_cons, ih]
    simp only [Level.accumulate, List.map_cons, List.sum_cons, List.length_cons]
    congr 1 <;> omega

/-- A millisecond of samples changes the accumulators and the count of samples alone (R141). -/
theorem Play.meter_levelAt (p : Play) (o : Out) :
    p.meter.levelAt o = { p.levelAt o with
      accSum := (p.levelAt o).accSum +
        (((List.range samplesPerMs).map fun k => senseAt o.val (p.lvc.sampled + k)).map fun x => x.natAbs ^ 2).sum
      accCount := (p.levelAt o).accCount + samplesPerMs } := by
  have h := Level.accumulate_all ((List.range samplesPerMs).map fun k => senseAt o.val (p.lvc.sampled + k)) (p.levelAt o)
  rw [List.foldl_map, List.length_map, List.length_range] at h
  simp only [Play.levelAt, Play.meter, mapIdx_get]
  exact h

/-! ### Queues and drops (R78, R94) -/

theorem mem_insertEntry (q : List Entry) (en x : Entry) : x ∈ insertEntry q en ↔ x = en ∨ x ∈ q := by
  induction q with
  | nil => simp [insertEntry]
  | cons y rest ih =>
    simp only [insertEntry]; split
    · simp
    · simp only [List.mem_cons, ih]; tauto

@[simp] theorem insertEntry_length (q : List Entry) (en : Entry) : (insertEntry q en).length = q.length + 1 := by
  induction q with
  | nil => rfl
  | cons y rest ih => simp only [insertEntry]; split <;> simp [ih]

/-- A drop is counted, and told unless its reason is RESTART (R94, R103, R104). -/
theorem Play.noteDrop_frame (en : Entry) (r : DropReason) (p : Play) :
    (p.noteDrop en r).zpc = { p.zpc with counts := p.zpc.counts.countDrop r } ∧ (p.noteDrop en r).cmu = p.cmu ∧
      (p.noteDrop en r).cfu = p.cfu ∧ (p.noteDrop en r).evl = p.evl ∧
      (en.origin = .own → (p.noteDrop en r).net = p.net) ∧ (r = .restart → (p.noteDrop en r).net = p.net) := by
  unfold Play.noteDrop
  dsimp only
  by_cases h : r = .restart
  · simp [h]
  · simp only [h, if_false]
    refine ⟨by simp, by simp, by simp, by simp, fun ho => ?_, fun k => k.elim⟩
    rcases Play.tellEntry_cases en (.dropped (reasonCode r)) (Play.countDrop r p) with ⟨_, k⟩ | ⟨⟨a, ha⟩, _⟩
    · rw [k]; rfl
    · rw [ho] at ha; cases ha

/-! ### Start-up (R186 to R190) -/

/-- What the configuration load can settle: a failure with its cause, or an image whose address is 1..30 (R186). -/
theorem loadImage_address {bytes : Option (List Byte)} {image : Image} {n : Nat}
    (h : loadImage bytes = .accepted image n) : 1 ≤ image.address ∧ image.address ≤ 30 ∧ n ≤ 65535 := by
  unfold loadImage at h
  split at h
  · cases h
  · dsimp only at h
    split at h
    · cases h
    · split at h
      · cases h
      · split at h
        · cases h
        · split at h
          · cases h
          · split at h
            · cases h
            · split at h
              · cases h
              · next hb =>
                injection h with h1 h2
                subst h1; subst h2
                have : ∀ l, (takeImage l).1.address = byteAt l 5 := fun _ => rfl
                rw [this]
                simp only [Bool.or_eq_true, decide_eq_true_eq, not_or, not_lt] at hb
                exact ⟨hb.1, hb.2, Nat.min_le_left _ _⟩

/-- When the part leaves LOADING: both reads settled; otherwise nothing happens (R188). -/
theorem State.leaveLoading_cases (s : State) :
    (∃ image n, s.cfl.load = .loading ∧ s.cfl.headerDone = true ∧ s.cfl.config = some (.accepted image n) ∧
      s.leaveLoading = s.enterRunning image n) ∨
    (∃ cause, s.cfl.load = .loading ∧ s.cfl.headerDone = true ∧ s.cfl.config = some (.failed cause) ∧
      s.leaveLoading = s.enterUnconfigured cause) ∨
    ((s.cfl.load ≠ .loading ∨ s.cfl.headerDone = false ∨ s.cfl.config = none) ∧ s.leaveLoading = s) := by
  unfold State.leaveLoading
  cases hl : s.cfl.load <;> cases hd : s.cfl.headerDone <;> cases hc : s.cfl.config <;> simp
  next r => cases r <;> simp

end Sys2Proof.Machine
end

