-- ==== Sys2Proof/Laws/PerInstr.lean ====
section
/-! SUPPORT. A family of statements about every command as syntax: `Shape` says what the envelope and the arguments of a
well-formed command fit in (R178, R183). -/
namespace Sys2Proof

/-- The envelope of a command that a frame carries. -/
def Instr.envelope? : Instr → Option Envelope
  | .powerOnReset => none
  | .headerReadComplete _ => none
  | .headerReadTimeout => none
  | .configReadComplete _ => none
  | .configLoadTimeout => none
  | .frameDiscard _ => none
  | .beacon env _ => some env
  | .callSet env _ => some env
  | .callDelay env _ => some env
  | .callPlatform env _ => some env
  | .callCancel env _ => some env
  | .announce env _ => some env
  | .zoneReport env _ => some env
  | .withdraw env _ => some env
  | .withdrawDone env _ => some env
  | .queryCall h _ => some h.env
  | .queryZone h _ => some h.env
  | .queryFault h _ => some h.env
  | .querySurvey h _ => some h.env
  | .queryCounters h _ => some h.env
  | .clearFault h _ => some h.env
  | .surveyStart h _ => some h.env
  | .surveyAbort h _ => some h.env
  | .limitSet h _ => some h.env
  | .limitLock h _ => some h.env
  | .restart h _ => some h.env
  | .maintRequestUnknown h _ _ => some h.env
  | .linkFrameBegin => none
  | .transmitGapReached _ => none
  | .frameSent => none
  | .beaconDue => none
  | .stationDayEnd => none
  | .wholeSecond => none
  | .heardEntryExpire _ => none
  | .holdoverTimeout => none
  | .quietHoursChange => none
  | .ownerEntryExpire _ => none
  | .berthInputChange _ _ _ => none
  | .approachAssert _ => none
  | .approachClear _ => none
  | .occupancyAssert _ => none
  | .occupancyClear _ => none
  | .retireSecond => none
  | .syncStartReached _ => none
  | .blockReadComplete _ => none
  | .directoryReadComplete _ => none
  | .channelStart _ => none
  | .channelBlockAdvance _ => none
  | .passEnd _ => none
  | .stopPointReached _ => none
  | .expiryReached _ => none
  | .syncWindowClose _ => none
  | .reportDeadline _ => none
  | .originationExpire _ => none
  | .windowEnd _ => none
  | .supervisionWord _ _ => none
  | .supervisionCycleEnd => none
  | .autoSurveyRetry _ => none
  | .probeChannelTimeout _ => none
  | .evacInputChange _ => none
  | .evacAssert => none
  | .evacRelease => none
  | .faultNoticeReceived env _ => some env
  | .maintReplyReceived env _ => some env

/-- The number of argument bytes of a maintenance request (R183). -/
def Instr.argCount? : Instr → Option Nat
  | .powerOnReset => none
  | .headerReadComplete _ => none
  | .headerReadTimeout => none
  | .configReadComplete _ => none
  | .configLoadTimeout => none
  | .frameDiscard _ => none
  | .beacon _ _ => none
  | .callSet _ _ => none
  | .callDelay _ _ => none
  | .callPlatform _ _ => none
  | .callCancel _ _ => none
  | .announce _ _ => none
  | .zoneReport _ _ => none
  | .withdraw _ _ => none
  | .withdrawDone _ _ => none
  | .queryCall _ a => some a.length
  | .queryZone _ a => some a.length
  | .queryFault _ a => some a.length
  | .querySurvey _ a => some a.length
  | .queryCounters _ a => some a.length
  | .clearFault _ a => some a.length
  | .surveyStart _ a => some a.length
  | .surveyAbort _ a => some a.length
  | .limitSet _ a => some a.length
  | .limitLock _ a => some a.length
  | .restart _ a => some a.length
  | .maintRequestUnknown _ _ a => some a.length
  | .linkFrameBegin => none
  | .transmitGapReached _ => none
  | .frameSent => none
  | .beaconDue => none
  | .stationDayEnd => none
  | .wholeSecond => none
  | .heardEntryExpire _ => none
  | .holdoverTimeout => none
  | .quietHoursChange => none
  | .ownerEntryExpire _ => none
  | .berthInputChange _ _ _ => none
  | .approachAssert _ => none
  | .approachClear _ => none
  | .occupancyAssert _ => none
  | .occupancyClear _ => none
  | .retireSecond => none
  | .syncStartReached _ => none
  | .blockReadComplete _ => none
  | .directoryReadComplete _ => none
  | .channelStart _ => none
  | .channelBlockAdvance _ => none
  | .passEnd _ => none
  | .stopPointReached _ => none
  | .expiryReached _ => none
  | .syncWindowClose _ => none
  | .reportDeadline _ => none
  | .originationExpire _ => none
  | .windowEnd _ => none
  | .supervisionWord _ _ => none
  | .supervisionCycleEnd => none
  | .autoSurveyRetry _ => none
  | .probeChannelTimeout _ => none
  | .evacInputChange _ => none
  | .evacAssert => none
  | .evacRelease => none
  | .faultNoticeReceived _ _ => none
  | .maintReplyReceived _ _ => none

/-- A well-formed command's address bytes are bytes, and its arguments at most 32 (R178, R183). -/
def Laws.Shape.Statement (i : Instr) : Prop :=
  i.wf = true → (∀ e, i.envelope? = some e → e.src < 256 ∧ e.dst < 256) ∧ ∀ n, i.argCount? = some n → n ≤ 32

theorem Envelope.wf_bytes {e : Envelope} (h : e.wf = true) : e.src < 256 ∧ e.dst < 256 := by
  simpa [Envelope.wf, isByte] using h

theorem maintWf_fits {h : MaintHead} {a : List Byte} (w : maintWf h a = true) :
    h.env.wf = true ∧ isByte h.tag = true ∧ a.length ≤ 32 := by
  simpa [maintWf, and_assoc] using w

namespace Laws.Shape

/-- A frame row, from the well-formedness of its envelope. -/
theorem of_envelope {i : Instr} (e : Envelope) (he : i.envelope? = some e) (ha : i.argCount? = none)
    (h : i.wf = true → e.wf = true) : Statement i := by
  intro w
  refine ⟨fun x hx => ?_, fun n hn => by rw [ha] at hn; cases hn⟩
  rw [he] at hx
  cases hx
  exact Envelope.wf_bytes (h w)

/-- A row that no frame carries. -/
theorem of_none {i : Instr} (he : i.envelope? = none) (ha : i.argCount? = none) : Statement i :=
  fun _ => ⟨(fun x hx => by rw [he] at hx; cases hx), (fun n hn => by rw [ha] at hn; cases hn)⟩

/-- A maintenance request, from the test of its head and arguments. -/
theorem of_maint {i : Instr} (h : MaintHead) (a : List Byte) (he : i.envelope? = some h.env)
    (ha : i.argCount? = some a.length) (w : i.wf = true → maintWf h a = true) : Statement i := by
  intro k
  obtain ⟨h1, _, h3⟩ := maintWf_fits (w k)
  refine ⟨fun x hx => ?_, fun n hn => ?_⟩
  · rw [he] at hx; cases hx; exact Envelope.wf_bytes h1
  · rw [ha] at hn; cases hn; exact h3

theorem powerOnReset : Statement .powerOnReset := of_none rfl rfl

theorem headerReadComplete (result : Option LibHeader) : Statement (.headerReadComplete result) := of_none rfl rfl

theorem headerReadTimeout : Statement .headerReadTimeout := of_none rfl rfl

theorem configReadComplete (result : Option (List Byte)) :
    Statement (.configReadComplete result) := of_none rfl rfl

theorem configLoadTimeout : Statement .configLoadTimeout := of_none rfl rfl

theorem frameDiscard (raw : List Byte) : Statement (.frameDiscard raw) := of_none rfl rfl

theorem beacon (env : Envelope) (frame : BeaconFrame) : Statement (.beacon env frame) :=
  of_envelope env rfl rfl fun h => by simp [Instr.wf] at h; tauto

theorem callSet (env : Envelope) (frame : CallSetFrame) : Statement (.callSet env frame) :=
  of_envelope env rfl rfl fun h => by simp [Instr.wf] at h; tauto

theorem callDelay (env : Envelope) (frame : CallDelayFrame) : Statement (.callDelay env frame) :=
  of_envelope env rfl rfl fun h => by simp [Instr.wf] at h; tauto

theorem callPlatform (env : Envelope) (frame : CallPlatformFrame) : Statement (.callPlatform env frame) :=
  of_envelope env rfl rfl fun h => by simp [Instr.wf] at h; tauto

theorem callCancel (env : Envelope) (frame : CallKeyFields) : Statement (.callCancel env frame) :=
  of_envelope env rfl rfl fun h => by simp [Instr.wf] at h; tauto

theorem announce (env : Envelope) (frame : AnnounceFrame) : Statement (.announce env frame) :=
  of_envelope env rfl rfl fun h => by simp [Instr.wf] at h; tauto

theorem zoneReport (env : Envelope) (frame : ZoneReportFrame) : Statement (.zoneReport env frame) :=
  of_envelope env rfl rfl fun h => by simp [Instr.wf] at h; tauto

theorem withdraw (env : Envelope) (frame : WithdrawFrame) : Statement (.withdraw env frame) :=
  of_envelope env rfl rfl fun h => by simp [Instr.wf] at h; tauto

theorem withdrawDone (env : Envelope) (frame : WithdrawDoneFrame) : Statement (.withdrawDone env frame) :=
  of_envelope env rfl rfl fun h => by simp [Instr.wf] at h; tauto

theorem queryCall (head : MaintHead) (args : List Byte) : Statement (.queryCall head args) :=
  of_maint head args rfl rfl fun h => by simp_all [Instr.wf]

theorem queryZone (head : MaintHead) (args : List Byte) : Statement (.queryZone head args) :=
  of_maint head args rfl rfl fun h => by simp_all [Instr.wf]

theorem queryFault (head : MaintHead) (args : List Byte) : Statement (.queryFault head args) :=
  of_maint head args rfl rfl fun h => by simp_all [Instr.wf]

theorem querySurvey (head : MaintHead) (args : List Byte) : Statement (.querySurvey head args) :=
  of_maint head args rfl rfl fun h => by simp_all [Instr.wf]

theorem queryCounters (head : MaintHead) (args : List Byte) : Statement (.queryCounters head args) :=
  of_maint head args rfl rfl fun h => by simp_all [Instr.wf]

theorem clearFault (head : MaintHead) (args : List Byte) : Statement (.clearFault head args) :=
  of_maint head args rfl rfl fun h => by simp_all [Instr.wf]

theorem surveyStart (head : MaintHead) (args : List Byte) : Statement (.surveyStart head args) :=
  of_maint head args rfl rfl fun h => by simp_all [Instr.wf]

theorem surveyAbort (head : MaintHead) (args : List Byte) : Statement (.surveyAbort head args) :=
  of_maint head args rfl rfl fun h => by simp_all [Instr.wf]

theorem limitSet (head : MaintHead) (args : List Byte) : Statement (.limitSet head args) :=
  of_maint head args rfl rfl fun h => by simp_all [Instr.wf]

theorem limitLock (head : MaintHead) (args : List Byte) : Statement (.limitLock head args) :=
  of_maint head args rfl rfl fun h => by simp_all [Instr.wf]

theorem restart (head : MaintHead) (args : List Byte) : Statement (.restart head args) :=
  of_maint head args rfl rfl fun h => by simp_all [Instr.wf]

theorem maintRequestUnknown (head : MaintHead) (code : Nat) (args : List Byte) :
    Statement (.maintRequestUnknown head code args) :=
  of_maint head args rfl rfl fun h => by simp_all [Instr.wf]

theorem linkFrameBegin : Statement .linkFrameBegin := of_none rfl rfl

theorem transmitGapReached (idle : Nat) : Statement (.transmitGapReached idle) := of_none rfl rfl

theorem frameSent : Statement .frameSent := of_none rfl rfl

theorem beaconDue : Statement .beaconDue := of_none rfl rfl

theorem stationDayEnd : Statement .stationDayEnd := of_none rfl rfl

theorem wholeSecond : Statement .wholeSecond := of_none rfl rfl

theorem heardEntryExpire (address : Fin 31) : Statement (.heardEntryExpire address) := of_none rfl rfl

theorem holdoverTimeout : Statement .holdoverTimeout := of_none rfl rfl

theorem quietHoursChange : Statement .quietHoursChange := of_none rfl rfl

theorem ownerEntryExpire (zone : Fin 64) : Statement (.ownerEntryExpire zone) := of_none rfl rfl

theorem berthInputChange (line : BerthLine) (input : Fin 8) (level : Bool) :
    Statement (.berthInputChange line input level) := of_none rfl rfl

theorem approachAssert (input : Fin 8) : Statement (.approachAssert input) := of_none rfl rfl

theorem approachClear (input : Fin 8) : Statement (.approachClear input) := of_none rfl rfl

theorem occupancyAssert (input : Fin 8) : Statement (.occupancyAssert input) := of_none rfl rfl

theorem occupancyClear (input : Fin 8) : Statement (.occupancyClear input) := of_none rfl rfl

theorem retireSecond : Statement .retireSecond := of_none rfl rfl

theorem syncStartReached (id : AnnId) : Statement (.syncStartReached id) := of_none rfl rfl

theorem blockReadComplete (result : Option (List Int)) : Statement (.blockReadComplete result) := of_none rfl rfl

theorem directoryReadComplete (result : Option DirEntry) :
    Statement (.directoryReadComplete result) := of_none rfl rfl

theorem channelStart (channel : Chan) : Statement (.channelStart channel) := of_none rfl rfl

theorem channelBlockAdvance (channel : Chan) : Statement (.channelBlockAdvance channel) := of_none rfl rfl

theorem passEnd (channel : Chan) : Statement (.passEnd channel) := of_none rfl rfl

theorem stopPointReached (channel : Chan) : Statement (.stopPointReached channel) := of_none rfl rfl

theorem expiryReached (id : AnnId) : Statement (.expiryReached id) := of_none rfl rfl

theorem syncWindowClose (id : AnnId) : Statement (.syncWindowClose id) := of_none rfl rfl

theorem reportDeadline (id : AnnId) : Statement (.reportDeadline id) := of_none rfl rfl

theorem originationExpire (id : AnnId) : Statement (.originationExpire id) := of_none rfl rfl

theorem windowEnd (sums : Vector Nat 8) : Statement (.windowEnd sums) := of_none rfl rfl

theorem supervisionWord (output : Out) (word : SupWord) : Statement (.supervisionWord output word) := of_none rfl rfl

theorem supervisionCycleEnd : Statement .supervisionCycleEnd := of_none rfl rfl

theorem autoSurveyRetry (output : Out) : Statement (.autoSurveyRetry output) := of_none rfl rfl

theorem probeChannelTimeout (output : Out) : Statement (.probeChannelTimeout output) := of_none rfl rfl

theorem evacInputChange (level : Bool) : Statement (.evacInputChange level) := of_none rfl rfl

theorem evacAssert : Statement .evacAssert := of_none rfl rfl

theorem evacRelease : Statement .evacRelease := of_none rfl rfl

theorem faultNoticeReceived (env : Envelope) (frame : FaultNoticeFrame) :
    Statement (.faultNoticeReceived env frame) :=
  of_envelope env rfl rfl fun h => by simp [Instr.wf] at h; tauto

theorem maintReplyReceived (env : Envelope) (frame : MaintReplyFrame) : Statement (.maintReplyReceived env frame) :=
  of_envelope env rfl rfl fun h => by simp [Instr.wf] at h; tauto

end Laws.Shape

end Sys2Proof
end

