-- ==== Sys2Proof/Tests/Slice0.lean ====
section
/-! SUPPORT. Tests of the model on small states, each about one command, with the expected values worked out by hand from
the rules cited; ill-formed commands that the well-formedness check refuses; and for each statement of
Certificates/Slice0/Obligations.lean that has hypotheses, a state and operands that meet them. -/
open Sys2Proof.Machine
set_option Elab.async false

namespace Sys2Proof.Tests

/-! ### Small states -/

/-- Zone 22 on output 2, gains 60..200. -/
def zone22 : ZoneCfg :=
  { output := 2, zone := 22, base := 0, gmin := 60, gmax := 200, qcap := 120, fallback := none, noise := 160,
    limits := ⟨40, 900, 200⟩, preset := 0, params := ⟨0, 1, 8, 10, 10, 300, 100, 40, true, 0⟩, candidates := [] }

/-- A LEAD trigger that matches every call at its expected time and announces on the platform's zones. -/
def leadTrigger : Trigger :=
  { enabled := true, kind := .lead, event := none, lead := 0, stale := 30, select := .any, platValue := 0,
    platMask := 0, catValue := 0, catMask := 0, opValue := 0, opMask := 0, minDelay := 0, template := 0,
    cls := .service, platformZones := true, extra := 0, expiry := 600, additive := false, sync := false }

/-- Station 9: zone 22, platform 12 on input 0 of each group, one template and one trigger. -/
def station9 : Image :=
  { format := 1, check := 0, address := 9, dayStart := 0, requalify := 2, quietStart := 1320, quietEnd := 360,
    marginEvac := 40, marginAlert := 30, marginService := 20, marginInfo := 10, fevac := 150, slew := 10,
    bases := ⟨1000, 1100, 1130, 1200, 1330⟩, routing := ⟨true, true, true, true, true⟩, lock := false,
    zones := [zone22], platforms := [⟨12, 4, 0, 0⟩], templates := [[⟨.phrase 7, false, none⟩]],
    triggers := [leadTrigger], evacList := [⟨.phrase 4033, false, none⟩] }

/-- Station 9 in RUNNING, LOCKED at 10:00:00 of service day 5, 4096 ms after the reset. -/
def run : State :=
  { State.reset with
    cfl := { State.reset.cfl with load := .running, image := some station9, headerDone := true }
    sck := { State.reset.sck with state := .locked, day := 5, time := 36000000 }
    elapsed := 4096
    play := (State.reset.play.onZone 2 fun z => { z with id := some 22 }).onCfu fun c => { c with port := none } }

/-- The part in UNCONFIGURED. -/
def bare : State := { State.reset with cfl := { State.reset.cfl with load := .unconfigured, headerDone := true } }

/-- The departure 1A23 at platform 12, booked 10:10. -/
def call : CallRec :=
  { code := 0x314132330000, kind := .dep, platform := 12, booked := 610, delay := 0, expected := 610,
    qualified := 610, category := 2, operator := 3, place := 2400, points := [2101], coaches := some 8, forms := none,
    state := .booked, entered := ⟨5, 0⟩, hold := none, alteredIn := false, epoch := 0, fired := 0 }

/-- A state holding a call at place 0. -/
def withCall (s : State) (r : CallRec) : State := s.onCtb fun c => c.put 0 (.held r)

/-- Timetable key fields of 1A23 DEP on day 5, and the fields of its frame. -/
def key : CallKeyFields := ⟨0x314132330000, 1, 5⟩

/-- The fields of a frame for 1A23. -/
def fields : CallFields := ⟨610, 0, 2, 3, 2400, 8, 0, [2101]⟩

/-- The entry of announcement (9, 5) in zone 22. -/
def entry (st : EntryState) : Entry :=
  { newEntry ⟨9, 5⟩ .service .own none none none false none 22 with state := st }

/-- A state whose zone 22 holds a queue. -/
def withQueue (s : State) (q : List Entry) : State :=
  s.onPlay fun _ p => p.onZone 2 fun z => { z with queue := q }

/-- A state holding the body of (9, 5), one phrase, in slot 0, with a channel 0 that serves it for output 2. -/
def withChannel (s : State) (f : Channel → Channel) : State :=
  s.onPlay fun _ p => ({ p with cmu := { p.cmu with
    slots := upd p.cmu.slots 0 fun _ => some ⟨⟨9, 5⟩, .service, .own, none, none, [.phrase 7], 1⟩, order := [0] } }).onChan 0
      fun c => f { c with served := some (.body ⟨9, 5⟩), cls := .service, members := 4 }

/-- Phrase 7: three blocks from block 200 of the store. -/
def phrase7 : DirEntry := ⟨true, 200, 3, 0, 0⟩

/-- A test of the state that a command leaves. -/
def after (i : Instr) (s : State) (test : State → Bool) : Bool :=
  match exec i s with
  | .next t => test t
  | _ => false

/-- A maintenance request from station 3 to station 9. -/
def toMe : MaintHead := ⟨⟨3, 9⟩, 77⟩

/-- A frame from station 3 to every station. -/
def toAll : Envelope := ⟨3, 31⟩

/-- The origination of (9, 7): zone 30 at station 4 is PENDING, its first-report deadline at 4000 ms. -/
def orig7 : Origination := ⟨⟨9, 7⟩, none, none, ⟨5, 35000000⟩, [⟨30, some 4, .pending⟩], some 4000, false⟩

/-- A state holding that origination. -/
def withOrig (s : State) : State := s.onNet fun _ n => n.onPau fun p => { p with table := [orig7] }

/-- A frame to send at an urgency. -/
def frameAt (u : Nat) : TxFrame := ⟨u, 31, .beacon none⟩

/-- An ANNOUNCE of station 3 for zone 22: INFO, one phrase, expiring at 11:00. -/
def announce3 : AnnounceFrame :=
  ⟨3, 8, 3, 0, false, false, false, 0, 1#64 <<< 22, 5, 39600000, 0, 0, [⟨0, 2000, 0⟩]⟩

/-- A survey in a phase, begun at 1000 ms. -/
def survey (p : SurveyPhase) : Survey :=
  { Survey.reset with
    phase := p
    work := some { begun := ⟨5, 0⟩, starter := .request, entered := 1000, levels := [], nb := none, bestScore := none,
                   best := none, bestLp := 0, misses := 0, nextIndex := 0, current := .active, asked := 1000,
                   probeStart := none, probeEnd := none, probes := [], abort := none } }

/-- A state with that survey on output 2. -/
def withSurvey (s : State) (p : SurveyPhase) : State :=
  s.onPlay fun _ q => (q.onSurvey 2 fun _ => survey p).onZone 2 fun z => { z with survey := true }

/-! ### Ill-formed commands are refused by the check -/

theorem test_wf_refuses_header : Instr.wf (.headerReadComplete (some ⟨65536, 0⟩)) = false := by decide +kernel

theorem test_wf_refuses_config :
    Instr.wf (.configReadComplete (some (List.replicate 8193 0))) = false := by decide +kernel

theorem test_wf_refuses_discard : Instr.wf (.frameDiscard (List.replicate 262 0)) = false := by decide +kernel

theorem test_wf_refuses_envelope : Instr.wf (.callCancel ⟨256, 31⟩ key) = false := by decide +kernel

theorem test_wf_refuses_beacon_load_state :
    Instr.wf (.beacon toAll ⟨true, false, false, 0, 5, 0, 0, 0⟩) = false := by decide +kernel

theorem test_wf_refuses_beacon_time :
    Instr.wf (.beacon toAll ⟨true, false, false, 1, 5, 4294967296, 0, 0⟩) = false := by decide +kernel

theorem test_wf_refuses_call_kind : Instr.wf (.callCancel toAll ⟨0x314132330000, 2, 5⟩) = false := by decide +kernel

theorem test_wf_refuses_call_booked :
    Instr.wf (.callSet toAll ⟨key, false, 12, { fields with booked := 32768 }⟩) = false := by decide +kernel

theorem test_wf_refuses_call_points :
    Instr.wf (.callSet toAll ⟨key, false, 12, { fields with points := List.replicate 112 0 }⟩) = false := by decide +kernel

theorem test_wf_refuses_call_delay : Instr.wf (.callDelay toAll ⟨key, -32769⟩) = false := by decide +kernel

theorem test_wf_refuses_call_platform : Instr.wf (.callPlatform toAll ⟨key, 256, none⟩) = false := by decide +kernel

theorem test_wf_refuses_announce_class :
    Instr.wf (.announce toAll { announce3 with cls := 4 }) = false := by decide +kernel

theorem test_wf_refuses_announce_sequence :
    Instr.wf (.announce toAll { announce3 with seq := 2048 }) = false := by decide +kernel

theorem test_wf_refuses_announce_origin :
    Instr.wf (.announce toAll { announce3 with origin := 4 }) = false := by decide +kernel

theorem test_wf_refuses_announce_expiry :
    Instr.wf (.announce toAll { announce3 with expiryTime := 172800000 }) = false := by decide +kernel

theorem test_wf_refuses_announce_sync :
    Instr.wf (.announce toAll { announce3 with syncPresent := true, syncTime := 172800000 }) = false := by decide +kernel

theorem test_wf_refuses_announce_segments :
    Instr.wf (.announce toAll { announce3 with segs := List.replicate 55 ⟨0, 0, 0⟩ }) = false := by decide +kernel

theorem test_wf_refuses_report_items :
    Instr.wf (.zoneReport toAll ⟨9, 7, List.replicate 83 ⟨0, 1, 0⟩⟩) = false := by decide +kernel

theorem test_wf_refuses_withdraw_granularity :
    Instr.wf (.withdraw toAll ⟨5, 0, 0, 0, 0, 0⟩) = false := by decide +kernel

theorem test_wf_refuses_withdraw_threshold :
    Instr.wf (.withdraw toAll ⟨4, 0, 0, 0, 0, 4⟩) = false := by decide +kernel

theorem test_wf_refuses_withdraw_done :
    Instr.wf (.withdrawDone toAll ⟨1, 256, 9, 7, 0, 0, 0, 0⟩) = false := by decide +kernel

theorem test_wf_refuses_request_args : Instr.wf (.queryZone toMe (List.replicate 33 0)) = false := by decide +kernel

theorem test_wf_refuses_request_code : Instr.wf (.maintRequestUnknown toMe 0x40 []) = false := by decide +kernel

theorem test_wf_refuses_heard_address : Instr.wf (.heardEntryExpire 0) = false := by decide +kernel

theorem test_wf_refuses_announcement_id : Instr.wf (.expiryReached ⟨31, 0⟩) = false := by decide +kernel

theorem test_wf_refuses_block_samples : Instr.wf (.blockReadComplete (some [0])) = false := by decide +kernel

theorem test_wf_refuses_directory_start :
    Instr.wf (.directoryReadComplete (some ⟨true, 524288, 0, 0, 0⟩)) = false := by decide +kernel

theorem test_wf_refuses_window_sum :
    Instr.wf (.windowEnd (Vector.replicate 8 (2048 * 1073741824 + 1))) = false := by decide +kernel

theorem test_wf_refuses_word_impedance : Instr.wf (.supervisionWord 2 ⟨true, 1024, 0⟩) = false := by decide +kernel

theorem test_wf_refuses_fault_notice :
    Instr.wf (.faultNoticeReceived toAll ⟨256, 1, 0, 5, 0⟩) = false := by decide +kernel

theorem test_wf_refuses_reply_content :
    Instr.wf (.maintReplyReceived toAll ⟨1, 1, 0, 0, List.replicate 247 0⟩) = false := by decide +kernel

theorem test_wf_accepts_announce : Instr.wf (.announce toAll announce3) = true := by decide +kernel

/-- The table gives no row bits, so no word spells a command. -/
theorem test_no_word_spells (nbits w : Nat) : decodeTableWord nbits w = none := rfl

/-- A word that spells none leaves the state. -/
theorem test_withFetchWord (s : State) (nbits w : Nat) : s.withFetchWord nbits w = s := rfl

/-! ### One command, one effect -/

/-- R27, R188. -/
theorem test_power_on : after (.powerOnReset) run
    (fun t => t.cfl.load = .loading && t.elapsed = 0 && t.sck.state = .unset) = true := by decide +kernel

/-- R125: 524,288 is within 129..524,288. -/
theorem test_header : after (.headerReadComplete (some ⟨7, 524288⟩)) State.reset
    (fun t => t.play.cfu.version = 7 && t.play.cfu.size = 524288 && t.cfl.headerDone) = true := by decide +kernel

theorem test_header_too_large : after (.headerReadComplete (some ⟨7, 524289⟩)) State.reset
    (fun t => t.play.cfu.version = 0 && t.play.cfu.size = 0) = true := by decide +kernel

theorem test_header_timeout : after (.headerReadTimeout) { State.reset with elapsed := 2000 }
    (fun t => t.cfl.headerDone) = true := by decide +kernel

/-- An image of zeros at address 9: length 3226 is 0C 9A, and the check is 0C + 9A + 01 + 09 = 00B0 (R185, R186). -/
def plainImage : List Byte := [0x0C, 0x9A, 1, 0x00, 0xB0, 9] ++ List.replicate 3220 0

/-- R186, R189. -/
theorem test_config :
    after (.configReadComplete (some plainImage))
      { State.reset with cfl := { State.reset.cfl with headerDone := true } }
      (fun t => t.cfl.load = .running && t.cfl.own = 9) = true := by decide +kernel

/-- R190. -/
theorem test_config_failed :
    after (.configReadComplete none)
      { State.reset with cfl := { State.reset.cfl with headerDone := true } }
      (fun t => t.cfl.load = .unconfigured && t.cfl.own = 0) = true := by decide +kernel

/-- R186. -/
theorem test_config_timeout : after (.configLoadTimeout) { State.reset with elapsed := 2000 }
    (fun t => t.cfl.config = some (.failed .unreadable)) = true := by decide +kernel

/-- R179: the check of a frame of all these bytes is not 0. -/
theorem test_discard : after (.frameDiscard [0, 1, 31, 0x22, 0, 0]) run
    (fun t => t.play.net.lki.counts.badCheck = 1) = true := by decide +kernel

/-- R29, R31: an offset of 1000 ms is applied at once. -/
theorem test_beacon : after (.beacon toAll ⟨true, false, false, 1, 5, 36001000, 0, 0⟩) run
    (fun t => t.sck.time = 36001000 && t.sck.selected = some 3) = true := by decide +kernel

/-- R107. -/
theorem test_beacon_owner : after (.beacon toAll ⟨false, false, false, 1, 5, 0, 0, 1#64 <<< 30⟩) run
    (fun t => t.play.net.pau.owners.get 30 = some ⟨3, 4096, false⟩) = true := by decide +kernel

/-- R8. -/
theorem test_call_set : after (.callSet toAll ⟨key, false, 12, fields⟩) run
    (fun t => t.ctb.places.get 0 = .held { call with entered := ⟨5, 36000000⟩ }) = true := by decide +kernel

/-- R4, R9: two minutes reach the threshold of 2. -/
theorem test_call_set_delayed :
    after (.callSet toAll ⟨key, false, 12, { fields with delay := 2 }⟩)
      (withCall run call)
      (fun t => match t.ctb.places.get 0 with | .held r => r.epoch = 1 && r.qualified = 612 && r.delay = 2 | _ => false) = true := by decide +kernel

/-- R4, R11: one minute does not reach the threshold. -/
theorem test_call_delay :
    after (.callDelay toAll ⟨key, 1⟩)
      (withCall run call)
      (fun t => match t.ctb.places.get 0 with | .held r => r.epoch = 0 && r.expected = 611 && r.qualified = 610 | _ => false) = true := by decide +kernel

/-- R12, R14: platform 13 is not covered. -/
theorem test_call_platform : after (.callPlatform toAll ⟨key, 13, none⟩) (withCall run call)
    (fun t => t.ctb.places.get 0 = .free) = true := by decide +kernel

/-- R5, R13. -/
theorem test_call_cancel :
    after (.callCancel toAll key)
      (withCall run call)
      (fun t => match t.ctb.places.get 0 with | .held r => r.state = .cancelled && r.hold = some 1800 && r.epoch = 1 | _ => false) = true := by decide +kernel

/-- R72, R79, R117: the entry is admitted and QUEUED is reported. -/
theorem test_announce :
    after (.announce toAll announce3)
      run
      (fun t => (t.play.zone 2).queue.length = 1 && (t.play.cmu.slots.get 0).isSome && t.play.net.lki.queue.length = 1) = true := by decide +kernel

/-- R115. -/
theorem test_announce_library : after (.announce toAll { announce3 with libVersion := 1 }) run
    (fun t => (t.play.zone 2).queue = [] && t.play.net.pau.counts.libraryMismatch = 1) = true := by decide +kernel

/-- R111: outcome 2 is PLAYING. -/
theorem test_zone_report : after (.zoneReport ⟨4, 9⟩ ⟨9, 7, [⟨30, 2, 0⟩]⟩) (withOrig run)
    (fun t => t.play.net.pau.table.map (·.zones) = [[⟨30, some 4, .playing⟩]]) = true := by decide +kernel

/-- R111, R113. -/
theorem test_zone_report_final : after (.zoneReport ⟨4, 9⟩ ⟨9, 7, [⟨30, 3, 0⟩]⟩) (withOrig run)
    (fun t => t.play.net.pau.table = [] && t.play.net.pau.counts.done = 1) = true := by decide +kernel

/-- R120: granularity 3 selects every entry of origin 9. -/
theorem test_withdraw : after (.withdraw ⟨3, 9⟩ ⟨3, 9, 0, 0, 0, 0⟩) (withQueue run [entry .queued])
    (fun t => (t.play.zone 2).queue = [] && t.play.zpc.counts.withdrawn = 1) = true := by decide +kernel

/-- R121. -/
theorem test_withdraw_done :
    after (.withdrawDone ⟨4, 9⟩ ⟨1, 1, 9, 7, 0, 0, 0, 3⟩)
      run
      (fun t => t.play.net.pau.counts.withdrawAnswer = 1 && t.play.net.pau.counts.withdrawnItems = 3) = true := by decide +kernel

/-- R198. -/
theorem test_query_call :
    after (.queryCall toMe [0, 0])
      (withCall run call)
      (fun t => t.play.net.lki.queue = [⟨2, 3, .maintReply 1 77 none (.call (some (0, call)))⟩]) = true := by decide +kernel

/-- R104. -/
theorem test_query_zone :
    after (.queryZone toMe [2])
      run
      (fun t => t.play.net.lki.queue = [⟨2, 3, .maintReply 2 77 none (.zone (run.zoneView 2))⟩] && (run.zoneView 2).state = .idle) = true := by decide +kernel

/-- R198: index 15 alone. -/
theorem test_query_fault :
    after (.queryFault toMe [15])
      run
      (fun t => t.play.net.lki.queue = [⟨2, 3, .maintReply 3 77 none (.fault ⟨[(15, none)], false, 0, false, ⟨true, true, true, true, true⟩⟩)⟩]) = true := by decide +kernel

/-- R198: outputs are 0..7. -/
theorem test_query_survey : after (.querySurvey toMe [8]) run
    (fun t => t.play.net.lki.queue = [⟨2, 3, .maintReply 4 77 (some .range) .none⟩]) = true := by decide +kernel

/-- R198. -/
theorem test_query_counters :
    after (.queryCounters toMe [10])
      run
      (fun t => t.play.net.lki.queue = [⟨2, 3, .maintReply 5 77 none (.counters (.flt 0 0 false 0 0 0 0 0))⟩]) = true := by decide +kernel

/-- R195. -/
theorem test_clear_fault : after (.clearFault toMe [255]) (run.onFlt fun f => { f with overflow := true, lost := 3 })
    (fun t => !t.play.net.flt.overflow && t.play.net.flt.lost = 0) = true := by decide +kernel

/-- R163. -/
theorem test_survey_start : after (.surveyStart toMe [2]) run
    (fun t => (t.play.zone 2).state = .survey && (t.play.surveyAt 2).phase = .baseline) = true := by decide +kernel

/-- R163. -/
theorem test_survey_start_busy : after (.surveyStart toMe [2]) (withQueue run [entry .queued])
    (fun t => t.play.net.flt.refusedBusy = 1 && t.play.vsu.counts.refusedStart = 1) = true := by decide +kernel

/-- R168. -/
theorem test_survey_abort :
    after (.surveyAbort toMe [2])
      (withSurvey run .baseline)
      (fun t => (t.play.zone 2).state = .idle && (t.play.surveyAt 2).record.reason = some .maintAbort) = true := by decide +kernel

/-- R161: 0320 is 800. -/
theorem test_limit_set : after (.limitSet toMe [2, 0, 50, 3, 32, 0, 100]) run
    (fun t => (t.play.lineAt 2).limits = ⟨50, 800, 100⟩) = true := by decide +kernel

/-- R161: Zlow must lie below Zhigh. -/
theorem test_limit_set_range :
    after (.limitSet toMe [2, 3, 32, 3, 32, 0, 100])
      run
      (fun t => t.play.net.flt.refusedRange = 1 && (t.play.lineAt 2).limits = ⟨40, 900, 200⟩) = true := by decide +kernel

/-- R161. -/
theorem test_limit_lock : after (.limitLock toMe []) run (fun t => t.play.lsu.lock) = true := by
  decide +kernel

/-- R191. -/
theorem test_restart :
    after (.restart toMe [])
      (withCall run call)
      (fun t => t.ctb.places.get 0 = .free && t.cfl.restarts = 1 && t.play.net.lki.queue.length = 1) = true := by decide +kernel

/-- R197. -/
theorem test_unknown : after (.maintRequestUnknown toMe 0x55 []) run
    (fun t => t.play.net.flt.refusedUnknown = 1) = true := by decide +kernel

/-- R180. -/
theorem test_link_begin : after (.linkFrameBegin) run (fun t => t.play.net.lki.busy) = true := by
  decide +kernel

/-- R180: the gap is 2 × 32 + 9 = 73. -/
theorem test_gap_below : after (.transmitGapReached 72) (run.onLki fun l => { l with queue := [frameAt 2] })
    (fun t => t.play.net.lki.sending = none && t.play.net.lki.idle = 72) = true := by decide +kernel

theorem test_gap :
    after (.transmitGapReached 73)
      (run.onLki fun l => { l with queue := [⟨2, 3, .withdraw ⟨1, 9, 5, 0, 0, 0⟩⟩] })
      (fun t => t.play.net.lki.sending.isSome && t.play.net.lki.queue = [] && t.play.net.lki.busy) = true := by decide +kernel

/-- R110: 2000 ms after 4096 ms. -/
theorem test_frame_sent :
    after (.frameSent)
      ((withOrig run).onLki fun l => { l with sending := some ⟨1, 4, .announce { announce3 with origin := 9, seq := 7 }⟩ })
      (fun t => t.play.net.lki.counts.sent = 1 && t.play.net.pau.table.map (·.deadline) = [some 6096]) = true := by decide +kernel

/-- R182. -/
theorem test_beacon_due :
    after (.beaconDue)
      run
      (fun t => t.play.net.lki.queue = [⟨2, 31, .beacon none⟩] && t.play.net.lki.beaconAt = 1000) = true := by decide +kernel

/-- R24, R28. -/
theorem test_day_end :
    after (.stationDayEnd)
      (withCall { run with sck := { run.sck with time := 86399999, dayEndDue := true } } { call with booked := 1450, expected := 1450, qualified := 1450 })
      (fun t => t.sck.time = 0 && t.sck.day = 6 && (match t.ctb.places.get 0 with | .held r => r.booked = 10 && r.expected = 10 && r.qualified = 10 | _ => false)) = true := by decide +kernel

/-- R44 to R46: 10:10:00 is the LEAD instant of 1A23 with lead 0. -/
theorem test_whole_second :
    after (.wholeSecond)
      (withCall { run with sck := { run.sck with time := 36600000, secondDue := true } } call)
      (fun t => (match t.ctb.places.get 0 with | .held r => r.fired = 1 | _ => false) && t.tgu.issued = 1 && (t.play.zone 2).queue.length = 1) = true := by decide +kernel

/-- R29. -/
theorem test_heard_expire :
    after (.heardEntryExpire 3)
      (run.onSck fun c => { c with heard := upd c.heard 3 fun _ => some 1096, selected := some 3 })
      (fun t => t.sck.selected = none && t.sck.heard.get 3 = none) = true := by decide +kernel

/-- R33. -/
theorem test_holdover :
    after (.holdoverTimeout)
      (State.onSck { run with elapsed := 6000 } fun c => { c with lastSource := some ⟨1000, 3⟩ })
      (fun t => t.sck.state = .holdover && (t.play.net.flt.records.get 0).map (·.source) = some 3) = true := by decide +kernel

/-- R37: 22:00 is minute 1320. -/
theorem test_quiet : after (.quietHoursChange) { run with sck := { run.sck with time := 79200000 } }
    (fun t => t.sck.quiet) = true := by decide +kernel

/-- R106. -/
theorem test_owner_expire :
    after (.ownerEntryExpire 30)
      (run.onNet fun _ n => n.onPau fun p => { p with owners := upd p.owners 30 fun _ => some ⟨4, 1096, false⟩ })
      (fun t => t.play.net.pau.owners.get 30 = none) = true := by decide +kernel

/-- R18. -/
theorem test_berth_input : after (.berthInputChange .approach 0 true) run
    (fun t => (t.ctb.approach.get 0).raw && (t.ctb.approach.get 0).since = 4096) = true := by decide +kernel

/-- An input that has held a raw level since 1000 ms against a debounced one. -/
def withInput (s : State) (l : BerthLine) (raw : Bool) (level : Option Bool) : State :=
  s.onCtb fun c => c.onInput l 0 fun _ => ⟨raw, 1000, level⟩

/-- An arrival that is the same train, booked 10:10. -/
def arrival : CallRec := { call with kind := .arr }

/-- R19: 10:10 lies within 1800 s of 10:00. -/
theorem test_approach :
    after (.approachAssert 0)
      (withInput (withCall run arrival) .approach true (some false))
      (fun t => match t.ctb.places.get 0 with | .held r => r.state = .approaching && r.epoch = 0 | _ => false) = true := by decide +kernel

/-- R19: a departure does not approach. -/
theorem test_approach_unmatched :
    after (.approachAssert 0)
      (withInput (withCall run call) .approach true (some false))
      (fun t => t.ctb.counts.unmatched = 1) = true := by decide +kernel

/-- R18. -/
theorem test_approach_clear : after (.approachClear 0) (withInput run .approach false (some true))
    (fun t => (t.ctb.approach.get 0).level = some false) = true := by decide +kernel

/-- R20: a departure within 3600 s. -/
theorem test_occupancy :
    after (.occupancyAssert 0)
      (withInput (withCall run call) .occupancy true (some false))
      (fun t => match t.ctb.places.get 0 with | .held r => r.state = .atPlatform | _ => false) = true := by decide +kernel

/-- R20. -/
theorem test_occupancy_unexpected :
    after (.occupancyAssert 0)
      (withInput run .occupancy true (some false))
      (fun t => (t.play.net.flt.records.get 0).map (fun r => (r.kind, r.source)) = some (.platformUnexpected, 12)) = true := by decide +kernel

/-- R5, R21. -/
theorem test_occupancy_clear :
    after (.occupancyClear 0)
      (withInput (withCall run { call with state := .atPlatform }) .occupancy false (some true))
      (fun t => match t.ctb.places.get 0 with | .held r => r.state = .departed && r.hold = some 120 && r.epoch = 1 | _ => false) = true := by decide +kernel

/-- R22. -/
theorem test_retire : after (.retireSecond) (withCall run { call with state := .departed, hold := some 1 })
    (fun t => t.ctb.places.get 0 = .free && t.ctb.seconds = 1) = true := by decide +kernel

/-- R83, R131. -/
theorem test_sync_start :
    after (.syncStartReached ⟨9, 5⟩)
      (withQueue (withChannel run fun _ => Channel.reset) [entry .starting])
      (fun t => (t.play.chan 0).served = some (.body ⟨9, 5⟩) && (t.play.chan 0).state = .preparing) = true := by decide +kernel

/-- R131. -/
theorem test_block_read :
    after (.blockReadComplete (some [1]))
      ((withChannel run fun c => { c with state := .preparing, read := some ⟨.block 200, .service, false⟩ }).onPlay fun _ p => p.onCfu fun f => { f with port := some (.channel 0) })
      (fun t => (t.play.chan 0).state = .granted && (t.play.chan 0).next = some (.audio [1])) = true := by decide +kernel

/-- R127, R131: blocks 200..202 end within a store of 203. -/
theorem test_directory_read :
    after (.directoryReadComplete (some phrase7))
      ((withChannel run fun c => { c with state := .preparing, read := some ⟨.directory 7 (directoryBlock 7), .service, false⟩ }).onPlay fun _ p => p.onCfu fun f => { f with port := some (.channel 0), size := 203 })
      (fun t => (t.play.chan 0).segEntry = some (.found phrase7) && (t.play.chan 0).read.map (·.kind) = some (.block 200)) = true := by decide +kernel

/-- R127. -/
theorem test_directory_past_store :
    after (.directoryReadComplete (some phrase7))
      ((withChannel run fun c => { c with state := .preparing, read := some ⟨.directory 7 (directoryBlock 7), .service, false⟩ }).onPlay fun _ p => p.onCfu fun f => { f with port := some (.channel 0), size := 202 })
      (fun t => (t.play.chan 0).segEntry = some .missing && t.play.cfu.counts.missing = 1) = true := by decide +kernel

/-- R83, R131. -/
theorem test_channel_start :
    after (.channelStart 0)
      (withQueue (withChannel run fun c => { c with state := .granted, next := some .zero, segEntry := some (.found phrase7) }) [entry .starting])
      (fun t => (t.play.chan 0).state = .playing && (t.play.zone 2).state = .rendering) = true := by decide +kernel

/-- R137: an empty next-block place is an underrun. -/
theorem test_block_advance :
    after (.channelBlockAdvance 0)
      (withQueue (withChannel run fun c => { c with state := .playing, segEntry := some (.found phrase7) }) [entry .rendering])
      (fun t => (t.play.chan 0).playing = some .zero && t.play.cfu.counts.underruns = 1 && (t.play.chan 0).blk = 0) = true := by decide +kernel

/-- R86: block 2 is the last of three, and of the body. -/
theorem test_pass_end :
    after (.passEnd 0)
      (withQueue (withChannel run fun c => { c with state := .playing, blk := 2, segEntry := some (.found phrase7) }) [entry .rendering])
      (fun t => (t.play.zone 2).queue = [] && t.play.zpc.counts.done = 1 && (t.play.chan 0).state = .free) = true := by decide +kernel

/-- R89. -/
theorem test_stop_point :
    after (.stopPointReached 0)
      (withQueue (withChannel run fun c => { c with state := .playing, segEntry := some (.found phrase7) }) [entry (.stopping { StopCause.clear with drop := some .withdrawn, atBlock := true })])
      (fun t => (t.play.zone 2).queue = [] && t.play.zpc.counts.withdrawn = 1) = true := by decide +kernel

/-- R91: an instant equal to now is reached. -/
theorem test_expiry :
    after (.expiryReached ⟨9, 5⟩)
      (withQueue run [{ entry .queued with expiry := some ⟨5, 36000000⟩ }])
      (fun t => (t.play.zone 2).queue = [] && t.play.zpc.counts.expired = 1) = true := by decide +kernel

/-- R118: 2000 ms past the sync start. -/
theorem test_sync_close :
    after (.syncWindowClose ⟨9, 5⟩)
      (withQueue run [{ entry .queued with sync := some ⟨5, 35998000⟩, mustSync := true }])
      (fun t => (t.play.zone 2).queue = [] && t.play.zpc.counts.syncMissed = 1) = true := by decide +kernel

/-- R112, R113. -/
theorem test_deadline :
    after (.reportDeadline ⟨9, 7⟩)
      (withOrig run)
      (fun t => t.play.net.pau.table = [] && t.play.net.pau.counts.noResponse = 1 && (t.play.net.flt.records.get 0).map (·.source) = some 4) = true := by decide +kernel

/-- R113: 35,000,000 + 5000 is past. -/
theorem test_orig_expire : after (.originationExpire ⟨9, 7⟩) (withOrig run)
    (fun t => t.play.net.pau.table = [] && t.play.net.pau.counts.noResponse = 1) = true := by decide +kernel

/-- R142, R144: E is 488.28, 240 + 20 log10(E / 2^30) is 113.16, and a quarter of 16 × 113 is 452. -/
theorem test_window : after (.windowEnd (Vector.replicate 8 1000000)) run
    (fun t => (t.play.levelAt 2).last = 113 && (t.play.levelAt 2).n16 = 452) = true := by decide +kernel

/-- R96, R156, R157: 39 is below 40, the third word in a row. -/
theorem test_word :
    after (.supervisionWord 2 ⟨true, 39, 0⟩)
      (run.onPlay fun _ p => p.onLine 2 fun l => { l with candidate := some .short, run := 2 })
      (fun t => (t.play.lineAt 2).status = .short && (t.play.zone 2).state = .faulted) = true := by decide +kernel

/-- R158. -/
theorem test_cycle_end :
    after (.supervisionCycleEnd)
      (run.onPlay fun _ p => p.onLine 2 fun l => { l with missed := 2, status := .ok })
      (fun t => (t.play.lineAt 2).status = .unknown && (t.play.lineAt 2).missed = 3 && (t.play.lineAt 0).missed = 1) = true := by decide +kernel

/-- R163: outside quiet hours. -/
theorem test_retry :
    after (.autoSurveyRetry 2)
      (State.onPlay { run with elapsed := 61000 } fun _ p => p.onSurvey 2 fun v => { v with retryAt := some 1000 })
      (fun t => (t.play.surveyAt 2).record.outcome = .refused && t.play.vsu.counts.refusedAuto = 1) = true := by decide +kernel

/-- R168. -/
theorem test_probe_timeout :
    after (.probeChannelTimeout 2)
      (withSurvey { run with elapsed := 11000 } .probe)
      (fun t => (t.play.surveyAt 2).record.reason = some .noChannel && (t.play.zone 2).state = .idle) = true := by decide +kernel

/-- R170. -/
theorem test_evac_input : after (.evacInputChange true) run
    (fun t => t.play.evl.raw && t.play.evl.since = 4096) = true := by decide +kernel

/-- R170, R171. -/
theorem test_evac_assert :
    after (.evacAssert)
      (run.onPlay fun _ p => p.onEvl fun v => { v with raw := true })
      (fun t => t.play.evl.active && (t.play.zone 2).queue.map (·.id) = [⟨9, 0⟩] && t.play.evl.assertions = 1) = true := by decide +kernel

/-- R175. -/
theorem test_evac_release : after (.evacRelease) (run.onPlay fun _ p => p.onEvl fun v => { v with active := true })
    (fun t => !t.play.evl.active && (t.play.levelAt 2).discard) = true := by decide +kernel

/-- R179. -/
theorem test_fault_notice : after (.faultNoticeReceived toAll ⟨0, 1, 0, 5, 0⟩) run
    (fun t => t.play.net.lki.counts.good = 1) = true := by decide +kernel

/-- R179: addressed to station 8. -/
theorem test_maint_reply : after (.maintReplyReceived ⟨3, 8⟩ ⟨1, 1, 0, 0, []⟩) run
    (fun t => t.play.net.lki.counts.wrongDest = 1) = true := by decide +kernel

/-! ### Bytes written out by hand -/

/-- The check of the nine bytes "123456789" with generator 0x1021, initial value 0xFFFF and no final inversion is the
value tabulated for that check (R178). -/
theorem test_crc : crc [0x31, 0x32, 0x33, 0x34, 0x35, 0x36, 0x37, 0x38, 0x39] = 0x29B1 := by decide +kernel

/-- Zone 30 is bit 6 of the fourth byte of a zone set (R178). -/
theorem test_zone_bytes : zoneBytes (1#64 <<< 30) = [0, 0, 0, 64, 0, 0, 0, 0] := by decide +kernel

/-- A gain code of 160 is 32767 × 10^(−1) = 3276.7, rounded to 3277 (R151). -/
theorem test_gain_entry : gainEntry 200 = 32767 ∧ gainEntry 160 = 3277 ∧ gainEntry 0 = 0 := by decide +kernel

/-! ### What meets the hypotheses of the statements

Each theorem is named for its statement, with a suffix for the clause where the statement has several. -/

theorem hyp_IdleStep_due :
    ({ State.reset with elapsed := 2000 } : State).pending = [] ∧
      ({ State.reset with elapsed := 2000 } : State).nextDue = some .headerReadTimeout := by decide +kernel

theorem hyp_IdleStep_tick :
    State.reset.pending = [] ∧ State.reset.nextDue = none := by decide +kernel

theorem hyp_ClockStaysValid :
    run.sck.Valid := by
  unfold Clock.Valid; decide +kernel

theorem hyp_ClockStaysValid_step :
    ∃ t, step run = .next t := ⟨_, rfl⟩

theorem hyp_OutboxStaysEmpty :
    run.play.net.pau.outbox = [] ∧ ∃ t, step run = .next t := ⟨by decide +kernel, _, rfl⟩

theorem hyp_QueuesKeepOrder :
    Net.reset.lki.queue.length ≤ 16 ∧ [frameAt 0, frameAt 1, frameAt 1].Pairwise (fun a b => a.urgency ≤ b.urgency) ∧
      [entry .rendering, entry .queued].Pairwise (fun a b => classCode a.cls ≤ classCode b.cls) := by decide +kernel

theorem hyp_QueuesKeepOrder_full :
    run.env.load = .running ∧ (List.replicate 16 (frameAt 2)).length = 16 ∧
      (List.replicate 16 (frameAt 2)).Pairwise (fun a b => a.urgency ≤ b.urgency) := by decide +kernel

theorem hyp_FrameRoundTrip :
    destOk 9 9 = true ∧ destOk 0 31 = true ∧ (⟨4, 255, 65535, 0, 0, 3⟩ : WithdrawFrame).wf = true ∧
      (⟨255, 255, 255, 65535, 0, 0, 255, 255⟩ : WithdrawDoneFrame).wf = true ∧
      (⟨255, 255, 65535, 65535, 4294967295⟩ : FaultNoticeFrame).wf = true := by decide +kernel

theorem hyp_FrameRoundTrip_lists :
    ({ announce3 with segs := List.replicate 54 ⟨255, 65535, 255⟩ } : AnnounceFrame).wf 3 = true ∧
      (⟨9, 7, List.replicate 82 ⟨255, 255, 255⟩⟩ : ZoneReportFrame).wf = true ∧ destOk 9 31 = true := by decide +kernel

theorem hyp_LevelIsExact :
    levelCode 0 = 0 ∧ levelCode 0 < 240 ∧ levelCode (2048 * 1073741824) = 240 := by decide +kernel

theorem hyp_NoiseFollowsLevel :
    (16 * 240 ≥ 3840 ∧ 3840 ≤ 3840) ∧ (16 * 0 < 3840 ∧ 0 ≤ 240) := by decide +kernel

theorem hyp_GainTableIsExact :
    (0 ≤ 200 ∧ 200 ≤ 200) ∧ gainEntry 200 = 32767 := by decide +kernel

theorem hyp_TargetInRange :
    zone22.gmin ≤ zone22.gmax ∧ run.env.image = some station9 ∧ run.env.zoneCfg 2 = some zone22 := by decide +kernel

/-- A template of 15 phrases and the calling points, for a call of 16 of them. -/
def longTemplate : List Element := List.replicate 15 ⟨.phrase 7, false, none⟩ ++ [⟨.field .callingPoints, false, none⟩]

/-- 1A23 with 16 calling points. -/
def longCall : CallRec := { call with points := List.replicate 16 2101 }

/-- Cut to 7: 15 phrases, 7 points with "and", and "and other stations" are 24 (R62, R63). -/
theorem hyp_BodiesFit :
    (24 < (expandAs station9.bases 0 .full (some longCall) longTemplate).length ∧ 7 < longCall.points.length ∧
      (expandAs station9.bases 0 (.cut 7) (some longCall) longTemplate).length ≤ 24) ∧
      (∀ j, j < 16 → 7 < j → 24 < (expandAs station9.bases 0 (.cut j) (some longCall) longTemplate).length) ∧
      (expandAs station9.bases 0 .full (some call) longTemplate).length ≤ 24 ∧
      (fitTemplate station9.bases 0 call (List.replicate 25 ⟨.phrase 7, false, none⟩)).overflow = true := by decide +kernel

theorem hyp_BodiesFit_reserved :
    ∀ s ∈ [Segment.phrase 4095, .silence 5], ∀ id, s.phraseId = some id → id ≤ 4095 := by
  intro s hs id h
  simp only [List.mem_cons, List.not_mem_nil, or_false] at hs
  rcases hs with rfl | rfl <;> simp [Segment.phraseId] at h
  omega

theorem hyp_UrgencyDecides :
    (withChannel run fun c => { c with state := .granted }).play.victim .evac = some 0 ∧
      (withChannel run fun c => { c with state := .preparing, read := some ⟨.block 200, .info, false⟩ }).play.cfu.nextRead = some 0 ∧
      (withChannel run fun c => { c with state := .preparing, read := some ⟨.block 200, .info, false⟩ }).play.cfu.readClass 0 =
        some .service := by decide +kernel

/-- All six channels in a state, each serving an INFO body for output 0. -/
def allBusy (st : ChanState) : Play := run.play.onCfu fun f =>
  { f with channels := mapIdx f.channels fun c x =>
      { x with state := st, cls := .info, served := some (.body ⟨3, c.val + 1⟩), members := 1 } }

theorem hyp_UrgencyDecides_theft :
    (allBusy .playing).cfu.waiting = [] ∧ (∀ d, ((allBusy .playing).chan d).state ≠ .free) ∧
      (allBusy .playing).victim .service = some 0 ∧ ((allBusy .playing).chan 0).state = .playing ∧
      (allBusy .granted).victim .service = some 0 ∧ ((allBusy .granted).chan 0).state = .granted ∧
      (∀ d : Chan, sameBody (.body ⟨3, d.val + 1⟩) (.body ⟨9, 5⟩) = false) ∧ (allBusy .playing).victim .info = none := by decide +kernel

/-- A log that holds one record. -/
def oneFault : FaultLog :=
  { FaultLog.reset with records := upd FaultLog.reset.records 0 fun _ => some ⟨.lineShort, 22, ⟨5, 0⟩, ⟨5, 0⟩, 1⟩ }

/-- A log that holds sixteen. -/
def fullLog : FaultLog :=
  { FaultLog.reset with records := mapIdx FaultLog.reset.records fun i _ => some ⟨.lineShort, i.val, ⟨5, 0⟩, ⟨5, 0⟩, 1⟩ }

theorem oneFault_get (i : Fin 16) (a : FaultRecord) (h : oneFault.records.get i = some a) : i = 0 := by
  revert i; intro i h
  have : ∀ i : Fin 16, i ≠ 0 → oneFault.records.get i = none := by decide +kernel
  by_contra hne
  rw [this i hne] at h
  cases h

theorem hyp_FaultReportsSettle :
    oneFault.Distinct := fun i j a b hi hj _ _ => (oneFault_get i a hi).trans (oneFault_get j b hj).symm

theorem hyp_FaultReportsSettle_again :
    oneFault.records.get 0 = some ⟨.lineShort, 22, ⟨5, 0⟩, ⟨5, 0⟩, 1⟩ := by decide +kernel

theorem hyp_FaultReportsSettle_new :
    (∀ i, (oneFault.records.get i).all fun r => !(r.kind = .underrun && r.source = 22)) ∧
      oneFault.records.get 1 = none ∧ (∀ j : Fin 16, j < 1 → oneFault.records.get j ≠ none) ∧
      run.env.load = .running ∧ run.play.net.lki.queue.length < 16 ∧ bare.env.load ≠ .running := by decide +kernel

theorem fullLog_get (i : Fin 16) (a : FaultRecord) (h : fullLog.records.get i = some a) :
    a.kind = .lineShort ∧ a.source = i.val := by
  have g : ∀ j : Fin 16, fullLog.records.get j = some ⟨.lineShort, j.val, ⟨5, 0⟩, ⟨5, 0⟩, 1⟩ := by decide +kernel
  rw [g i] at h
  cases h
  exact ⟨rfl, rfl⟩

theorem hyp_FaultReportsSettle_lost :
    fullLog.Distinct ∧ ∀ i, fullLog.records.get i ≠ none := by
  refine ⟨fun i j a b hi hj _ hs => ?_, by decide +kernel⟩
  rw [(fullLog_get i a hi).2, (fullLog_get j b hj).2] at hs
  exact Fin.ext hs

theorem hyp_FaultReportsSettle_relay :
    run.cfl.image = some station9 ∧ bare.cfl.image = none ∧ bare.relay = false ∧
      (bare.onFlt fun _ => oneFault).relay = true := by decide +kernel

theorem hyp_WordClasses :
    (39 < Limits.builtIn.zlow) ∧ (Limits.builtIn.zlow ≤ 901 ∧ Limits.builtIn.zhigh < 901) ∧
      (Limits.builtIn.zlow ≤ 40 ∧ 40 ≤ Limits.builtIn.zhigh ∧ Limits.builtIn.lmax < 201) ∧
      (Limits.builtIn.zlow ≤ 900 ∧ 900 ≤ Limits.builtIn.zhigh ∧ 200 ≤ Limits.builtIn.lmax) := by decide +kernel

theorem hyp_SupervisionActs_validate :
    LineClass.short.status ≠ Line.reset.status ∧ Line.reset.candidate = none ∧ Line.reset.run = 0 ∧
      LineClass.ok.status = ({ Line.reset with status := .ok } : Line).status := by decide +kernel

/-- An origination of (9, 7) with one zone DONE and one PENDING. -/
def orig7Done : Origination := { orig7 with zones := [⟨29, some 4, .done⟩, ⟨30, some 4, .pending⟩] }

/-- A peer unit that holds it. -/
def peers7 : Peers := { Peers.reset with table := [orig7Done] }

theorem hyp_ZoneReportsApply_final :
    (peers7.table.map (·.id)).Nodup ∧ peers7.find ⟨9, 7⟩ = some orig7Done ∧
      (orig7Done.zones.map (·.zone)).Nodup ∧ (⟨29, some 4, .done⟩ : OrigZone) ∈ orig7Done.zones ∧
      Outcome.done.final = true ∧
      (peers7.zoneReport 9 4 ⟨9, 7, [⟨29, 1, 0⟩]⟩).find ⟨9, 7⟩ = some orig7Done := by decide +kernel

theorem hyp_LoadingSettles_header :
    State.reset.Quiet ∧ State.reset.cfl.load = .loading ∧ State.reset.cfl.headerDone = false ∧
      State.reset.cfl.config = none := by
  unfold State.Quiet; decide +kernel

theorem hyp_LoadingSettles_headerTimeout :
    2000 ≤ ({ State.reset with elapsed := 2000 } : State).elapsed ∧ run.cfl.headerDone = true := by decide +kernel

theorem hyp_LoadingSettles_headerLast :
    ∀ r ∈ [ConfigResult.accepted station9 3, .failed .unreadable],
      ({ State.reset.cfl with config := some r }).load = .loading ∧
        ({ State.reset.cfl with config := some r }).headerDone = false ∧
        ({ State.reset.cfl with config := some r }).image = none ∧
        ({ State.reset.cfl with config := some r }).config = some r := by decide +kernel

theorem hyp_LoadingSettles_late :
    run.Quiet ∧ run.cfl.headerDone = true := by
  unfold State.Quiet; decide +kernel

/-- LOADING with the header read settled. -/
def headed : State := { State.reset with cfl := { State.reset.cfl with headerDone := true } }

theorem plainImage_accepted : ∃ image n, loadImage (some plainImage) = .accepted image n := by
  have h : (match loadImage (some plainImage) with | .accepted _ _ => true | _ => false) = true := by decide +kernel
  revert h
  cases loadImage (some plainImage) with
  | accepted image n => exact fun _ => ⟨image, n, rfl⟩
  | failed cause => intro h; cases h

theorem hyp_LoadingSettles_config :
    headed.cfl.load = .loading ∧ headed.cfl.config = none ∧ headed.cfl.image = none ∧ headed.cfl.headerDone = true ∧
      (∃ image n, loadImage (some plainImage) = .accepted image n) ∧ loadImage none = .failed .unreadable := ⟨by decide +kernel, by decide +kernel, by decide +kernel, by decide +kernel, plainImage_accepted, rfl⟩

theorem hyp_LoadingSettles_held :
    State.reset.cfl.load = .loading ∧ State.reset.cfl.headerDone = false ∧ State.reset.Quiet := by
  unfold State.Quiet; decide +kernel

theorem hyp_LoadingSettles_timeout :
    (2000 ≤ ({ headed with elapsed := 2000 } : State).elapsed ∧ headed.cfl.headerDone = true ∧
      (∀ i, headed.play.net.flt.records.get i = none)) ∧
      (2000 ≤ ({ State.reset with elapsed := 2000 } : State).elapsed ∧ State.reset.cfl.headerDone = false ∧
      ({ State.reset with elapsed := 2000 } : State).Quiet) ∧
      (({ headed with elapsed := 1999 } : State).elapsed < 2000 ∧ ({ headed with elapsed := 1999 } : State).Quiet) := by
  unfold State.Quiet; decide +kernel

theorem hyp_FramesTurnedAway_discard :
    run.cfl.own = 9 ∧ judge 9 [] = .envelope ∧ judge 9 [0, 1, 31, 0x22, 0, 0] = .badCheck ∧
      judge 9 (frameOf 1 5 0x22 []) = .wrongDest ∧ judge 9 (frameOf 1 31 0x55 []) = .unknownKind ∧
      judge 9 (frameOf 1 31 0x22 []) = .malformed := by decide +kernel

theorem hyp_FramesTurnedAway :
    run.Quiet ∧ destOk run.cfl.own 5 = false := by
  unfold State.Quiet; decide +kernel

theorem hyp_FramesTurnedAway_bare :
    bare.Quiet ∧ bare.cfl.load ≠ .running ∧ key.kind ≤ 1 ∧ announceOk 3 announce3 = true ∧
      withdrawOk ⟨4, 0, 0, 0, 0, 3⟩ = true := by
  unfold State.Quiet; decide +kernel

theorem hyp_FramesTurnedAway_passed :
    run.Quiet ∧ destOk run.cfl.own 9 = true ∧ destOk run.cfl.own 31 = true := by
  unfold State.Quiet; decide +kernel

theorem hyp_BeaconTime :
    destOk State.reset.cfl.own 31 = true ∧ State.reset.sck.state = .unset ∧
      (∀ a : Fin 31, 1 ≤ a.val → a.val < 30 → heardLive State.reset.elapsed (State.reset.sck.heard.get a) = false) ∧
      86399999 < 86400000 := by decide +kernel

theorem hyp_BeaconTime_sameDay :
    run.sck.state ≠ .unset ∧ ((36002000 : Int) - run.sck.time).natAbs ≤ 2000 ∧
      2000 < ((36002001 : Int) - run.sck.time).natAbs ∧ run.sck.pendingStep = none := by decide +kernel

theorem hyp_BeaconTime_confirmed :
    2000 < ((36002001 : Int) - run.sck.time).natAbs ∧
      ∃ q : PendingStep, { run.sck with pendingStep := some q }.pendingStep = some q ∧ q.address = 3 ∧
        ((36002001 : Int) - run.sck.time - q.offset).natAbs ≤ 100 := by
  refine ⟨by decide +kernel, ⟨3, 2101⟩, rfl, rfl, ?_⟩; decide +kernel

theorem hyp_OtherDayBeacon :
    run.sck.state ≠ .unset ∧
      ((4 : Day) + 1 = run.sck.day ∧ -2000 ≤ -86400000 + (86399000 : Int) - 1000 ∧ -86400000 + (86399000 : Int) - 1000 ≤ 0) ∧
      ((6 : Day) = run.sck.day + 1 ∧ ({ run with cfl := Loader.reset } : State).triggers = []) ∧
      ((7 : Day) ≠ run.sck.day ∧ (7 : Day) ≠ run.sck.day + 1 ∧ (7 : Day) + 1 ≠ run.sck.day) ∧
      ((4 : Day) ≠ run.sck.day + 1 ∧ -86400000 + (86396999 : Int) - 1000 < -2000 ∧ 0 < -86400000 + (86399000 : Int) + 1001) := by decide +kernel

/-- The owner map holding one entry for zone 30. -/
def ownedBy (o : OwnerEntry) : Net :=
  Net.reset.onPau fun p => { p with owners := upd p.owners 30 fun _ => some o }

theorem hyp_OwnerMapTakesBeacon :
    (4 ≠ run.env.own ∧ (1#64 <<< 30).getLsbD 30 = true ∧ (run.env.outOfZone 30).isNone = true) ∧
      (ownedBy ⟨3, 0, false⟩).pau.owners.get 30 = some ⟨3, 0, false⟩ ∧ 3 < 4 ∧ Net.reset.pau.owners.get 30 = none ∧
      (ownedBy ⟨5, 0, false⟩).pau.owners.get 30 = some ⟨5, 0, false⟩ ∧ 4 ≤ 5 ∧
      (0#64).getLsbD 30 = false ∧ (ownedBy ⟨4, 0, false⟩).pau.owners.get 30 = some ⟨4, 0, false⟩ ∧
      (run.env.outOfZone 22).isSome = true ∧ (1#64 <<< 22).getLsbD 22 = true := by decide +kernel

theorem hyp_CallSetCreates :
    run.TakesFrame toAll ∧ key.kind ≤ 1 ∧ run.checkKey key = some (.dep, 0) ∧ platformOk 12 = true ∧
      checkFields .dep 0 fields = some fields ∧ run.ctb.find key.code .dep = none ∧ run.env.covers 12 = true ∧
      run.ctb.freePlace = some 0 := by
  unfold State.TakesFrame; decide +kernel

theorem hyp_CallSetCreates_uncovered :
    run.Quiet ∧ platformOk 48 = true ∧ run.env.covers 48 = false := by
  unfold State.Quiet; decide +kernel

theorem hyp_CallMovesAndReturns :
    (withCall run { call with platform := 1 }).ctb.find key.code .dep = some (0, { call with platform := 1 }) ∧
      call.state.live = true ∧ run.env.covers 12 = true ∧ 12 ≠ 1 ∧ run.env.covers 13 = false ∧
      platformOk 12 = true ∧ platformOk 13 = true ∧ checkFields .dep 0 fields = some fields ∧
      (withCall run call).checkKey key = some (.dep, 0) := by decide +kernel

theorem hyp_CallMovesAndReturns_cancelled :
    (withCall run { call with state := .cancelled }).TakesFrame toAll ∧ (withCall run { call with state := .cancelled }).Quiet ∧
      (withCall run { call with state := .cancelled }).ctb.find key.code .dep = some (0, { call with state := .cancelled }) := by
  unfold State.TakesFrame State.Quiet; decide +kernel

/-- A call table whose 96 places hold departures in one state, expected at 600 and later. -/
def fullTable (st : CallState) : State := run.onCtb fun c =>
  { c with
    places := mapIdx c.places fun i _ =>
      .held { call with code := BitVec.ofNat 48 (i.val + 1), state := st, hold := some 5, expected := 600 + i.val } }

theorem hyp_FullTableSettled :
    ∀ st ∈ [CallState.departed, .cancelled, .booked, .atPlatform], (fullTable st).ctb.freePlace = none ∧
      (∀ i, ((fullTable st).ctb.places.get i).rec?.all fun x => x.code ≠ call.code) ∧
      ((fullTable st).ctb.victim call).map (·.1) = (if st = .atPlatform then none else if st = .booked then some 95 else some 0) := by decide +kernel

theorem hyp_FullTableSettled_complete :
    run.ctb.find key.code .dep = none ∧ run.env.covers 12 = true ∧ run.ctb.freePlace = some 0 ∧
      (⟨key, 12, some fields⟩ : CallPlatformFrame).complete = some fields ∧ checkFields .dep 0 fields = some fields := by decide +kernel

theorem hyp_CallsUpdate :
    (withCall run call).TakesFrame toAll ∧ (withCall run call).checkKey key = some (.dep, 0) ∧
      checkFields .dep 0 { fields with delay := 2 } = some { fields with delay := 2 } ∧
      (withCall run call).cfl.image = some station9 ∧ (withCall run call).ctb.find key.code .dep = some (0, call) ∧
      call.state.live = true ∧ (withCall run call).env.covers call.platform = true := by
  unfold State.TakesFrame; decide +kernel

theorem hyp_CallsUpdate_ended :
    (withCall run { call with state := .departed }).Quiet ∧
      (withCall run { call with state := .departed }).ctb.find key.code .dep = some (0, { call with state := .departed }) := by
  unfold State.Quiet; decide +kernel

theorem hyp_CallsUpdate_delay :
    clampInt (-60) 720 721 ≠ call.delay ∧ clampInt (-60) 720 0 = call.delay ∧ CallState.cancelled.live = false ∧
      (withCall run call).ctb.find key.code .dep = some (0, call) ∧ run.ctb.find key.code .dep = none := by decide +kernel

theorem hyp_CallMovesOrCancels :
    (withCall run { call with platform := 1 }).ctb.find key.code .dep = some (0, { call with platform := 1 }) ∧
      run.env.covers 12 = true ∧ 12 ≠ 1 ∧ run.env.covers 13 = false ∧ call.platform = 12 ∧
      (checkFields .dep 0 fields).isSome = true := by decide +kernel

theorem hyp_CallMovesOrCancels_cancel :
    (withCall run { call with state := .cancelled }).ctb.find key.code .dep = some (0, { call with state := .cancelled }) ∧
      (withCall run call).checkKey key = some (.dep, 0) := by decide +kernel

theorem hyp_AnnounceSettles :
    (withQueue run [entry .rendering]).TakesFrame toAll ∧ toAll.src ≠ run.cfl.own ∧ announceOk 3 announce3 = true ∧
      announce3.libVersion = run.play.cfu.version ∧ run.play.evl.active = false ∧ run.env.windowClosed announce3 = false ∧
      announce3.segs ≠ [] ∧ zonesOf announce3.zones = [22] ∧ run.env.outOfZone 22 = some 2 ∧
      (run.play.zone 2).id = some 22 ∧ (run.play.zone 2).faulted = false ∧ (run.play.zone 2).survey = false ∧
      classCode AnnClass.service ≤ classCode (classTaken 3) ∧
      run.env.reached (instantOf 5 39600000) = false ∧ (∀ j, run.play.cmu.slots.get j = none) ∧
      run.play.cmu.freeSlot = some 0 ∧ (entry .rendering).id ≠ ⟨3, 8⟩ ∧ run.play.net.lki.queue.length < 16 ∧
      hasReserved (classTaken 3) (([⟨0, 2000, 0⟩] : List RawSegment).map takeSegment) = false := by
  unfold State.TakesFrame; decide +kernel

theorem hyp_AnnounceSettles_refused :
    (zonesOf announce3.zones).filter (fun z => (run.env.outOfZone z).isSome) ≠ [] ∧ 1 ≠ run.play.cfu.version ∧
      announce3.libVersion = run.play.cfu.version ∧ 2 ≤ announce3.cls ∧ announceOk 3 { announce3 with libVersion := 1 } = true ∧
      (run.onPlay fun _ p => p.onEvl fun v => { v with active := true }).play.evl.active = true := by decide +kernel

theorem hyp_ZoneReportsApply :
    (withOrig run).TakesFrame ⟨4, 9⟩ ∧ (withOrig run).Quiet ∧ (9 : Nat) = run.cfl.own ∧
      (withOrig run).play.net.pau.find ⟨9, 7⟩ = some orig7 ∧ (orig7.zones.map (·.zone)).Nodup ∧
      (⟨30, some 4, .pending⟩ : OrigZone) ∈ orig7.zones ∧ Outcome.pending.final = false ∧
      run.play.net.pau.find ⟨9, 7⟩ = none := by
  unfold State.TakesFrame State.Quiet; decide +kernel

theorem hyp_WithdrawalsSettle :
    run.TakesFrame ⟨3, 9⟩ ∧ run.Quiet ∧ 3 ≠ run.cfl.own ∧ withdrawOk ⟨2, 9, 0, 0, 0, 4⟩ = true ∧
      run.play.net.lki.queue.length < 16 ∧ (∀ o, (run.play.zone o).queue = []) ∧
      withdrawSelects ⟨2, 9, 0, 0, 0, 4⟩ (some 22) (entry .queued) = false := by
  unfold State.TakesFrame State.Quiet; decide +kernel

theorem hyp_WithdrawalsSettle_done :
    ((9 : Nat) = run.cfl.own ∧ (1 : Nat) = 1) ∧ ¬ ((31 : Nat) = run.cfl.own) := by decide +kernel

theorem hyp_WithdrawalsSettle_removes :
    (∀ en ∈ [entry .rendering], en.sounding = true) ∧
      ([entry .queued].filter fun en => en.id = ⟨9, 5⟩) = [entry .queued] ∧
      run.play.hasRequest 2 (.body ⟨9, 5⟩) = false := by decide +kernel

/-- The hypothesis of QueriesAndSettingsAnswered, SurveyCommandsSettle, RestartClears and RequestsRefused. -/
theorem hyp_requests :
    run.TakesRequest toMe := by
  unfold State.TakesRequest State.Quiet; decide +kernel

theorem hyp_QueriesAndSettingsAnswered :
    run.TakesRequest toMe ∧ 15 ≤ 15 ∧ 10 ≤ 10 ∧ (run.tookGood.countersView 10).isSome = true := by
  unfold State.TakesRequest State.Quiet; decide +kernel

theorem hyp_QueriesAndSettingsAnswered_settings :
    Limits.zlow ⟨1022, 1023, 255⟩ < 1023 ∧ (run.play.zone 2).id.isSome = true ∧ run.play.lsu.lock = false ∧
      (run.onPlay fun _ p => p.onLsu fun u => { u with lock := true }).play.lsu.lock = true := by decide +kernel

theorem hyp_SurveyCommandsSettle :
    ((run.play.zone 2).state = .idle ∧ (run.play.zone 2).queue = [] ∧ run.play.evl.active = false) ∧
      ((withQueue run [entry .queued]).play.zone 2).queue ≠ [] ∧ (run.play.surveyAt 2).work = none := by decide +kernel

theorem hyp_SurveyCommandsSettle_running :
    (withSurvey run .baseline).TakesRequest toMe ∧ ((withSurvey run .baseline).play.surveyAt 2).phase = .baseline ∧
      ((withSurvey run .baseline).play.surveyAt 2).work = (survey .baseline).work ∧
      ((withSurvey run .baseline).play.zone 2).queue = [] ∧
      ((withSurvey run .baseline).play.zone 2).id.isSome = true := by
  unfold State.TakesRequest State.Quiet; decide +kernel

/-- A retry pending since 1000 ms. -/
def retrying (elapsed : Nat) (quiet : Bool) : State :=
  (State.onPlay { run with elapsed := elapsed } fun _ p => p.onSurvey 2 fun v => { v with retryAt := some 1000 }).onSck
    fun c => { c with quiet := quiet }

theorem hyp_SurveyCommandsSettle_retry :
    (retrying 61000 false).Quiet ∧ ((retrying 61000 false).play.surveyAt 2).retryAt = some 1000 ∧ (60999 < 1000 + 60000) ∧
      (1000 + 60000 ≤ (retrying 61000 false).elapsed) ∧ (retrying 61000 true).sck.quiet = true ∧
      (retrying 61000 true).play.surveyAllowed (retrying 61000 true).env 2 = true ∧
      ((retrying 61000 true).play.onEvl fun v => { v with active := true }).surveyAllowed (retrying 61000 true).env 2 = false := by
  unfold State.Quiet; decide +kernel

theorem hyp_SurveyCommandsSettle_probe :
    (withSurvey { run with elapsed := 11000 } .probe).Quiet ∧
      ((withSurvey { run with elapsed := 11000 } .probe).play.surveyAt 2).phase = .probe ∧
      ((withSurvey { run with elapsed := 11000 } .probe).play.zone 2).queue = [] ∧
      ((withSurvey { run with elapsed := 11000 } .probe).play.surveyAt 2).work.map (fun w => (w.probeStart, w.abort, w.asked)) =
        some (none, none, 1000) := by
  unfold State.Quiet; decide +kernel

/-- An entry that a soft restart has reached. -/
def restarted : Entry :=
  entry (.stopping { StopCause.clear with drop := some .restart, restart := true, atBlock := true })

theorem hyp_RestartClears :
    run.TakesRequest toMe ∧ run.play.restartInProgress = false ∧ run.play.evl.active = false ∧
      (withQueue run [restarted]).play.restartInProgress = true := by
  unfold State.TakesRequest State.Quiet; decide +kernel

theorem hyp_RequestsRefused_all :
    run.Quiet ∧ (⟨toAll, 77⟩ : MaintHead).env.dst = 31 ∧ (8#8).toNat ≥ 8 ∧ (11#8).toNat ≥ 11 ∧
      (16#8).toNat ≥ 16 ∧ (254#8).toNat ≠ 255 := by
  unfold State.Quiet; decide +kernel

theorem hyp_RequestsRefused_values :
    (8 < 256 ∧ 65535 < 65536) ∧ (run.play.zone 0).id = none ∧ run.play.lsu.lock = false ∧ 900 ≤ 900 ∧ 1023 < 1024 ∧ 255 < 256 ∧
      (run.onPlay fun _ p => p.onLsu fun u => { u with lock := true }).play.lsu.lock = true ∧
      (1#8).toNat ≠ 0 ∧ 96 ≤ (96#8).toNat ∧ (0#8).toNat ≠ 1 ∧ 2 ≤ (2#8).toNat ∧ ([0, 0, 0, 0, 0, 0] : List Byte).length = 6 ∧
      ([] : List Byte).length ≠ 2 ∧ ([] : List Byte).length ≠ 8 := by decide +kernel

/-- A transmit queue with a frame at its head. -/
def sendingState (f : TxFrame) : State := run.onLki fun l => { l with queue := [f] }

theorem hyp_LinkEventsAct :
    (sendingState (frameAt 2)).cfl.load = .running ∧ (sendingState (frameAt 2)).play.net.lki.queue = frameAt 2 :: [] ∧
      (sendingState (frameAt 2)).play.net.lki.sending = none ∧ (sendingState (frameAt 2)).play.net.lki.busy = false ∧
      (72 < 2 * 32 + run.cfl.own) ∧ (2 * 32 + run.cfl.own ≤ 73) := by decide +kernel

theorem hyp_LinkEventsAct_sent :
    (run.onLki fun l => { l with sending := some (frameAt 1) }).play.net.lki.sending = some (frameAt 1) ∧
      run.play.net.lki.sending = none := by decide +kernel

theorem hyp_LinkEventsAct_beacon :
    run.play.net.lki.beaconAt ≤ run.elapsed ∧ run.play.net.lki.beaconQueued = false ∧ run.play.net.lki.queue.length < 16 ∧
      (sendingState (frameAt 2)).play.net.lki.beaconQueued = true := by decide +kernel

theorem hyp_SecondsAndDays :
    ({ run.sck with dayEndDue := true }).dayEndDue = true ∧ expectedTime (call.booked - 1440) call.delay < -60 ∧
      -60 ≤ expectedTime (1380 - 1440) 0 ∧ (withCall run call).ctb.places.get 0 = .held call ∧
      run.ctb.places.get 0 = .free ∧ ({ run.sck with secondDue := true }).secondDue = true := by decide +kernel

theorem hyp_SecondsAndDays_notDue :
    run.Quiet ∧ run.sck.dayEndDue = false ∧ run.sck.secondDue = false := by
  unfold State.Quiet; decide +kernel

theorem hyp_SourcesAndQuiet :
    (run.onSck fun c => { c with heard := upd c.heard 3 fun _ => some 1096 }).sck.heard.get 3 = some 1096 ∧
      1096 + 3000 ≤ run.elapsed ∧ run.sck.state = .locked ∧ 1000 + 5000 ≤ 6000 ∧ run.cfl.image = some station9 := by decide +kernel

theorem hyp_SourcesAndQuiet_clears :
    clockMinute station9.dayStart run.sck.time = 600 ∧
      (retrying 61000 true).sck.quiet = true ∧ ((retrying 61000 true).play.surveyAt 2).retryAt.isSome = true := by decide +kernel

theorem hyp_PeersAge :
    (run.onNet fun _ _ => ownedBy ⟨4, 1096, false⟩).play.net.pau.owners.get 30 = some ⟨4, 1096, false⟩ ∧
      1096 + 3000 ≤ run.elapsed ∧ run.elapsed < 1097 + 3000 ∧
      (withOrig run).play.net.pau.find ⟨9, 7⟩ = some orig7 ∧ orig7.deadline = some 4000 ∧ 4000 ≤ run.elapsed ∧
      ((withOrig run).play.net.pau.table.map (·.id)).Nodup ∧ (withOrig run).play.net.lki.queue.length + ((orig7.zones.filter fun z => z.outcome = .pending).filterMap (·.owner)).eraseDups.length ≤ 16 ∧
      ((orig7.zones.filter fun z => z.outcome = .pending).filterMap (·.owner)).eraseDups = [4] ∧
      run.env.reached (orig7.expiry.plus 5000) = true := by decide +kernel

theorem hyp_ApproachEdges :
    ((withInput run .approach true (some false)).ctb.approach.get 0).since + 2000 ≤ run.elapsed ∧
      run.platformsOf .approach 0 = [12] ∧ (withInput run .approach true (some false)).cfl.load = .running ∧
      ((withCall run arrival).earliest fun r => r.platform = 12 && r.kind = .arr && r.state = .booked &&
        (withCall run arrival).near 1800000 r) = some (0, arrival) ∧
      (run.earliest fun r => r.platform = 12 && r.kind = .arr && r.state = .booked && run.near 1800000 r) = none := by decide +kernel

theorem hyp_ApproachEdges_first :
    (withInput run .approach true none).Quiet ∧ ((withInput run .approach true none).ctb.approach.get 0).level = none ∧
      ((withInput run .approach false (some true)).ctb.approach.get 0).level ≠ some false := by
  unfold State.Quiet; decide +kernel

theorem hyp_OccupancyEdges :
    ((withInput run .occupancy true (some false)).ctb.occupancy.get 0).since + 2000 ≤ run.elapsed ∧
      run.platformsOf .occupancy 0 = [12] ∧
      ((withCall run { arrival with state := .approaching }).earliest fun r =>
        r.platform = 12 && r.kind = .arr && r.state = .approaching) = some (0, { arrival with state := .approaching }) ∧
      arrival.forms = none ∧
      (run.earliest fun r => r.platform = 12 && r.kind = .arr && r.state = .approaching) = none ∧
      ((withCall run call).earliest fun r => r.platform = 12 && r.kind = .dep && r.state = .booked &&
        (withCall run call).near 3600000 r) = some (0, call) := by decide +kernel

/-- An approaching arrival that forms the departure 1A23, itself at place 1 on a platform. -/
def forming (platform : Nat) : State :=
  (withCall run { arrival with state := .approaching, forms := some call.code }).onCtb fun c =>
    c.put 1 (.held { call with platform := platform })

theorem hyp_OccupancyEdges_forms :
    ∀ n ∈ [12, 13], ((forming n).earliest fun r => r.platform = 12 && r.kind = .arr && r.state = .approaching) =
        some (0, { arrival with state := .approaching, forms := some call.code }) ∧
      (some call.code).bind (fun c => (forming n).ctb.find c .dep) = some (1, { call with platform := n }) := by decide +kernel

theorem hyp_OccupancyEdges_other :
    run.Quiet ∧
      (run.earliest fun r => r.platform = 12 && r.kind = .dep && r.state = .booked && run.near 3600000 r) = none ∧
      ((withInput run .occupancy false (some true)).ctb.occupancy.get 0).raw = false ∧
      (run.ctb.seconds + 1) * 1000 ≤ run.elapsed ∧ State.reset.elapsed < (State.reset.ctb.seconds + 1) * 1000 := by
  unfold State.Quiet; decide +kernel

theorem hyp_WindowsMeasure :
    run.Quiet ∧ run.elapsed % 128 = 0 ∧ 0 < run.elapsed ∧ run.play.lvc.windowAt ≠ run.elapsed ∧
      (∀ o, (run.play.surveyAt o).work = none) := by
  unfold State.Quiet; decide +kernel

/-- Output 2 with two words of SHORT behind it. -/
def twoShort : State := run.onPlay fun _ p => p.onLine 2 fun l => { l with candidate := some .short, run := 2 }

theorem hyp_SupervisionActs :
    run.Quiet ∧ (run.play.lineAt 2).supervised = true ∧
      ((run.play.lineAt 2).takeWord ⟨true, 40, 200⟩).status = (run.play.lineAt 2).status ∧
      (run.onPlay fun _ p => p.onLine 2 fun l => { l with supervised := false }).Quiet ∧
      (twoShort.play.zone 2).id.isSome = true ∧ (twoShort.play.zone 2).faulted = false ∧
      ((twoShort.play.lineAt 2).takeWord ⟨true, 39, 0⟩).status = .short ∧
      ((twoShort.play.lineAt 2).takeWord ⟨true, 39, 0⟩).status ≠ (twoShort.play.lineAt 2).status ∧
      (run.play.lsu.cycles + 1) * 2000 ≤ run.elapsed := by
  unfold State.Quiet; decide +kernel

theorem hyp_EvacuationInput :
    run.Quiet ∧ run.play.evl.since + 50 ≤ run.elapsed ∧
      (run.play.onEvl fun v => { v with raw := true }).evl.raw = true ∧ run.play.evl.active = false ∧
      (run.play.onEvl fun v => { v with active := true }).evl.active = true ∧ State.reset.Quiet ∧
      State.reset.elapsed < State.reset.play.evl.since + 50 := by
  unfold State.Quiet; decide +kernel

theorem hyp_EvacuationInput_entry :
    (run.play.cmu.evacSlot = none ∧ (∀ q, (run.play.zone q).queue = [])) ∧
      (run.cfl.load = .running ∧ (run.play.zone 2).id.isSome = true ∧ (run.play.zone 2).faulted = false) ∧
      (bare.cfl.load ≠ .running ∧ (bare.play.zone 0).id = none ∧ bare.play.lineDown 0 = false ∧ bare.play.cmu.evacSlot = none) := by decide +kernel

/-- A channel in a state whose read stands at the port, to be discarded or not. -/
def reading (st : ChanState) (k : ReadKind) (discard : Bool) : State :=
  (withChannel run fun c => { c with state := st, read := some ⟨k, .service, discard⟩ }).onPlay fun _ p =>
    p.onCfu fun f => { f with port := some (.channel 0), size := 203 }

theorem hyp_ReadsComplete :
    ∀ st ∈ [ChanState.preparing, .playing], (reading st (.block 200) false).Quiet ∧
      (reading st (.block 200) false).play.cfu.port = some (.channel 0) ∧
      ((reading st (.block 200) false).play.chan 0).state = st ∧
      ((reading st (.block 200) false).play.chan 0).read = some ⟨.block 200, .service, false⟩ ∧
      ((reading st (.directory 7 1) false).play.chan 0).read = some ⟨.directory 7 1, .service, false⟩ ∧
      129 ≤ phrase7.start ∧ phrase7.start + 3 ≤ (reading st (.directory 7 1) false).play.cfu.size := by
  unfold State.Quiet; decide +kernel

theorem hyp_ReadsComplete_discarded :
    ∀ st ∈ [ChanState.free, .playing], ∀ k ∈ [ReadKind.block 200, .directory 7 1],
      ((reading st k true).play.chan 0).read = some ⟨k, .service, true⟩ ∧ ((reading st k true).play.chan 0).state = st := by decide +kernel

/-- Zone 22 with an entry fed by channel 0, in a channel state. -/
def fed (en : Entry) (f : Channel → Channel) : State := withQueue (withChannel run f) [en]

theorem hyp_ChannelsPlay_start :
    run.elapsed % 16 = 0 ∧ 0 < run.elapsed ∧
      ((fed (entry .starting) fun c => { c with state := .granted }).play.chan 0).boundary ≠ run.elapsed ∧
      ((fed (entry .starting) fun c => { c with state := .granted }).play.chan 0).served = some (.body ⟨9, 5⟩) ∧
      ((fed (entry .starting) fun c => { c with state := .granted }).play.chan 0).state = .granted ∧
      ((fed (entry .starting) fun c => { c with state := .granted }).play.chan 0).cls ≠ .evac ∧
      outsOf ((fed (entry .starting) fun c => { c with state := .granted }).play.chan 0).members = [2] ∧
      (((fed (entry .starting) fun c => { c with state := .granted }).play.zone 2).queue.find? fun x => x.id = ⟨9, 5⟩) =
        some (entry .starting) := by decide +kernel

/-- Channel 0 playing the second of the three blocks of phrase 7. -/
def midway (c : Channel) : Channel :=
  { c with state := .playing, blk := 1, next := some .zero, segEntry := some (.found phrase7) }

/-- Channel 0 playing the last block of phrase 7. -/
def atEnd (c : Channel) : Channel := { c with state := .playing, blk := 2, segEntry := some (.found phrase7) }

theorem hyp_ChannelsPlay_advance :
    (fed (entry .rendering) midway).Quiet ∧ ((fed (entry .rendering) midway).play.chan 0).state = .playing ∧
      ((fed (entry .rendering) midway).play.chan 0).boundary ≠ run.elapsed ∧
      (fed (entry .rendering) midway).play.passEndDue (fed (entry .rendering) midway).env 0 = false ∧
      (fed (entry .rendering) midway).play.stopDue (fed (entry .rendering) midway).env 0 = [] ∧
      ((fed (entry .rendering) midway).play.chan 0).next = some .zero ∧
      ((fed (entry .rendering) fun c => { midway c with next := none }).play.chan 0).next = none ∧
      (fed (entry .rendering) fun c => { midway c with next := none }).play.passEndDue run.env 0 = false := by
  unfold State.Quiet; decide +kernel

theorem hyp_PassesAndStops_whole :
    ((fed (entry .rendering) atEnd).play.zone 2).queue.find? (fun x => x.id = ⟨9, 5⟩) = some (entry .rendering) ∧
      (fed (entry .rendering) atEnd).play.passEndDue (fed (entry .rendering) atEnd).env 0 = true ∧
      outsOf ((fed (entry .rendering) atEnd).play.chan 0).members = [2] ∧
      (fed (entry .rendering) atEnd).play.wholeAfter ((fed (entry .rendering) atEnd).play.chan 0) = true ∧
      (fed (entry .rendering) atEnd).play.evl.active = false := by decide +kernel

/-- A state whose body (9, 5) is one chime of two passes, the first of which ends. -/
def chiming : State :=
  (fed (entry .rendering) fun c => { atEnd c with next := some .zero }).onPlay fun _ p => { p with cmu := { p.cmu with
    slots := upd p.cmu.slots 0 fun _ => some ⟨⟨9, 5⟩, .service, .own, none, none, [.chime 7 2], 1⟩ } }

theorem hyp_PassesAndStops_pass :
    chiming.Quiet ∧ chiming.play.passEndDue chiming.env 0 = true ∧
      chiming.play.lastPass (chiming.play.chan 0) = false ∧ outsOf (chiming.play.chan 0).members = [2] := by
  unfold State.Quiet; decide +kernel

/-- Entries in STOPPING for PREEMPT alone, and for a withdrawal. -/
def preempted : Entry := entry (.stopping { StopCause.clear with preempt := true, atBlock := true })

/-- An entry STOPPING for a withdrawal. -/
def withdrawn : Entry := entry (.stopping { StopCause.clear with drop := some .withdrawn, atBlock := true })

theorem hyp_PassesAndStops_stop :
    (fed preempted midway).Quiet ∧ (fed preempted midway).play.stopDue (fed preempted midway).env 0 = [2] ∧
      (∀ x ∈ ((fed preempted midway).play.zone 2).queue, x.id ≠ ⟨9, 5⟩ → moreUrgent x.cls preempted.cls = false) ∧
      (fed withdrawn midway).play.stopDue (fed withdrawn midway).env 0 = [2] := by
  unfold State.Quiet; decide +kernel

/-- An entry that waits with an expiry instant and a sync start. -/
def waitingEntry (expiry sync : Nat) : Entry :=
  { entry .queued with expiry := some ⟨5, expiry⟩, sync := some ⟨5, sync⟩, mustSync := true }

theorem hyp_WaitingInstants :
    (withQueue run [waitingEntry 36000000 35998000]).Quiet ∧
      (((withQueue run [waitingEntry 36000000 35998000]).play.zone 2).queue.filter fun x => x.id = ⟨9, 5⟩) =
        [waitingEntry 36000000 35998000] ∧
      (∀ q, q ≠ 2 → ((withQueue run [waitingEntry 36000000 35998000]).play.zone q).queue = []) ∧
      (withQueue run [waitingEntry 36000000 35998000]).play.hasRequest 2 (.body ⟨9, 5⟩) = false ∧
      run.env.expired (waitingEntry 36000000 35998000) = true ∧
      run.env.syncMissed (waitingEntry 36000000 35998000) = true ∧
      run.env.expired (waitingEntry 36000001 35998001) = false ∧
      run.env.syncMissed (waitingEntry 36000001 35998001) = false := by
  unfold State.Quiet; decide +kernel

theorem hyp_WaitingInstants_remote :
    ({ waitingEntry 36000000 35998000 with origin := .remote 3 }).origin = .remote 3 ∧ run.cfl.load = .running ∧
      run.play.net.lki.queue.length < 16 := by decide +kernel

theorem hyp_WaitingInstants_start :
    run.env.syncReached { entry .starting with sync := some ⟨5, 36000000⟩ } = true ∧ run.play.cfu.waiting = [] ∧
      (∀ d, (run.play.chan d).served ≠ some (.body ⟨9, 5⟩)) ∧ (run.play.chan 0).state = .free := by decide +kernel

/-- Two outcomes of one announcement and one of another. -/
def outcomes : List ReportedOutcome :=
  [⟨⟨3, 8⟩, .info, 22, .queued⟩, ⟨⟨4, 1⟩, .alert, 22, .playing⟩, ⟨⟨3, 8⟩, .info, 23, .queued⟩]

theorem hyp_ReportsGoOut :
    run.env.load = .running ∧ run.play.net.pau.counts.reportSent ≤ 65535 ∧
      run.play.net.lki.queue.length + (outcomes.map (·.id)).eraseDups.length ≤ 16 ∧
      (outcomes.map (·.id)).eraseDups = [⟨3, 8⟩, ⟨4, 1⟩] := by decide +kernel

theorem hyp_ReportsGoOut_boundary :
    run.play.evl.gateClosed = false ∧ run.play.boundaryDue run.env = false ∧
      (fed (entry .rendering) midway).play.evl.gateClosed = false ∧
      (fed (entry .rendering) midway).play.boundaryDue run.env = true := by decide +kernel

/-- A STATE trigger on DELAYED, and station 9 with it, with zone 23 at output 3 as the fallback of zone 22. -/
def delayedTrigger : Trigger := { leadTrigger with kind := .state, event := some .delayed }

/-- Zone 23 on output 3. -/
def zone23 : ZoneCfg := { zone22 with output := 3, zone := 23 }

/-- Station 9 with two zones and two triggers. -/
def run2 : State :=
  { run with
    cfl := { run.cfl with image := some { station9 with
      zones := [{ zone22 with fallback := some 3 }, zone23], triggers := [leadTrigger, delayedTrigger] } }
    play := run.play.onZone 3 fun z => { z with id := some 23 } }

theorem hyp_RequestsMatch :
    run2.sck.state ≠ .unset ∧ State.reset.sck.state = .unset ∧ run2.tgu.issued ≤ 65535 ∧ run2.tgu.noZone ≤ 65535 ∧
      run2.tgu.unsetHeld ≤ 65535 ∧
      run2.triggers.filter (fun t => t.2.enabled && t.2.kind = .state && t.2.event = some .delayed && t.2.accepts call 12) =
        [(1, delayedTrigger)] ∧ run2.env.requestZones delayedTrigger [12] ≠ 0 := by decide +kernel

theorem hyp_LeadsFire :
    (withCall run call).ctb.places.get 0 = .held call ∧ run.cfl.image = some station9 ∧ run.sck.state ≠ .unset ∧
      call.state.live = true ∧ CallState.departed.live = false ∧ run.tgu.issued ≤ 65535 ∧
      run.triggers = [(0, leadTrigger)] := by decide +kernel

/-- The work of a survey, and candidates of which the second is valid. -/
def work (levels : List Nat) (start stop : Option Nat) : SurveyWork :=
  { begun := ⟨5, 0⟩, starter := .request, entered := 1000, levels := levels, nb := some 40, bestScore := none,
    best := none, bestLp := 0, misses := 0, nextIndex := 0, current := .active, asked := 1000,
    probeStart := start, probeEnd := stop, probes := [], abort := none }

/-- A survey in a phase with that work and those candidates. -/
def surveying (ph : SurveyPhase) (levels : List Nat) (start stop : Option Nat) (valid : Bool) : State :=
  run.onPlay fun _ p => p.onSurvey 2 fun v => { v with
    phase := ph, work := some (work levels start stop), candidates := [⟨false, 0⟩, ⟨valid, 0⟩] }

theorem hyp_SurveyCourse :
    ((surveying .baseline [1, 2] none none true).play.surveyAt 2).work = some (work [1, 2] none none) ∧
      (run.elapsed < { work [] none none with entered := 4000 }.entered + 128) ∧ (1000 + 128 ≤ run.elapsed) ∧
      [1, 2].length < 3 ∧ [1, 2, 3].length = 3 ∧ run.play.cfu.waiting = [] ∧
      ((surveying .probe [] (some 4000) none true).play.surveyAt 2).phase = .probe ∧ 4000 < run.elapsed ∧ run.elapsed ≤ 4096 ∧
      (work [] (some 4000) none).abort = none := by decide +kernel

theorem hyp_SurveyCourse_tail :
    ((surveying .tail [50, 60] (some 3000) (some 3900) true).play.surveyAt 2).phase = .tail ∧ 3000 < 3900 ∧ 4096 = run.elapsed ∧
      (4000 < run.elapsed ∧ run.elapsed < 4000 + 128) ∧ 3900 + 128 ≤ run.elapsed ∧
      (∀ v ∈ [true, false], (((surveying .tail [] none none v).play.surveyAt 2).candidates[0]?).any (fun c => c.valid) = false ∧
        (((surveying .tail [] none none v).play.surveyAt 2).candidates[1]?).any (fun c => c.valid) = v) := by decide +kernel

theorem hyp_GainApplied :
    zone22.gmin ≤ zone22.gmax ∧ run.env.image = some station9 ∧ run.env.zoneCfg 2 = some zone22 ∧ run.env.zoneCfg 0 = none ∧
      ((fed (entry .starting) fun c => { c with state := .granted, next := some .zero }).play.chan 0).next = some .zero ∧
      (run.play.zone 2).lastStop = none ∧ (⟨4096, 1⟩ : StopMark).elapsed = run.elapsed ∧ (entry .starting).order ≠ 1 := by decide +kernel

theorem hyp_OffersSettled :
    (run.play.zone 0).id = none ∧ run.env.load = .running ∧ (run.play.zone 2).id.isSome = true ∧
      (run.play.zone 2).faulted = false ∧ (run.play.zone 2).queue = [] ∧ (run.play.zone 2).survey = false ∧
      run.env.expired (waitingEntry 36000000 0) = true ∧ run.env.expired (entry .queued) = false ∧
      run.env.syncReached (entry .queued) = true ∧ run.play.cfu.waiting = [] ∧ (∀ d, (run.play.chan d).served = none) ∧
      (run.play.chan 0).state = .free ∧ run.play.evl.active = false ∧ moreUrgent .evac (entry .rendering).cls = true := by decide +kernel

/-- Eight entries in zone 22, the last of them QUEUED. -/
def eight : List Entry := (List.range 8).map fun k => { entry .queued with id := ⟨9, k + 10⟩, order := k }

theorem hyp_OffersSettled_full :
    8 ≤ ((withQueue run eight).play.zone 2).queue.length ∧
      eight = eight.take 7 ++ { entry .queued with id := ⟨9, 17⟩, order := 7 } :: [] ∧
      moreUrgent .alert (entry .queued).cls = true ∧ moreUrgent .service (entry .queued).cls = false := by decide +kernel

/-- An entry that stops for THEFT, and one that holds EVAC_END. -/
def stolen : Entry := entry (.stopping { StopCause.clear with theft := true, atBlock := true })

/-- An entry that stops because evacuation has ended. -/
def ending : Entry := entry (.stopping { StopCause.clear with evacEnd := true, atBlock := true })

theorem hyp_StopsSettled :
    (∀ en ∈ [stolen, ending, { stolen with stale := true }, { stolen with allowance := 0 },
        { stolen with expiry := some ⟨5, 36000000⟩ }], (fed en midway).play.stopDue run.env 0 = [2] ∧
        ((fed en midway).play.chan 0).served = some (.body ⟨9, 5⟩) ∧
        ((fed en midway).play.zone 2).queue.find? (fun x => x.id = ⟨9, 5⟩) = some en) ∧
      stolen.stale = false ∧ stolen.allowance = 1 ∧ run.env.expired stolen = false ∧
      run.env.expired { stolen with expiry := some ⟨5, 36000000⟩ } = true ∧ run.play.evl.active = false := by decide +kernel

theorem hyp_FaultedZonesMove :
    run2.play.fallback run2.env 2 ⟨9, 5⟩ = some (3, 23) ∧ run.play.fallback run.env 2 ⟨9, 5⟩ = none ∧
      (run2.play.zone 3).queue.length < 8 ∧ run2.env.expired (entry .queued) = false ∧
      run2.env.expired (waitingEntry 36000000 0) = true ∧ (entry .queued).stale = false ∧
      ((run2.play.onZone 2 fun z => { z with faulted := true }).zone 2).faulted = true ∧ run2.play.lineDown 2 = false ∧
      (run2.play.onLine 2 fun l => { l with status := .short }).lineDown 2 = true := by decide +kernel

/-- Evacuation active behind the closed gate, with the EVAC entry of zone 22 STARTING and its channel GRANTED. -/
def gated : Play :=
  ((fed { entry .starting with cls := .evac } fun c => { c with state := .granted }).play.onEvl fun v =>
    { v with active := true, gateClosed := true, counted := 4 }).onChan 0 fun c => { c with cls := .evac }

theorem hyp_EvacuationStartsTogether :
    (gated.chan 0).cls = .evac ∧ (gated.chan 0).state = .granted ∧ gated.evl.gateClosed = true ∧ gated.evl.active = true ∧
      gated.evl.counted.getLsbD 2 = true ∧ (∀ o : Out, o ≠ 2 → gated.evl.counted.getLsbD o.val = false) ∧
      (gated.zone 2).queue.find? (fun x => x.cls = .evac) = some { entry .starting with cls := .evac } ∧
      gated.hasRequest 2 (.body ⟨9, 5⟩) = true ∧ run.play.evl.gateClosed = false ∧
      ((allBusy .granted).onChan 0 fun c => { c with cls := .evac }).startDue run.env 0 = true := by decide +kernel

theorem hyp_EvacuationStartsTogether_again :
    (run.play.zone 2).id.isSome = true ∧ run.play.lineDown 2 = false ∧ (run.play.zone 2).survey = false ∧
      run.play.cmu.evacSlot = none ∧ (run.play.zone 2).queue = [] ∧ { entry .rendering with cls := .evac }.restarting = false := by decide +kernel

/-- A body of one reference and its entry. -/
def counted : State := (fed (entry .rendering) midway).onPlay fun _ p => p.onZone 2 fun z => { z with nextOrder := 1 }

theorem all_of {α : Type} {o : Option α} {p : α → Bool} {a : α} (h : o.all p = true) (k : o = some a) : p a = true := by
  subst k; exact h

theorem hyp_ZonesStayOrdered :
    (∀ o, (counted.play.zone o).Ordered) ∧ ∃ t, step counted = .next t := ⟨by unfold Zone.Ordered; decide +kernel, _, rfl⟩

theorem hyp_KeysStayDistinct :
    (withCall run call).ctb.KeysDistinct ∧ ∃ t, step (withCall run call) = .next t := by
  refine ⟨fun i j a b hi hj _ _ => ?_, _, rfl⟩
  have h : ∀ k : Fin 96, k ≠ 0 → (withCall run call).ctb.places.get k = .free := by decide +kernel
  have z : ∀ (k : Fin 96) (x : CallRec), (withCall run call).ctb.places.get k = .held x → k = 0 := by
    intro k x hk
    by_contra hne
    rw [h k hne] at hk; cases hk
  rw [z i a hi, z j b hj]

theorem hyp_LinkAndLogStayValid :
    counted.play.net.lki.Valid ∧ oneFault.Distinct ∧ ∃ t, step counted = .next t := ⟨by unfold LinkUnit.Valid; decide +kernel, hyp_FaultReportsSettle, _, rfl⟩

theorem counted_slot (i : Fin 32) (b : Body) (h : counted.play.cmu.slots.get i = some b) :
    i = 0 ∧ b.id = ⟨9, 5⟩ ∧ b.cls = .service ∧ b.refs = 1 := by
  have g : ∀ i : Fin 32, (counted.play.cmu.slots.get i).all
      (fun b => i = 0 && b.id = ⟨9, 5⟩ && b.cls = .service && b.refs = 1) = true := by decide +kernel
  have := all_of (g i) h
  simp only [Bool.and_eq_true, decide_eq_true_eq] at this
  exact ⟨this.1.1.1, this.1.1.2, this.1.2, this.2⟩

theorem no_evac_trigger : station9.NoEvacTrigger := by unfold Image.NoEvacTrigger; decide +kernel

theorem hyp_RefsStayCounted :
    counted.RefsCounted ∧ ∃ t, step counted = .next t := by
  refine ⟨⟨by decide +kernel, fun i j a b hi hj _ => ?_, fun i b h => ?_, by decide +kernel, fun b h => ?_, fun _ => by decide +kernel,
    by decide +kernel, by decide +kernel, fun i h => ?_, fun i n h => ?_⟩, _, rfl⟩
  · exact (counted_slot i a hi).1.trans (counted_slot j b hj).1.symm
  · obtain ⟨_, hid, hcls, hrefs⟩ := counted_slot i b h
    refine ⟨by rw [hcls]; decide, ?_⟩
    rw [hid, hrefs]; decide +kernel
  · have : counted.play.cmu.evacSlot = none := by decide +kernel
    rw [this] at h; cases h
  · have : counted.cfl.image = some station9 := by decide +kernel
    rw [this] at h; cases h; exact no_evac_trigger
  · have : counted.cfl.config = none := by decide +kernel
    rw [this] at h; cases h

/-! ### The clauses added after the second review -/

theorem hyp_CallSetCreates_malformed :
    run.TakesFrame toAll ∧ run.Quiet ∧ key.kind ≤ 1 ∧ run.checkKey { key with code := 0x314132000000 } = none ∧
      run.checkKey { key with day := 7 } = none ∧ platformOk 0 = false ∧ platformOk 49 = false ∧
      run.checkKey key = some (.dep, 0) ∧ checkFields .dep 0 { fields with booked := 2880 } = none ∧
      checkFields .dep 0 { fields with booked := -1441 } = none ∧
      (⟨key, 12, some { fields with booked := 2880 }⟩ : CallPlatformFrame).complete = some { fields with booked := 2880 } := by
  unfold State.TakesFrame State.Quiet; decide +kernel

/-- A booked time of 1440 minutes on the day after the station's is 2880 after its alignment, one past the range (R7). -/
theorem hyp_CallSetCreates_alignment :
    run.sck.state ≠ .unset ∧ (5 : Day) = run.sck.day ∧ (6 : Day) = run.sck.day + 1 ∧ (4 : Day) + 1 = run.sck.day ∧
      ((7 : Day) ≠ run.sck.day ∧ (7 : Day) ≠ run.sck.day + 1 ∧ (7 : Day) + 1 ≠ run.sck.day) ∧ State.reset.sck.state = .unset ∧
      (0 : Day) = 65535 + 1 ∧ checkFields .dep 1440 { fields with booked := 1440 } = none ∧
      (checkFields .dep 1440 { fields with booked := 1439 }).isSome = true ∧
      checkFields .dep (-1440) { fields with booked := -1 } = none ∧
      (checkFields .dep (-1440) { fields with booked := 0 }).isSome = true := by decide +kernel

/-- 10:30 and 9:30 lie 1800 s from 10:00 (R19). -/
theorem hyp_ApproachEdges_picked :
    run.near 1800000 { call with expected := 630 } = true ∧ run.near 1800000 { call with expected := 631 } = false ∧
      run.near 1800000 { call with expected := 570 } = true ∧ run.near 1800000 { call with expected := 569 } = false ∧
      State.reset.near 1800000 { call with expected := 2879 } = true ∧
      (withCall run call).earliest (fun r => r.kind = .dep) = some (0, call) ∧ run.earliest (fun _ => true) = none := by decide +kernel

/-- The day after an instant's is at most 32767 days ahead (R92); 23:59:58 and 2000 ms are the start of the next day (R118). -/
theorem hyp_WaitingInstants_reached :
    run.env.reached ⟨5, 36000000⟩ = true ∧ run.env.reached ⟨5, 36000001⟩ = false ∧ run.env.reached ⟨4, 86399999⟩ = true ∧
      run.env.reached ⟨6, 0⟩ = false ∧ run.env.reached ⟨5 - 32767, 0⟩ = true ∧ run.env.reached ⟨5 - 32768, 0⟩ = false ∧
      State.reset.env.reached ⟨0, 0⟩ = false ∧
      ({ run with sck := { run.sck with day := 6, time := 0 } } : State).env.syncMissed
        { entry .queued with sync := some ⟨5, 86398000⟩, mustSync := true } = true := by decide +kernel

theorem hyp_AnnounceSettles_slots :
    run.play.cmu.freeSlot = some 0 ∧ (withChannel run id).play.cmu.freeSlot = some 1 ∧
      ({ run.play.cmu with slots := Vector.replicate 32 (some ⟨⟨9, 5⟩, .service, .own, none, none, [.phrase 7], 1⟩) } :
        Composition).freeSlot = none := by decide +kernel

/-- Zone 22 with an entry that sounds and one of station 3 that waits. -/
def soundsAndWaits : State :=
  withQueue run [entry .rendering, { entry .queued with id := ⟨3, 8⟩, origin := .remote 3, order := 1 }]

/-- A request for the entries of SERVICE and below in zone 22. -/
def dropService : WithdrawFrame := ⟨4, 0, 0, 0, 1#64 <<< 22, 2⟩

theorem hyp_WithdrawalsSettle_selected :
    soundsAndWaits.TakesFrame toAll ∧ soundsAndWaits.Quiet ∧ toAll.src ≠ soundsAndWaits.cfl.own ∧ withdrawOk dropService = true ∧
      (∀ o, ((soundsAndWaits.play.zone o).queue.map (·.id)).Nodup) ∧
      (∀ o, ∀ en ∈ (soundsAndWaits.play.zone o).queue, withdrawSelects dropService (soundsAndWaits.play.zone o).id en = true ∧
        (en.sounding = true ∨ en.state = .queued ∧ soundsAndWaits.play.hasRequest o (.body en.id) = false)) ∧
      soundsAndWaits.play.net.lki.queue.length + 1 < 16 ∧ soundsAndWaits.play.zpc.counts.withdrawn ≤ 65535 := by
  unfold State.TakesFrame State.Quiet; decide +kernel

/-- The clock with a beacon of station 2 heard at an elapsed time. -/
def heard2 (at_ : Nat) : State := run.onSck fun c => { c with heard := upd c.heard 2 fun _ => some at_, selected := some 2 }

/-- An address heard 2999 ms ago is live, and one heard 3000 ms ago is not (R29). -/
theorem hyp_BeaconTime_sources :
    run.TakesFrame toAll ∧ 36001000 < 86400000 ∧ toAll.src < 31 ∧ 1 ≤ toAll.src ∧
      (∀ b : Fin 31, 1 ≤ b.val → b < 3 → b.val ≠ toAll.src ∧ run.sck.heard.get b = none) ∧ (3 : Fin 31).val = toAll.src ∧
      (heard2 1097).TakesFrame toAll ∧ (heard2 1097).sck.heard.get 2 = some 1097 ∧ run.elapsed < 1097 + 3000 ∧
      (∀ b : Fin 31, 1 ≤ b.val → b < 2 → b.val ≠ toAll.src ∧ (heard2 1097).sck.heard.get b = none) ∧
      (2 : Fin 31).val ≠ toAll.src ∧ (heard2 1096).sck.heard.get 2 = some 1096 ∧ 1096 + 3000 ≤ run.elapsed := by
  unfold State.TakesFrame; decide +kernel

theorem hyp_OwnerMapTakesBeacon_only :
    run.TakesFrame toAll ∧ run.Quiet ∧ 86400000 ≤ 86400000 := by
  unfold State.TakesFrame State.Quiet; decide +kernel

theorem hyp_CallMovesOrCancels_rows :
    (∀ st ∈ [CallState.cancelled, .departed, .complete], (withCall run { call with state := st }).TakesFrame toAll ∧
        (withCall run { call with state := st }).Quiet ∧
        (withCall run { call with state := st }).checkKey key = some (.dep, 0) ∧
        (withCall run { call with state := st }).ctb.find key.code .dep = some (0, { call with state := st })) ∧
      platformOk 12 = true ∧ platformOk 13 = true ∧ run.env.covers 12 = true ∧ run.env.covers 13 = false ∧
      12 = call.platform ∧ 12 ≠ { call with platform := 1 }.platform ∧ run.ctb.find key.code .dep = none ∧
      (⟨key, 12, none⟩ : CallPlatformFrame).complete = none := by
  unfold State.TakesFrame State.Quiet; decide +kernel

/-- Two minutes are the requalify threshold of station 9 (R4). -/
theorem hyp_CallMovesAndReturns_stale :
    (withCall run call).TakesFrame toAll ∧ key.kind ≤ 1 ∧ (withCall run call).checkKey key = some (.dep, 0) ∧
      (withCall run call).cfl.image = some station9 ∧ (withCall run call).ctb.find key.code .dep = some (0, call) ∧
      call.state.live = true ∧ clampInt (-60) 720 2 ≠ call.delay ∧
      station9.requalify ≤ (expectedTime call.booked (clampInt (-60) 720 2) - call.qualified).natAbs ∧
      platformOk 12 = true ∧ checkFields .dep 0 { fields with delay := 2 } = some { fields with delay := 2 } ∧
      run.env.covers 12 = true ∧ station9.requalify ≤ (expectedTime 610 2 - call.qualified).natAbs := by
  unfold State.TakesFrame; decide +kernel

/-- 1A23 at platform 12, whose occupancy input has been clear for 2 s. -/
def leaving : State := withInput (withCall run { call with state := .atPlatform }) .occupancy false (some true)

theorem hyp_CallMovesAndReturns_leaves :
    leaving.cfl.load = .running ∧ leaving.ctb.KeysDistinct ∧ 12 ∈ leaving.platformsOf .occupancy 0 ∧
      (leaving.ctb.occupancy.get 0).raw = false ∧ (leaving.ctb.occupancy.get 0).level = some true ∧
      (leaving.ctb.occupancy.get 0).since + 2000 ≤ leaving.elapsed ∧
      leaving.ctb.places.get 0 = .held { call with state := .atPlatform } ∧ call.platform = 12 := by
  refine ⟨by decide +kernel, fun i j a b hi hj _ _ => ?_, by decide +kernel, by decide +kernel, by decide +kernel,
    by decide +kernel, by decide +kernel, by decide +kernel⟩
  have h : ∀ k : Fin 96, k ≠ 0 → leaving.ctb.places.get k = .free := by decide +kernel
  have z : ∀ (k : Fin 96) (x : CallRec), leaving.ctb.places.get k = .held x → k = 0 := by
    intro k x hk
    by_contra hne
    rw [h k hne] at hk; cases hk
  rw [z i a hi, z j b hj]

/-- Station 9 without triggers, holding 1A23 and the origination of (9, 7). -/
def untriggered : State :=
  withOrig (withCall { run with cfl := { run.cfl with image := some { station9 with triggers := [] } } } call)

theorem hyp_FullTableSettled_withdrawn :
    run.env.load = .running ∧ ([orig7].map (·.id)).Nodup ∧ (∀ x ∈ [orig7], ∃ z ∈ x.zones, z.outcome.final = false) ∧
      (withOrig run).play.net.lki.queue.length + 1 ≤ 16 ∧ (withOrig run).play.net.pau.counts.withdrawSent ≤ 65535 ∧
      untriggered.TakesFrame toAll ∧ untriggered.Quiet ∧ untriggered.triggers = [] ∧
      untriggered.checkKey key = some (.dep, 0) ∧ untriggered.ctb.find key.code .dep = some (0, call) ∧
      call.state.live = true := by
  unfold State.TakesFrame State.Quiet; decide +kernel

theorem hyp_WindowsMeasure_judged :
    run.elapsed % 128 = 0 ∧ 0 < run.elapsed ∧ run.play.lvc.windowAt ≠ run.elapsed ∧
      ∃ t, exec .retireSecond run = .next t := ⟨by decide +kernel, by decide +kernel, by decide +kernel, _, rfl⟩

/-- Output 2 as a line, and the zone of output 2 FAULTED or not. -/
def withLine (l : Line) (faulted : Bool) : State :=
  run.onPlay fun _ p => (p.onLine 2 fun _ => l).onZone 2 fun z => { z with faulted := faulted }

/-- A supervised line in a status, with two words of a class taken before. -/
def lineAfter (st : LineStatus) (c : LineClass) : Line :=
  { Line.reset with supervised := true, status := st, candidate := some c, run := 2 }

theorem hyp_SupervisionActs_faults :
    ∀ x ∈ [(LineClass.short, (⟨true, 39, 0⟩ : SupWord), LineStatus.short), (.opened, ⟨true, 901, 0⟩, .opened),
        (.leak, ⟨true, 100, 201⟩, .leak), (.ok, ⟨true, 100, 200⟩, .ok)],
      ((withLine (lineAfter .unknown x.1) true).play.lineAt 2).supervised = true ∧ x.2.1.checkOk = true ∧
      (((withLine (lineAfter .unknown x.1) true).play.lineAt 2).takeWord x.2.1).status = x.2.2 ∧
      x.2.2 ≠ ((withLine (lineAfter .unknown x.1) true).play.lineAt 2).status ∧
      ((withLine (lineAfter .unknown x.1) true).play.zone 2).faulted = true ∧
      (∀ en ∈ ((withLine (lineAfter .unknown x.1) true).play.zone 2).queue, en.sounding = false) ∧
      ((withLine (lineAfter .unknown x.1) false).play.zone 2).faulted = false := by decide +kernel

theorem hyp_SupervisionActs_lost :
    ((withLine { lineAfter .short .short with missed := 2 } true).play.lsu.cycles + 1) * 2000 ≤ run.elapsed ∧
      (withLine { lineAfter .short .short with missed := 2 } true).play.lsu.missed ≤ 65535 ∧
      ((withLine { lineAfter .short .short with missed := 2 } true).play.lineAt 2).wordTaken = false ∧
      ((withLine { lineAfter .short .short with missed := 2 } true).play.lineAt 2).status ≠ .unknown ∧
      ((withLine { lineAfter .short .short with missed := 2 } true).play.zone 2).faulted = true ∧
      ((withLine { lineAfter .short .short with missed := 2 } true).play.zone 2).queue = [] ∧
      run.env.zoneCfg 2 = some zone22 ∧ run.env.zoneCfg 0 = none := by decide +kernel

/-- REDIRECTED to zone 63 adds it; zone 30 is in the list already, and 64 names no zone (R111). -/
theorem hyp_ZoneReportsApply_outcomes :
    (withOrig run).TakesFrame toAll ∧ (withOrig run).Quiet ∧ 9 = (withOrig run).cfl.own ∧
      ((withOrig run).play.net.pau.table.map (·.id)).Nodup ∧ orig7 ∈ (withOrig run).play.net.pau.table ∧
      orig7.id = ⟨9, 7⟩ ∧ (∃ z ∈ orig7.zones, z.outcome.final = false) ∧ (orig7.zones.map (·.zone)).Nodup ∧
      (⟨30, some 4, .pending⟩ : OrigZone) ∈ orig7.zones ∧ Outcome.pending.final = false ∧
      (∀ x ∈ orig7.zones, x.zone ≠ 63) ∧ (∃ x ∈ orig7.zones, x.zone = 30) ∧ ¬ (64 ≤ 63) ∧ (∀ z ∈ orig7.zones, z.zone ≠ 31) ∧
      (∃ z ∈ orig7Done.zones, z.outcome.final = false) ∧ (⟨29, some 4, .done⟩ : OrigZone) ∈ orig7Done.zones ∧
      Outcome.done.final = true := by
  unfold State.TakesFrame State.Quiet; decide +kernel

theorem hyp_ZoneReportsApply_several :
    (peers7.table.map (·.id)).Nodup ∧ (peers7.zoneReport 9 4 ⟨9, 7, [⟨30, 1, 0⟩]⟩).find ⟨9, 7⟩ ≠ none := by decide +kernel

theorem hyp_LoadingSettles_running :
    (∀ s ∈ [headed, { State.reset with cfl := { State.reset.cfl with config := some (.accepted station9 3) } }],
        s.cfl.load = .loading ∧ s.cfl.image = none ∧ s.sck.quiet = false ∧
        (∀ o, (s.play.zone o).id = none ∧ (s.play.zone o).survey = false ∧ (s.play.zone o).queue = []) ∧
        s.play.net.pau.outbox = [] ∧ s.play.net.pau.held = [] ∧ s.play.net.lki.queue = [] ∧ s.play.evl.active = false) ∧
      headed.cfl.headerDone = true ∧ headed.cfl.config = none ∧
      (∃ image n, loadImage (some plainImage) = .accepted image n) ∧
      station9.zones.find? (fun z => z.output = 2) = some zone22 ∧ station9.zones.find? (fun z => z.output = 0) = none := ⟨by decide +kernel, by decide +kernel, by decide +kernel, plainImage_accepted, by decide +kernel, by decide +kernel⟩

/-- A request of trigger 0 for zones, with a template of station 9. -/
def requestFor (template : Nat) (zones : ZoneSet) : Request :=
  ⟨0, template, .service, call, zones, ⟨5, 36000000⟩, 600000, false⟩

/-- A body of no entry. -/
def idleBody (cls : AnnClass) (i : Nat) : Body := ⟨⟨9, i + 100⟩, cls, .own, none, none, [.phrase 7], 0⟩

/-- A store whose 32 slots are held: slot 0 by the INFO body of one entry that waits in zone 22, the others at a class. -/
def fullStore (cls : AnnClass) : State :=
  withQueue (run.onPlay fun _ p => { p with cmu := { p.cmu with
    slots := mapIdx p.cmu.slots fun i _ =>
      some (if i = 0 then { idleBody .info 0 with refs := 1 } else idleBody cls i.val)
    order := List.finRange 32 } }) [{ entry .queued with id := ⟨9, 100⟩, cls := .info }]

theorem hyp_CompositionSettles :
    (1 ≤ run.play.cmu.nextSeq ∧ run.play.cmu.nextSeq ≤ 2047 ∧ run.play.net.pau.table.length ≤ 16) ∧
      (run.play.expandRequest run.env (requestFor 5 0)).1 = [] ∧
      ((fullStore .service).play.expandRequest run.env { requestFor 0 0 with cls := .info }).1 ≠ [] ∧
      ((fullStore .service).play.expandRequest run.env { requestFor 0 0 with cls := .info }).2.cmu.freeSlot = none ∧
      ((fullStore .service).play.expandRequest run.env { requestFor 0 0 with cls := .info }).2.displacementVictim .info = none ∧
      (run.play.expandRequest run.env (requestFor 0 0)).2.cmu.freeSlot = some 0 ∧
      (((fullStore .service).play.expandRequest run.env (requestFor 0 0)).2.obtainSlot run.env .service).1 = some 0 := by decide +kernel

/-- Station 9 with an announcement sounding in zone 22, and a request for that zone on it. -/
def busy22 : Play := ((withQueue run [entry .rendering]).play.expandRequest run.env (requestFor 0 (1#64 <<< 22))).2

theorem hyp_CompositionSettles_offer :
    (requestFor 0 (1#64 <<< 22)).cls ≠ .evac ∧
      (∀ k, k < 64 → ((requestFor 0 (1#64 <<< 22)).zones.getLsbD k = true ↔ k = 22)) ∧ run.env.outOfZone 22 = some 2 ∧
      busy22.cmu.freeSlot = some 0 ∧ (busy22.zone 2).id.isSome = true ∧ (busy22.zone 2).faulted = false ∧
      (busy22.zone 2).survey = false ∧ (busy22.zone 2).queue = [entry .rendering] ∧
      classCode (entry .rendering).cls ≤ classCode (requestFor 0 (1#64 <<< 22)).cls ∧
      (entry .rendering).id ≠ ⟨9, busy22.nextSequence run.env⟩ ∧ busy22.nextSequence run.env ≤ 2047 ∧
      (∀ j, busy22.cmu.slots.get j = none) ∧ run.env.reached (instantOf 5 (36000000 + 600000)) = false ∧
      (∀ z, z < 64 → (requestFor 0 (1#64 <<< 30)).zones.getLsbD z = true → run.env.outOfZone z = none) := by decide +kernel

theorem fullStore_slot (i : Fin 32) (b : Body) (h : (fullStore .service).play.cmu.slots.get i = some b) :
    b = if i = 0 then { idleBody .info 0 with refs := 1 } else idleBody .service i.val := by
  have g : ∀ i : Fin 32, (fullStore .service).play.cmu.slots.get i =
      some (if i = 0 then { idleBody .info 0 with refs := 1 } else idleBody .service i.val) := by decide +kernel
  rw [g i] at h
  exact (Option.some.inj h).symm

theorem hyp_CompositionSettles_displaces :
    (fullStore .service).RefsCounted ∧ (fullStore .service).play.cmu.freeSlot = none ∧
      (fullStore .service).play.displacementVictim .service = some { idleBody .info 0 with refs := 1 } ∧
      (fullStore .service).play.cmu.slots.get 0 = some { idleBody .info 0 with refs := 1 } ∧
      (fullStore .service).play.zpc.counts.displaced ≤ 65535 := by
  refine ⟨⟨by decide +kernel, fun i j a b hi hj h => ?_, fun i b h => ?_, by decide +kernel, fun b h => ?_,
    fun _ => by decide +kernel, by decide +kernel, by decide +kernel, fun i h => ?_, fun i n h => ?_⟩,
    by decide +kernel, by decide +kernel, by decide +kernel, by decide +kernel⟩
  · have g : ∀ i j : Fin 32, (if i = 0 then { idleBody .info 0 with refs := 1 } else idleBody .service i.val).id =
        (if j = 0 then { idleBody .info 0 with refs := 1 } else idleBody .service j.val).id → i = j := by decide +kernel
    rw [fullStore_slot i a hi, fullStore_slot j b hj] at h
    exact g i j h
  · rw [fullStore_slot i b h]
    clear h
    revert i; decide +kernel
  · have : (fullStore .service).play.cmu.evacSlot = none := by decide +kernel
    rw [this] at h; cases h
  · have : (fullStore .service).cfl.image = some station9 := by decide +kernel
    rw [this] at h; cases h; exact no_evac_trigger
  · have : (fullStore .service).cfl.config = none := by decide +kernel
    rw [this] at h; cases h

/-- What is handed to be originated: an announcement for zones. -/
def sending (zones : List Nat) : SendRequest :=
  ⟨⟨9, 1⟩, .service, none, none, 5, 36600000, none, [.phrase 7], zones⟩

theorem hyp_CompositionSettles_originates :
    (ownedBy ⟨4, 1097, true⟩).pau.owners.get 30 = some ⟨4, 1097, true⟩ ∧ run.elapsed < 1097 + 3000 ∧ 1096 + 3000 ≤ run.elapsed ∧
      (ownedBy ⟨4, 1097, true⟩).pau.counts.noOwner ≤ 65535 ∧ (ownedBy ⟨4, 1097, true⟩).pau.counts.dropped ≤ 65535 ∧
      ((sending [30]).zones.map fun z => (ownedBy ⟨4, 1097, true⟩).pau.settleZone run.elapsed .service z).filter
        (fun z => z.outcome = .pending) = [] ∧
      ((sending [30, 31]).zones.map fun z => (ownedBy ⟨4, 1097, false⟩).pau.settleZone run.elapsed .service z).filter
        (fun z => z.outcome = .pending) = [⟨30, some 4, .pending⟩] ∧
      (ownedBy ⟨4, 1097, false⟩).pau.table.length < 16 ∧ 16 ≤ (List.replicate 16 orig7).length := by decide +kernel

/-! ### The clauses added after the third review -/

/-- A pending offset of 2101 ms is confirmed by one of 2001 ms (R31); 1000 ms of the next day follows 86,399,000 by 2000 ms. -/
theorem hyp_BeaconTime_second :
    (State.reset.sck.state = .unset ∧ (5 : Day) ≠ State.reset.sck.day) ∧ run.sck.state ≠ .unset ∧
      ((5 : Day) = run.sck.day ∧ ((36002000 : Int) - run.sck.time).natAbs ≤ 2000 ∧ 36002000 / 1000 ≠ run.sck.time / 1000 ∧
        36000999 / 1000 = run.sck.time / 1000) ∧
      (2000 < ((36002001 : Int) - run.sck.time).natAbs ∧
        ∃ q, (run.onSck fun c => { c with pendingStep := some ⟨3, 2101⟩ }).sck.pendingStep = some q ∧ q.address = 3 ∧
          ((36002001 : Int) - run.sck.time - q.offset).natAbs ≤ 100) ∧
      ((6 : Day) = run.sck.day + 1 ∧ (86400000 + ((1000 : Int) - 86399000)).natAbs ≤ 2000 ∧
        2000 < (86400000 + ((1001 : Int) - 86399000)).natAbs) ∧
      ((7 : Day) ≠ run.sck.day ∧ (7 : Day) ≠ run.sck.day + 1 ∧ (7 : Day) + 1 ≠ run.sck.day) ∧
      ((4 : Day) + 1 = run.sck.day ∧ -86400000 + ((86397999 : Int) - 0) < -2000 ∧
        0 < -86400000 + ((86399999 : Int) - (-2))) := by
  refine ⟨by decide +kernel, by decide +kernel, by decide +kernel, ⟨by decide +kernel, ⟨3, 2101⟩, by decide +kernel⟩,
    by decide +kernel, by decide +kernel, by decide +kernel⟩

/-- The entry of the announcement (9, s) made for 1A23. -/
def keyedEntry (s : Nat) (st : EntryState) : Entry :=
  { entry st with id := ⟨9, s⟩, key := some call.key, epoch := some 0, order := s }

/-- Zone 22 with an entry of 1A23 that sounds and one that waits, and an origination of 1A23. -/
def keyedQueue : State :=
  (withQueue run [keyedEntry 5 .rendering, keyedEntry 6 .queued]).onNet fun _ n => n.onPau fun p =>
    { p with table := [{ orig7 with key := some call.key, epoch := some 0 }] }

theorem hyp_OtherDayBeacon_clears :
    keyedQueue.sck.state ≠ .unset ∧ (7 : Day) ≠ keyedQueue.sck.day ∧ (7 : Day) ≠ keyedQueue.sck.day + 1 ∧
      (7 : Day) + 1 ≠ keyedQueue.sck.day ∧ (∀ o, ((keyedQueue.play.zone o).queue.map (·.id)).Nodup) ∧
      keyedQueue.play.zpc.counts.callEnded ≤ 65535 ∧ keyedEntry 6 .queued ∈ (keyedQueue.play.zone 2).queue ∧
      ((keyedEntry 6 .queued).origin = .own ∧ (keyedEntry 6 .queued).key.isSome = true ∧
        (keyedEntry 6 .queued).sounding = false) ∧ (keyedEntry 5 .rendering).sounding = true ∧
      keyedQueue.play.net.pau.table.map (·.key.isSome) = [true] := by decide +kernel

theorem hyp_AnnounceSettles_counts :
    run.TakesFrame toAll ∧ run.Quiet ∧ announceOk 3 announce3 = true ∧ announce3.libVersion = run.play.cfu.version ∧
      run.play.net.pau.counts.announceReceived = 0 := by
  unfold State.TakesFrame State.Quiet; decide +kernel

theorem hyp_FullTableSettled_fault :
    ∃ i old, (fullTable .departed).ctb.victim call = some (i, old) ∧
      ({ fullTable .departed with cfl := Loader.reset } : State).triggers = [] ∧
      ({ fullTable .departed with cfl := Loader.reset } : State).ctb.freePlace = none ∧
      (∃ k, (fullTable .departed).play.net.flt.records.get k = none) := ⟨0, _, rfl, by decide +kernel, by decide +kernel, 0, by decide +kernel⟩

/-- Evacuation active in a state. -/
def evacuating (s : State) : State := s.onPlay fun _ p => p.onEvl fun v => { v with active := true }

theorem hyp_RestartClears_evac :
    (∀ s ∈ [evacuating run, evacuating (withQueue run [entry .rendering])], s.TakesRequest toMe ∧
        s.play.restartInProgress = false ∧ s.play.evl.active = true) ∧
      (allOuts.any fun o => ((evacuating run).play.zone o).queue.any Entry.sounding) = false ∧
      (allOuts.any fun o => ((evacuating (withQueue run [entry .rendering])).play.zone o).queue.any Entry.sounding) = true ∧
      ((evacuating run).play.zone 2).id.isSome = true ∧ ((evacuating run).play.zone 0).id = none ∧
      ∀ o, ((evacuating run).play.zone o).faulted = false ∧ ((evacuating run).play.zone o).survey = false := by
  unfold State.TakesRequest State.Quiet; decide +kernel

theorem hyp_RestartClears_evacCounted :
    (evacuating run).RefsCounted := by
  refine ⟨by decide +kernel, fun i j a b hi _ _ => ?_, fun i b h => ?_, by decide +kernel, fun b h => ?_, fun _ => by decide +kernel,
    by decide +kernel, by decide +kernel, fun i h => ?_, fun i n h => ?_⟩
  · have g : ∀ i, (evacuating run).play.cmu.slots.get i = none := by decide +kernel
    rw [g i] at hi; cases hi
  · have g : ∀ i, (evacuating run).play.cmu.slots.get i = none := by decide +kernel
    rw [g i] at h; cases h
  · have : (evacuating run).play.cmu.evacSlot = none := by decide +kernel
    rw [this] at h; cases h
  · have : (evacuating run).cfl.image = some station9 := by decide +kernel
    rw [this] at h; cases h; exact no_evac_trigger
  · have : (evacuating run).cfl.config = none := by decide +kernel
    rw [this] at h; cases h

/-- Why an entry that a soft restart reached stops. -/
def restartCause : StopCause := { StopCause.clear with restart := true, drop := some .restart, atBlock := true }

/-- Evacuation active, with the one entry left sounding, which stops for a soft restart. -/
def lastStop : State := evacuating (fed (entry (.stopping restartCause)) midway)

theorem hyp_RestartClears_lastStop :
    lastStop.cfl.load = .running ∧ lastStop.play.evl.active = true ∧ lastStop.play.cmu.evacSlot = none ∧
      (lastStop.play.zone 2).queue = [entry (.stopping restartCause)] ∧ (∀ q, q ≠ 2 → (lastStop.play.zone q).queue = []) ∧
      restartCause.restart = true ∧ restartCause.drop.isSome = true ∧ 2 ∈ lastStop.play.stopDue lastStop.env 0 ∧
      (lastStop.play.zone 2).id.isSome = true ∧ (lastStop.play.zone 2).faulted = false := by decide +kernel

end Sys2Proof.Tests
end

section
/-! PROOFS. Which commands leave the surroundings (the clock, the loader, the elapsed time and the queue of commands) as
they were: the operations of the Call Table, the maintenance requests, and with them every command but those listed by
`Instr.changesSurroundings`. -/
namespace Sys2Proof

/-- The commands that can change the surroundings: the reset, the reads of LOADING, the beacon, the events of the Service
Clock, and RESTART with its count (R28 to R37, R186 to R191). -/
def Instr.changesSurroundings : Instr → Bool
  | .powerOnReset => true
  | .headerReadComplete _ => true
  | .headerReadTimeout => true
  | .configReadComplete _ => true
  | .configLoadTimeout => true
  | .beacon _ _ => true
  | .stationDayEnd => true
  | .wholeSecond => true
  | .heardEntryExpire _ => true
  | .holdoverTimeout => true
  | .quietHoursChange => true
  | .restart _ _ => true
  | _ => false

end Sys2Proof

namespace Sys2Proof.Machine

/-! ### Properties kept through guards and receiving -/

/-- What a guarded act keeps. -/
theorem State.when_keeps {P : State → Prop} {act : State → State} {s : State} {due : Bool} (hs : P s)
    (hact : due = true → P (act s)) : P (s.when due act) := by
  cases due with
  | false => exact hs
  | true => exact hact rfl

/-- What an act that RUNNING alone takes keeps. -/
theorem State.whenRunning_keeps {P : State → Prop} {act : State → State} {s : State} (hs : P s) (hact : P (act s)) :
    P (s.whenRunning act) := by
  unfold State.whenRunning
  split
  · exact hact
  · exact hs

/-- What receiving a frame keeps: what counting at the Link Interface keeps, and the act on a good frame (R179). -/
theorem State.receive_keeps {P : State → Prop} {act : State → State} {s : State} (env : Envelope) (ok : Bool)
    (hs : P s) (hlki : ∀ u f, P u → P (State.onLki u f)) (hact : ∀ u, P u → P (act u)) : P (s.receive env ok act) := by
  rcases State.receive_cases env ok act s with ⟨_, e⟩ | ⟨_, _, e⟩ | ⟨_, _, e⟩ <;> rw [e]
  · exact hlki _ _ hs
  · exact hlki _ _ hs
  · exact hact _ (hlki _ _ (hlki _ _ hs))

/-! ### Acts that keep the surroundings -/

/-- The act leaves the surroundings of every state as they were. -/
def KeepsSurroundings (act : State → State) : Prop := ∀ s : State, s.SameSurroundings (act s)

theorem KeepsSurroundings.onPlay (f : Env → Play → Play) : KeepsSurroundings fun s => s.onPlay f :=
  fun s => State.onPlay_same s f

theorem KeepsSurroundings.comp {f g : State → State} (hg : KeepsSurroundings g) (hf : KeepsSurroundings f) :
    KeepsSurroundings fun s => g (f s) := fun s => (hf s).trans (hg (f s))

theorem KeepsSurroundings.whenRunning {act : State → State} (h : KeepsSurroundings act) :
    KeepsSurroundings (State.whenRunning act) := fun s => State.whenRunning_keeps (State.SameSurroundings.refl s) (h s)

theorem KeepsSurroundings.when {act : State → State} (h : KeepsSurroundings act) (s : State) (due : Bool) :
    s.SameSurroundings (s.when due act) := State.when_keeps (State.SameSurroundings.refl s) fun _ => h s

theorem KeepsSurroundings.receive {act : State → State} (h : KeepsSurroundings act) (env : Envelope) (ok : Bool) :
    KeepsSurroundings (State.receive env ok act) := fun s =>
  State.receive_keeps env ok (State.SameSurroundings.refl s) (fun u _ hu => hu.trans (State.onPlay_same u _))
    fun u hu => hu.trans (h u)

theorem KeepsSurroundings.foldl {α : Type} {act : State → α → State} (h : ∀ a, KeepsSurroundings fun s => act s a)
    (l : List α) : KeepsSurroundings fun s => l.foldl act s := by
  induction l with
  | nil => exact State.SameSurroundings.refl
  | cons a rest ih => exact ih.comp (h a)

/-- The end of a command leaves the surroundings. -/
theorem State.SameSurroundings.finish {s t : State} (h : s.SameSurroundings t) : s.SameSurroundings t.finish :=
  h.trans (State.onPlay_same t _)

/-- The end of a command of a block boundary leaves the surroundings. -/
theorem State.SameSurroundings.finishBoundary {s t : State} (h : s.SameSurroundings t) :
    s.SameSurroundings t.finishBoundary := h.trans (State.onPlay_same t _)

/-! ### Call events (R14 to R17) -/

theorem State.callEvent_same (i : Fin 96) (ev : CallEvent) (changed : Bool) (platform : Nat) (platforms : List Nat) :
    KeepsSurroundings (State.callEvent i ev changed platform platforms) := by
  intro s
  unfold State.callEvent
  split
  · exact State.SameSurroundings.refl s
  · next r _ =>
    dsimp only
    have hr : s.SameSurroundings (if changed = true then s.onPlay fun e p =>
        p.removeCalls e (fun k ep => k = some r.key && ep ≠ some r.epoch) ev.stops else s) := by
      split
      · exact State.onPlay_same s _
      · exact State.SameSurroundings.refl s
    have hm := hr.trans (State.stateMatch_frame ev r platform platforms _).2
    split
    · exact hm.trans (State.onCtb_same _ _)
    · refine hm.trans (State.SameSurroundings.trans ?_ (State.evaluate_frame _ i).1)
      split
      · exact State.onCtb_same _ _
      · exact State.SameSurroundings.refl _

theorem State.raise_same (i : Fin 96) (r : CallRec) (ev : CallEvent) (changed : Bool) :
    KeepsSurroundings (State.raise i r ev changed) :=
  fun s => (State.onCtb_same s _).trans (State.callEvent_same _ _ _ _ _ _)

theorem State.alterAway_same (i : Fin 96) (old new : CallRec) : KeepsSurroundings (State.alterAway i old new) :=
  fun s => (State.onCtb_same s _).trans (State.callEvent_same _ _ _ _ _ _)

theorem State.move_same (i : Fin 96) (old new : CallRec) : KeepsSurroundings (State.move i old new) :=
  fun s => (State.onCtb_same s _).trans (State.callEvent_same _ _ _ _ _ _)

theorem State.retime_same (i : Fin 96) (r : CallRec) : KeepsSurroundings (State.retime i r) := by
  intro s
  unfold State.retime
  extract_lets threshold
  split
  · exact State.raise_same _ _ _ _ s
  · exact (State.onCtb_same s _).trans (State.evaluate_frame _ i).1

/-! ### Timetable frames (R8 to R13, R23) -/

theorem State.create_same (r : CallRec) : KeepsSurroundings (State.create r) := by
  intro s
  unfold State.create
  split
  · exact State.raise_same _ _ _ _ s
  · dsimp only
    split
    · exact (State.onPlay_same s _).trans (State.onCtb_same _ _)
    · exact ((State.onPlay_same s _).trans (State.onPlay_same _ _)).trans
        ((State.onCtb_same _ _).trans (State.raise_same _ _ _ _ _))

theorem State.applySet_same (kind : CallKind) (f : CallSetFrame) (fields : CallFields) :
    KeepsSurroundings (State.applySet kind f fields) := by
  intro s
  unfold State.applySet
  dsimp only
  split
  case h_1 =>
    split
    · exact State.create_same _ s
    · exact State.SameSurroundings.refl s
  case h_2 =>
    split
    case h_1 => exact State.onCtb_same s _
    case h_2 => exact State.onCtb_same s _
    case h_3 =>
      split
      · exact State.raise_same _ _ _ _ s
      · exact State.onCtb_same s _
    case h_4 =>
      split
      · exact State.alterAway_same _ _ _ s
      · split
        · exact State.move_same _ _ _ s
        · split
          · exact State.onCtb_same s _
          · exact State.retime_same _ _ s

theorem State.callSet_same (f : CallSetFrame) : KeepsSurroundings (State.callSet f) := by
  intro s
  unfold State.callSet
  split
  · exact State.onCtb_same s _
  · split
    · exact State.onCtb_same s _
    · split
      · exact State.onCtb_same s _
      · exact State.applySet_same _ _ _ s

theorem State.callDelay_same (f : CallDelayFrame) : KeepsSurroundings (State.callDelay f) := by
  intro s
  unfold State.callDelay
  split
  · exact State.onCtb_same s _
  · split
    · exact State.SameSurroundings.refl s
    · dsimp only
      split
      · exact State.onCtb_same s _
      · split
        · exact State.SameSurroundings.refl s
        · exact State.retime_same _ _ s

theorem State.applyPlatform_same (kind : CallKind) (f : CallPlatformFrame) (fields : Option CallFields) :
    KeepsSurroundings (State.applyPlatform kind f fields) := by
  intro s
  unfold State.applyPlatform
  dsimp only
  split
  case h_1 =>
    split
    · exact State.SameSurroundings.refl s
    · split
      · exact State.create_same _ s
      · exact State.onCtb_same s _
  case h_2 =>
    split
    case h_1 => exact State.onCtb_same s _
    case h_2 => exact State.onCtb_same s _
    case h_3 =>
      split
      · exact State.onCtb_same s _
      · split <;> exact State.onCtb_same s _
    case h_4 =>
      split
      · exact State.alterAway_same _ _ _ s
      · split
        · exact State.onCtb_same s _
        · exact State.move_same _ _ _ s

theorem State.callPlatform_same (f : CallPlatformFrame) : KeepsSurroundings (State.callPlatform f) := by
  intro s
  unfold State.callPlatform
  split
  · exact State.onCtb_same s _
  · split
    · exact State.onCtb_same s _
    · split
      · exact State.applyPlatform_same _ _ _ s
      · split
        · exact State.onCtb_same s _
        · exact State.applyPlatform_same _ _ _ s

theorem State.callCancel_same (f : CallKeyFields) : KeepsSurroundings (State.callCancel f) := by
  intro s
  unfold State.callCancel
  split
  · exact State.onCtb_same s _
  · split
    · exact State.SameSurroundings.refl s
    · split
      · exact State.SameSurroundings.refl s
      · exact State.onCtb_same s _
      · exact State.onCtb_same s _
      · exact State.raise_same _ _ _ _ s

/-! ### Berth inputs (R18 to R21) -/

theorem State.takeLevel_same (l : BerthLine) (i : Fin 8) (level : Bool) {act : State → Nat → State}
    (h : ∀ n, KeepsSurroundings fun s => act s n) : KeepsSurroundings (State.takeLevel l i level act) := by
  intro s
  unfold State.takeLevel
  dsimp only
  split
  · split
    · exact (State.onCtb_same s _).trans (KeepsSurroundings.foldl h _ _)
    · exact State.onCtb_same s _
  · exact State.SameSurroundings.refl s

theorem State.approachPlatform_same (n : Nat) : KeepsSurroundings fun s => s.approachPlatform n := by
  intro s
  dsimp only
  unfold State.approachPlatform
  split
  · exact State.raise_same _ _ _ _ s
  · exact State.onCtb_same s _

theorem State.atPlatform_same (i : Fin 96) (r : CallRec) : KeepsSurroundings (State.atPlatform i r) :=
  fun s => State.raise_same _ _ _ _ s

theorem State.occupyPlatform_same (n : Nat) : KeepsSurroundings fun s => s.occupyPlatform n := by
  intro s
  dsimp only
  unfold State.occupyPlatform
  split
  · next i r _ =>
    have harr := State.atPlatform_same i r s
    dsimp only
    split
    · exact harr
    · split
      · split
        · exact harr.trans (State.atPlatform_same _ _ _)
        · exact harr
      · exact harr
  · split
    · exact State.atPlatform_same _ _ s
    · exact State.onPlay_same s _

theorem State.leavePlatform_same (n : Nat) (i : Fin 96) : KeepsSurroundings fun s => s.leavePlatform n i := by
  intro s
  dsimp only
  unfold State.leavePlatform
  split
  · split
    · split <;> exact State.raise_same _ _ _ _ s
    · exact State.SameSurroundings.refl s
  · exact State.SameSurroundings.refl s

theorem State.vacatePlatform_same (n : Nat) : KeepsSurroundings fun s => s.vacatePlatform n :=
  KeepsSurroundings.foldl (State.leavePlatform_same n) allPlaces

/-! ### Frames discarded (R179) -/

theorem State.discard_same (raw : List Byte) : KeepsSurroundings (State.discard raw) := by
  intro s
  unfold State.discard
  split
  · exact State.SameSurroundings.refl s
  · exact (State.onPlay_same s _).trans (State.onPlay_same _ _)

/-! ### Maintenance requests (R195, R197, R198) -/

/-- What a request with one output comes to: a refusal that changes nothing, or what it does with the output. -/
theorem withOutput_keeps {P : State → Prop} {s : State} {f : Out → State → Settled} (args : List Byte) (hs : P s)
    (hf : ∀ o, P (f o s).state) : P (withOutput args f s).state := by
  unfold withOutput
  split
  · split
    · exact hf _
    · exact hs
  · exact hs

/-- What a request without arguments comes to: what it does, or a refusal that changes nothing. -/
theorem withNone_keeps {P : State → Prop} {s : State} {f : State → Settled} (args : List Byte) (hs : P s)
    (hf : P (f s).state) : P (withNone args f s).state := by
  unfold withNone
  split
  · exact hf
  · exact hs

theorem settleQueryCall_state (args : List Byte) (s : State) : (settleQueryCall args s).state = s := by
  unfold settleQueryCall
  dsimp only
  split
  · split <;> rfl
  · split <;> rfl
  · rfl

theorem settleQueryZone_state (args : List Byte) (s : State) : (settleQueryZone args s).state = s :=
  withOutput_keeps (P := (· = s)) args rfl fun _ => rfl

theorem settleQueryFault_state (args : List Byte) (s : State) : (settleQueryFault args s).state = s := by
  unfold settleQueryFault
  split
  · split <;> rfl
  · rfl

theorem settleQuerySurvey_state (args : List Byte) (s : State) : (settleQuerySurvey args s).state = s :=
  withOutput_keeps (P := (· = s)) args rfl fun _ => rfl

theorem settleQueryCounters_state (args : List Byte) (s : State) : (settleQueryCounters args s).state = s := by
  unfold settleQueryCounters
  split
  · split <;> rfl
  · rfl

theorem settleClearFault_same (args : List Byte) : KeepsSurroundings fun s => (settleClearFault args s).state := by
  intro s
  dsimp only
  unfold settleClearFault
  split
  · split
    · exact State.onPlay_same s _
    · split
      · exact State.onPlay_same s _
      · exact State.SameSurroundings.refl s
  · exact State.SameSurroundings.refl s

theorem settleSurveyStart_same (args : List Byte) : KeepsSurroundings fun s => (settleSurveyStart args s).state := by
  intro s
  refine withOutput_keeps args (State.SameSurroundings.refl s) fun o => ?_
  split
  · exact State.SameSurroundings.refl s
  · split <;> exact State.onPlay_same s _

theorem settleSurveyAbort_same (args : List Byte) : KeepsSurroundings fun s => (settleSurveyAbort args s).state :=
  fun s => withOutput_keeps args (State.SameSurroundings.refl s) fun _ => State.onPlay_same s _

theorem settleLimitSet_same (args : List Byte) : KeepsSurroundings fun s => (settleLimitSet args s).state := by
  intro s
  dsimp only
  unfold settleLimitSet
  dsimp only
  split
  · split
    · exact State.SameSurroundings.refl s
    · split
      · exact State.SameSurroundings.refl s
      · exact State.onPlay_same s _
  · exact State.SameSurroundings.refl s

theorem settleLimitLock_same (args : List Byte) : KeepsSurroundings fun s => (settleLimitLock args s).state :=
  fun s => withNone_keeps args (State.SameSurroundings.refl s) (State.onPlay_same s _)

theorem settleRestart_same (args : List Byte) : KeepsSurroundings fun s => (settleRestart args s).state := by
  intro s
  refine withNone_keeps args (State.SameSurroundings.refl s) ?_
  split
  · exact State.SameSurroundings.refl s
  · exact State.onPlay_same s _

/-- A request whose settling leaves the surroundings leaves them: its reply is queued at the Link Interface (R197). -/
theorem KeepsSurroundings.maint {settle : State → Settled} (h : KeepsSurroundings fun s => (settle s).state)
    (head : MaintHead) (code : Nat) : KeepsSurroundings (State.maint head code settle) := by
  refine KeepsSurroundings.receive (KeepsSurroundings.whenRunning fun s => ?_) head.env true
  split
  · exact State.SameSurroundings.refl s
  · exact (h s).trans (State.onPlay_same _ _)

/-- A query leaves the state as it was, and its reply leaves the surroundings. -/
theorem KeepsSurroundings.query {settle : State → Settled} (h : ∀ s, (settle s).state = s) (head : MaintHead)
    (code : Nat) : KeepsSurroundings (State.maint head code settle) :=
  KeepsSurroundings.maint (fun s => show s.SameSurroundings (settle s).state by rw [h s]; exact .refl s) head code

/-! ### The commands -/

/-- Every command but those that `Instr.changesSurroundings` lists completes and leaves the surroundings. -/
theorem exec_same (i : Instr) (s : State) (hi : i.changesSurroundings = false) :
    ∃ t, exec i s = .next t ∧ s.SameSurroundings t := by
  cases i with
  | powerOnReset | headerReadComplete | headerReadTimeout | configReadComplete | configLoadTimeout | beacon
  | stationDayEnd | wholeSecond | heardEntryExpire | holdoverTimeout | quietHoursChange | restart => cases hi
  | frameDiscard raw => exact ⟨_, rfl, (State.discard_same raw s).finish⟩
  | callSet env f => exact ⟨_, rfl, ((State.callSet_same f).whenRunning.receive _ _ s).finish⟩
  | callDelay env f => exact ⟨_, rfl, ((State.callDelay_same f).whenRunning.receive _ _ s).finish⟩
  | callPlatform env f => exact ⟨_, rfl, ((State.callPlatform_same f).whenRunning.receive _ _ s).finish⟩
  | callCancel env f => exact ⟨_, rfl, ((State.callCancel_same f).whenRunning.receive _ _ s).finish⟩
  | announce | zoneReport | withdraw | withdrawDone =>
    exact ⟨_, rfl, ((KeepsSurroundings.onPlay _).whenRunning.receive _ _ s).finish⟩
  | faultNoticeReceived | maintReplyReceived =>
    exact ⟨_, rfl, (KeepsSurroundings.receive State.SameSurroundings.refl _ _ s).finish⟩
  | queryCall _ args => exact ⟨_, rfl, (KeepsSurroundings.query (settleQueryCall_state args) _ _ s).finish⟩
  | queryZone _ args => exact ⟨_, rfl, (KeepsSurroundings.query (settleQueryZone_state args) _ _ s).finish⟩
  | queryFault _ args => exact ⟨_, rfl, (KeepsSurroundings.query (settleQueryFault_state args) _ _ s).finish⟩
  | querySurvey _ args => exact ⟨_, rfl, (KeepsSurroundings.query (settleQuerySurvey_state args) _ _ s).finish⟩
  | queryCounters _ args => exact ⟨_, rfl, (KeepsSurroundings.query (settleQueryCounters_state args) _ _ s).finish⟩
  | maintRequestUnknown => exact ⟨_, rfl, (KeepsSurroundings.query (fun _ => rfl) _ _ s).finish⟩
  | clearFault _ args => exact ⟨_, rfl, ((settleClearFault_same args).maint _ _ s).finish⟩
  | surveyStart _ args => exact ⟨_, rfl, ((settleSurveyStart_same args).maint _ _ s).finish⟩
  | surveyAbort _ args => exact ⟨_, rfl, ((settleSurveyAbort_same args).maint _ _ s).finish⟩
  | limitSet _ args => exact ⟨_, rfl, ((settleLimitSet_same args).maint _ _ s).finish⟩
  | limitLock _ args => exact ⟨_, rfl, ((settleLimitLock_same args).maint _ _ s).finish⟩
  | linkFrameBegin | transmitGapReached | frameSent | ownerEntryExpire | evacInputChange =>
    exact ⟨_, rfl, State.onPlay_same s _⟩
  | beaconDue | reportDeadline | originationExpire =>
    exact ⟨_, rfl, (KeepsSurroundings.onPlay _).when s _⟩
  | berthInputChange => exact ⟨_, rfl, State.onCtb_same s _⟩
  | approachAssert => exact ⟨_, rfl, (State.takeLevel_same _ _ _ State.approachPlatform_same s).finish⟩
  | approachClear => exact ⟨_, rfl, State.takeLevel_same _ _ _ (fun _ => State.SameSurroundings.refl) s⟩
  | occupancyAssert => exact ⟨_, rfl, (State.takeLevel_same _ _ _ State.occupyPlatform_same s).finish⟩
  | occupancyClear => exact ⟨_, rfl, (State.takeLevel_same _ _ _ State.vacatePlatform_same s).finish⟩
  | retireSecond =>
    exact ⟨_, rfl, KeepsSurroundings.when (fun u => State.onCtb_same u _) s _⟩
  | syncStartReached | blockReadComplete | directoryReadComplete | expiryReached | syncWindowClose
  | supervisionWord => exact ⟨_, rfl, (State.onPlay_same s _).finish⟩
  | channelStart | channelBlockAdvance | passEnd | stopPointReached =>
    exact ⟨_, rfl, (State.onPlay_same s _).finishBoundary⟩
  | windowEnd => exact ⟨_, rfl, ((KeepsSurroundings.onPlay _).when s _).finishBoundary⟩
  | supervisionCycleEnd | autoSurveyRetry | probeChannelTimeout | evacAssert | evacRelease =>
    exact ⟨_, rfl, ((KeepsSurroundings.onPlay _).when s _).finish⟩

@[simp] theorem Settled.reply_sck (r : Settled) (head : MaintHead) (code : Nat) :
    (r.reply head code).sck = r.state.sck := rfl

@[simp] theorem State.restartBlocks_sck (s : State) : s.restartBlocks.sck = s.sck := by
  simp [State.restartBlocks]

/-- RESTART leaves the clock: it changes the loader's count and the blocks other than the Service Clock (R191). -/
theorem State.restartRequest_sck (head : MaintHead) (args : List Byte) (s : State) :
    (s.restartRequest head args).sck = s.sck := by
  unfold State.restartRequest
  refine State.receive_keeps (P := fun u => u.sck = s.sck) _ _ rfl (fun _ _ hu => hu) fun u hu => ?_
  refine State.whenRunning_keeps (P := fun u => u.sck = s.sck) hu ?_
  split
  · exact hu
  · have hset : (settleRestart args u).state.sck = s.sck := (settleRestart_same args u).1.trans hu
    dsimp only
    split
    · rw [State.restartBlocks_sck, Settled.reply_sck, hset]
    · rw [Settled.reply_sck, hset]

end Sys2Proof.Machine
end

section
/-! PROOFS. What the acts of the Service Clock do to station time (R27 to R34), and that every step keeps it valid. -/
namespace Sys2Proof.Machine

/-! ### Clocks that agree in what validity reads -/

/-- The clock's state, time, day and day end are the same; the sources and signals may differ. -/
structure Clock.SameTime (c d : Clock) : Prop where
  state : d.state = c.state
  time : d.time = c.time
  day : d.day = c.day
  dayEndDue : d.dayEndDue = c.dayEndDue

theorem Clock.SameTime.refl (c : Clock) : c.SameTime c := ⟨rfl, rfl, rfl, rfl⟩

theorem Clock.SameTime.valid {c d : Clock} (h : c.SameTime d) (hc : c.Valid) : d.Valid := by
  obtain ⟨hstate, htime, hday, hdue⟩ := h
  simpa only [Clock.Valid, hstate, htime, hday, hdue] using hc

theorem Clock.valid_of_set {c : Clock} (hs : c.state ≠ .unset) (ht : c.time < dayMs) : c.Valid :=
  ⟨ht, fun h => absurd h hs⟩

theorem Clock.reset_valid : Clock.reset.Valid := ⟨by decide, fun _ => ⟨rfl, rfl, rfl⟩⟩

/-- Selecting the source afresh leaves station time (R29). -/
theorem Clock.reselect_sameTime (c : Clock) (elapsed : Nat) : c.SameTime (c.reselect elapsed) := ⟨rfl, rfl, rfl, rfl⟩

/-- A millisecond keeps the clock valid: time is held at the last one of the day until STATION_DAY_END (R28). -/
theorem Clock.tick_valid {c : Clock} (h : c.Valid) : c.tick.Valid := by
  unfold Clock.tick
  split
  · exact h
  · next hs =>
    split
    · exact Clock.valid_of_set hs h.1
    · next ht => exact Clock.valid_of_set hs (Nat.lt_of_not_le ht)

/-! ### Signals (R35, R37) -/

theorem State.settleQuiet_sameTime (s : State) : s.sck.SameTime s.settleQuiet.sck := by
  unfold State.settleQuiet
  dsimp only
  split
  · exact Clock.SameTime.refl _
  · split <;> exact ⟨rfl, rfl, rfl, rfl⟩

theorem State.wholeSecond_sameTime (s : State) : s.sck.SameTime s.wholeSecond.sck := by
  have heval := (State.evaluateAll_frame (s.onSck fun c => { c with secondDue := false })).1.1
  unfold State.wholeSecond
  rw [State.onPlay_sck, heval]
  exact ⟨rfl, rfl, rfl, rfl⟩

theorem State.secondAfter_sameTime (old : Clock) (s : State) : s.sck.SameTime (s.secondAfter old).sck := by
  unfold State.secondAfter
  split
  · exact Clock.SameTime.refl _
  · exact s.wholeSecond_sameTime

/-! ### Beacons (R29 to R32) -/

@[simp] theorem State.reportStep_sck (src : Nat) (s : State) : (s.reportStep src).sck = s.sck := rfl

@[simp] theorem State.rollOver_sck (s : State) : s.rollOver.sck = s.sck := by
  simp [State.rollOver]

@[simp] theorem State.clearTable_sck (s : State) : s.clearTable.sck = s.sck := by
  simp [State.clearTable]

/-- Applying a time within the day gives a valid clock, whatever it was (R30). -/
theorem State.setTime_valid (day : Day) {time : Nat} (ht : time < dayMs) (s : State) : (s.setTime day time).sck.Valid :=
  (State.settleQuiet_sameTime _).valid (Clock.valid_of_set (by simp) ht)

theorem State.sameDayBeacon_valid (src : Nat) {time : Nat} (ht : time < dayMs) {s : State} (h : s.sck.Valid) :
    (s.sameDayBeacon src time).sck.Valid := by
  have hset := s.setTime_valid s.sck.day ht
  have hold : ∀ q, (s.onSck fun c => { c with pendingStep := q }).sck.Valid := fun _ => h
  unfold State.sameDayBeacon
  dsimp only
  split
  · exact (State.secondAfter_sameTime _ _).valid hset
  · split
    · exact hold _
    · split
      · exact (State.secondAfter_sameTime _ _).valid hset
      · exact hold _

theorem State.otherDayBeacon_valid (src : Nat) (day : Day) {time : Nat} (ht : time < dayMs) {s : State}
    (h : s.sck.Valid) : (s.otherDayBeacon src day time).sck.Valid := by
  have hset := s.setTime_valid day ht
  unfold State.otherDayBeacon
  dsimp only
  split
  · exact Clock.valid_of_set (by simp) h.1
  · split
    · refine (State.secondAfter_sameTime _ _).valid ?_
      rw [State.rollOver_sck]
      split
      · exact hset
      · rwa [State.reportStep_sck]
    · refine (State.secondAfter_sameTime _ _).valid ?_
      rwa [State.clearTable_sck, State.onPlay_sck, State.reportStep_sck]

theorem State.sourceBeacon_valid (src : Nat) {f : BeaconFrame} (ht : f.time < dayMs) {s : State} (h : s.sck.Valid) :
    (s.sourceBeacon src f).sck.Valid := by
  unfold State.sourceBeacon
  dsimp only
  split
  · exact (State.secondAfter_sameTime _ _).valid (State.setTime_valid _ ht _)
  · split
    · exact State.sameDayBeacon_valid src ht h
    · exact State.otherDayBeacon_valid src _ ht h

/-- A beacon keeps the clock valid: one whose time lies outside a day is not used (R29). -/
theorem State.timeBeacon_valid (src : Nat) (f : BeaconFrame) {s : State} (h : s.sck.Valid) :
    (s.timeBeacon src f).sck.Valid := by
  unfold State.timeBeacon
  split
  · next hf =>
    obtain ⟨_, ht, _⟩ := hf
    extract_lets u
    have hu : u.sck.Valid := (Clock.reselect_sameTime _ _).valid h
    split
    · exact State.sourceBeacon_valid src ht hu
    · exact hu
  · exact h

/-! ### As time runs (R28, R29, R33) -/

/-- The end of the day comes in a clock that is set, and leaves it valid at time 0 (R28). -/
theorem State.dayEnd_valid {s : State} (h : s.sck.Valid) (hdue : s.sck.dayEndDue = true) : s.dayEnd.sck.Valid := by
  have hset : s.sck.state ≠ .unset := fun hu => by
    obtain ⟨_, _, hnone⟩ := h.2 hu
    simp [hnone] at hdue
  exact (State.wholeSecond_sameTime _).valid (Clock.valid_of_set hset (Nat.succ_pos _))

theorem State.expireHeard_sameTime (a : Fin 31) (s : State) : s.sck.SameTime (s.expireHeard a).sck :=
  ⟨rfl, rfl, rfl, rfl⟩

theorem State.holdover_valid {s : State} (h : s.sck.Valid) : s.holdover.sck.Valid :=
  Clock.valid_of_set (by simp [State.holdover]) h.1

/-! ### Start-up (R188 to R190) -/

/-- Entry to RUNNING leaves station time: it settles the quiet-hours signal (R37, R189). -/
theorem State.enterRunning_sameTime (image : Image) (n : Nat) (s : State) :
    s.sck.SameTime (s.enterRunning image n).sck := by
  unfold State.enterRunning
  extract_lets u v w
  exact w.settleQuiet_sameTime

theorem State.leaveLoading_sameTime (s : State) : s.sck.SameTime s.leaveLoading.sck := by
  rcases s.leaveLoading_cases with ⟨image, n, _, _, _, e⟩ | ⟨cause, _, _, _, e⟩ | ⟨_, e⟩ <;> rw [e]
  · exact s.enterRunning_sameTime image n
  · exact Clock.SameTime.refl _
  · exact Clock.SameTime.refl _

theorem State.leaveLoading_sameTime_of_sck {s t : State} (h : t.sck = s.sck) : s.sck.SameTime t.leaveLoading.sck :=
  h ▸ t.leaveLoading_sameTime

theorem State.settleHeader_sameTime (header : Option LibHeader) (s : State) :
    s.sck.SameTime (s.settleHeader header).sck := by
  unfold State.settleHeader
  split
  · exact State.leaveLoading_sameTime_of_sck rfl
  · exact Clock.SameTime.refl _

theorem State.settleConfig_sameTime (r : ConfigResult) (s : State) : s.sck.SameTime (s.settleConfig r).sck := by
  unfold State.settleConfig
  split
  · exact State.leaveLoading_sameTime_of_sck rfl
  · exact Clock.SameTime.refl _

/-! ### Steps -/

theorem State.when_keeps_clock_valid {act : State → State} {s : State} {due : Bool} (h : s.sck.Valid)
    (hact : due = true → (act s).sck.Valid) : (s.when due act).sck.Valid :=
  State.when_keeps (P := fun u => u.sck.Valid) h hact

/-- A command that leaves the surroundings leaves the clock as it was. -/
theorem exec_keeps_clock_valid_of_same {i : Instr} {s : State} (hi : i.changesSurroundings = false)
    (h : s.sck.Valid) : ∃ t, exec i s = .next t ∧ t.sck.Valid := by
  obtain ⟨t, e, hsck, _⟩ := exec_same i s hi
  exact ⟨t, e, hsck ▸ h⟩

/-- Every command keeps the clock valid. -/
theorem exec_keeps_clock_valid (i : Instr) {s : State} (h : s.sck.Valid) : ∃ t, exec i s = .next t ∧ t.sck.Valid := by
  cases i with
  | powerOnReset => exact ⟨_, rfl, Clock.reset_valid⟩
  | headerReadComplete r => exact ⟨_, rfl, (State.settleHeader_sameTime r s).valid h⟩
  | headerReadTimeout =>
    exact ⟨_, rfl, State.when_keeps_clock_valid h fun _ => (State.settleHeader_sameTime _ s).valid h⟩
  | configReadComplete r => exact ⟨_, rfl, (State.settleConfig_sameTime _ s).valid h⟩
  | configLoadTimeout =>
    exact ⟨_, rfl, State.when_keeps_clock_valid h fun _ => (State.settleConfig_sameTime _ s).valid h⟩
  | beacon env f =>
    refine ⟨_, rfl, State.receive_keeps (P := fun u => u.sck.Valid) _ _ h (fun _ _ hu => hu) fun u hu => ?_⟩
    have hb := State.timeBeacon_valid env.src f hu
    exact State.whenRunning_keeps (P := fun u => u.sck.Valid) hb hb
  | stationDayEnd =>
    exact ⟨_, rfl, State.when_keeps_clock_valid h (State.dayEnd_valid h)⟩
  | wholeSecond =>
    exact ⟨_, rfl, State.when_keeps_clock_valid h fun _ => s.wholeSecond_sameTime.valid h⟩
  | heardEntryExpire a =>
    exact ⟨_, rfl, State.when_keeps_clock_valid h fun _ => (s.expireHeard_sameTime a).valid h⟩
  | holdoverTimeout =>
    exact ⟨_, rfl, State.when_keeps_clock_valid h fun _ => State.holdover_valid h⟩
  | quietHoursChange => exact ⟨_, rfl, s.settleQuiet_sameTime.valid h⟩
  | restart head args =>
    exact ⟨_, rfl, show (s.restartRequest head args).sck.Valid by rw [State.restartRequest_sck]; exact h⟩
  | _ => exact exec_keeps_clock_valid_of_same rfl h

/-- With no command waiting the clock stays valid: a due command is queued, or a millisecond passes. -/
theorem State.idle_keeps_clock_valid {s : State} (h : s.sck.Valid) : s.idle.sck.Valid := by
  unfold State.idle
  split
  · exact h
  · exact Clock.tick_valid h

/-- Settles O4: each command and each idle step keeps the clock valid. -/
theorem clockStaysValid : Obligations.ClockStaysValid := by
  intro s t h hstep
  unfold step at hstep
  split at hstep
  · next i rest _ =>
    obtain ⟨u, hu, hvalid⟩ := exec_keeps_clock_valid (s := { s with pending := rest }) i h
    cases hu.symm.trans hstep
    exact hvalid
  · cases hstep
    exact State.idle_keeps_clock_valid h

end Sys2Proof.Machine
end

section
/-! PROOFS. Reading the Call Table (R3, R19): which record a key finds, which place is free first, and which record is the
earliest. -/
namespace Sys2Proof.Machine

/-! ### First and best elements of an ordered list -/

/-- The first element that passes a test, in a list whose elements stand by ascending index. -/
theorem find?_eq_some_iff_of_ascending {α β : Type} [LinearOrder β] (index : α → β) (test : α → Bool) {l : List α}
    (hl : l.Pairwise fun a b => index a < index b) (b : α) :
    l.find? test = some b ↔ b ∈ l ∧ test b = true ∧ ∀ a ∈ l, index a < index b → test a = false := by
  induction l with
  | nil => simp
  | cons x rest ih =>
    obtain ⟨hx, hrest⟩ := List.pairwise_cons.mp hl
    rw [List.find?_cons]
    cases ht : test x with
    | true =>
      simp only [Option.some.injEq]
      constructor
      · rintro rfl
        refine ⟨List.mem_cons_self, ht, fun a ha hlt => ?_⟩
        rcases List.mem_cons.mp ha with rfl | ha
        · exact absurd hlt (lt_irrefl _)
        · exact absurd hlt (hx a ha).asymm
      · rintro ⟨hb, _, hfirst⟩
        rcases List.mem_cons.mp hb with rfl | hb
        · rfl
        · rw [hfirst x List.mem_cons_self (hx b hb)] at ht
          cases ht
    | false =>
      simp only [ih hrest, List.mem_cons, forall_eq_or_imp, ht, implies_true, true_and]
      constructor
      · rintro ⟨hb, hrest⟩
        exact ⟨Or.inr hb, hrest⟩
      · rintro ⟨rfl | hb, htest, hfirst⟩
        · rw [htest] at ht
          cases ht
        · exact ⟨hb, htest, hfirst⟩

@[simp] theorem pickBy_nil {α : Type} (better : α → α → Bool) : pickBy better [] = none := rfl

theorem pickBy_append_one {α : Type} (better : α → α → Bool) (l : List α) (x : α) :
    pickBy better (l ++ [x]) =
      (pickBy better l).elim (some x) fun b => if better x b then some x else some b := by
  unfold pickBy
  rw [List.foldl_append]
  generalize List.foldl _ none l = best
  cases best <;> rfl

theorem pickBy_eq_none_iff {α : Type} (better : α → α → Bool) (l : List α) : pickBy better l = none ↔ l = [] := by
  induction l using List.reverseRecOn with
  | nil => simp
  | append_singleton l x _ =>
    rw [pickBy_append_one]
    cases pickBy better l with
    | none => simp
    | some b => by_cases h : better x b = true <;> simp [h]

/-- The element picked has the least value, and the lowest index among those of that value. -/
theorem pickBy_least {α : Type} (index : α → Fin 96) {value : α → Int} {l : List α}
    (hl : l.Pairwise fun a b => index a < index b) {b : α}
    (h : pickBy (fun x y => value x < value y) l = some b) :
    b ∈ l ∧ ∀ x ∈ l, value b < value x ∨ value b = value x ∧ index b ≤ index x := by
  induction l using List.reverseRecOn generalizing b with
  | nil => cases h
  | append_singleton l y ih =>
    obtain ⟨hinit, _, hlast⟩ := List.pairwise_append.mp hl
    have hy : ∀ x ∈ l, index x < index y := fun x hx => hlast x hx y List.mem_cons_self
    rw [pickBy_append_one] at h
    cases hp : pickBy (fun x y => decide (value x < value y)) l with
    | none =>
      obtain rfl := (pickBy_eq_none_iff _ _).mp hp
      rw [hp] at h
      cases h
      simp
    | some a =>
      obtain ⟨ha, hbest⟩ := ih hinit hp
      simp only [hp, Option.elim_some, decide_eq_true_eq] at h
      split at h
      · next hlt =>
        cases h
        refine ⟨by simp, fun x hx => ?_⟩
        rcases List.mem_append.mp hx with hx | hx
        · exact Or.inl (by have := hbest x hx; omega)
        · rw [List.mem_singleton.mp hx]; exact Or.inr ⟨rfl, le_refl _⟩
      · next hge =>
        cases h
        refine ⟨List.mem_append_left _ ha, fun x hx => ?_⟩
        rcases List.mem_append.mp hx with hx | hx
        · exact hbest x hx
        · rw [List.mem_singleton.mp hx]
          have := hy _ ha
          omega

/-! ### Places and keys (R3) -/

/-- The records listed are those held, each with its place. -/
@[simp] theorem CallTable.mem_held {c : CallTable} {i : Fin 96} {r : CallRec} :
    (i, r) ∈ c.held ↔ c.places.get i = .held r := by
  simp only [CallTable.held, allPlaces, List.mem_filterMap, List.mem_finRange, true_and]
  constructor
  · rintro ⟨j, hj⟩
    cases h : c.places.get j <;> simp only [h, reduceCtorEq, Option.some.injEq, Prod.mk.injEq] at hj
    obtain ⟨rfl, rfl⟩ := hj
    exact h
  · intro h
    exact ⟨i, by simp only [h]⟩

/-- The held records stand by ascending place. -/
theorem CallTable.held_ascending (c : CallTable) : c.held.Pairwise fun a b => a.1 < b.1 := by
  refine List.Pairwise.filterMap _ (fun i j hij a ha b hb => ?_) (List.pairwise_lt_finRange 96)
  cases hi : c.places.get i <;> simp only [hi, reduceCtorEq, Option.some.injEq] at ha
  cases hj : c.places.get j <;> simp only [hj, reduceCtorEq, Option.some.injEq] at hb
  subst ha hb
  exact hij

/-- A key is found at the lowest place that holds it. -/
theorem CallTable.find_eq_some_iff (c : CallTable) (code : Code) (kind : CallKind) (i : Fin 96) (r : CallRec) :
    c.find code kind = some (i, r) ↔ c.places.get i = .held r ∧ r.code = code ∧ r.kind = kind ∧
      ∀ j x, j < i → c.places.get j = .held x → ¬ (x.code = code ∧ x.kind = kind) := by
  unfold CallTable.find
  rw [find?_eq_some_iff_of_ascending Prod.fst _ c.held_ascending]
  simp only [CallTable.mem_held, Bool.and_eq_true, decide_eq_true_eq, Bool.and_eq_false_iff, decide_eq_false_iff_not,
    Prod.forall, not_and_or, and_assoc]
  constructor <;> exact fun ⟨hi, hcode, hkind, hfirst⟩ => ⟨hi, hcode, hkind, fun j x a b => hfirst j x b a⟩

/-- A key is found nowhere exactly when no held record has it. -/
theorem CallTable.find_eq_none_iff (c : CallTable) (code : Code) (kind : CallKind) :
    c.find code kind = none ↔ ∀ i r, c.places.get i = .held r → ¬ (r.code = code ∧ r.kind = kind) := by
  simp [CallTable.find]

/-- The record that a key finds is held and has the key. -/
theorem CallTable.held_of_find {c : CallTable} {code : Code} {kind : CallKind} {i : Fin 96} {r : CallRec}
    (h : c.find code kind = some (i, r)) : c.places.get i = .held r ∧ r.code = code ∧ r.kind = kind := by
  obtain ⟨hheld, hcode, hkind, _⟩ := (c.find_eq_some_iff code kind i r).mp h
  exact ⟨hheld, hcode, hkind⟩

theorem CallTable.freePlace_eq_some_iff (c : CallTable) (i : Fin 96) :
    c.freePlace = some i ↔ c.places.get i = .free ∧ ∀ j, j < i → c.places.get j ≠ .free := by
  unfold CallTable.freePlace allPlaces
  rw [find?_eq_some_iff_of_ascending id _ (List.pairwise_lt_finRange 96)]
  simp

theorem CallTable.freePlace_eq_none_iff (c : CallTable) : c.freePlace = none ↔ ∀ i, c.places.get i ≠ .free := by
  simp [CallTable.freePlace, allPlaces]

@[simp] theorem CallTable.put_get_self (c : CallTable) (i : Fin 96) (q : Place) : (c.put i q).places.get i = q :=
  upd_get_self _ _ _

theorem CallTable.put_get_of_ne (c : CallTable) {i j : Fin 96} (q : Place) (h : j ≠ i) :
    (c.put i q).places.get j = c.places.get j := upd_get_of_ne _ _ _ _ h

theorem CallTable.mapHeld_get_of_held {c : CallTable} {i : Fin 96} {r : CallRec} (f : CallRec → Option CallRec)
    (h : c.places.get i = .held r) : (c.mapHeld f).places.get i = (f r).elim .free .held := by
  cases hf : f r <;> simp [CallTable.mapHeld, h, hf]

theorem CallTable.mapHeld_get_of_not_held {c : CallTable} {i : Fin 96} (f : CallRec → Option CallRec)
    (h : ∀ r, c.places.get i ≠ .held r) : (c.mapHeld f).places.get i = c.places.get i := by
  cases hq : c.places.get i with
  | free | leaving => simp [CallTable.mapHeld, hq]
  | held r => exact absurd hq (h r)

/-! ### The earliest record (R19, R20) -/

theorem State.earliest_candidates_ascending (s : State) (test : CallRec → Bool) :
    (s.ctb.held.filter fun x => test x.2).Pairwise fun a b => a.1 < b.1 := s.ctb.held_ascending.filter _

/-- None is picked exactly when no held record satisfies the test. -/
theorem State.earliest_eq_none_iff (s : State) (test : CallRec → Bool) :
    s.earliest test = none ↔ ∀ j x, s.ctb.places.get j = .held x → test x = false := by
  unfold State.earliest
  rw [pickBy_eq_none_iff]
  simp [List.filter_eq_nil_iff]

/-- The record picked satisfies the test, and none that does is expected earlier, or as early at a lower index. -/
theorem State.earliest_spec {s : State} {test : CallRec → Bool} {i : Fin 96} {r : CallRec}
    (h : s.earliest test = some (i, r)) : s.ctb.places.get i = .held r ∧ test r = true ∧
      ∀ j x, s.ctb.places.get j = .held x → test x = true →
        r.expected < x.expected ∨ r.expected = x.expected ∧ i ≤ j := by
  unfold State.earliest at h
  obtain ⟨hmem, hbest⟩ := pickBy_least Prod.fst (s.earliest_candidates_ascending test) h
  obtain ⟨hheld, htest⟩ := List.mem_filter.mp hmem
  exact ⟨CallTable.mem_held.mp hheld, htest, fun j x hj hx =>
    hbest (j, x) (List.mem_filter.mpr ⟨CallTable.mem_held.mpr hj, hx⟩)⟩

/-- Which record is the earliest: there is one as soon as one satisfies the test, and two cannot be. -/
theorem State.earliest_eq_some_iff (s : State) (test : CallRec → Bool) (i : Fin 96) (r : CallRec) :
    s.earliest test = some (i, r) ↔ s.ctb.places.get i = .held r ∧ test r = true ∧
      ∀ j x, s.ctb.places.get j = .held x → test x = true →
        r.expected < x.expected ∨ r.expected = x.expected ∧ i ≤ j := by
  refine ⟨State.earliest_spec, fun ⟨hi, hr, hbest⟩ => ?_⟩
  cases h : s.earliest test with
  | none =>
    rw [(s.earliest_eq_none_iff test).mp h i r hi] at hr
    cases hr
  | some y =>
    obtain ⟨j, x⟩ := y
    obtain ⟨hj, hx, hbest'⟩ := State.earliest_spec h
    have hij : j = i := by
      have h1 := hbest j x hj hx
      have h2 := hbest' i r hi hr
      omega
    subst hij
    rw [hi] at hj
    cases hj
    rfl

end Sys2Proof.Machine
end

section
/-! PROOFS. No two held records have the same key (R3): a record keeps the key it was created with, and one is created
only where no held record has its key. -/
namespace Sys2Proof.Machine

/-! ### Tables whose records keep their keys -/

/-- Every record held afterwards has the key of the record that its place held before. -/
def CallTable.KeepsKeys (c d : CallTable) : Prop :=
  ∀ i b, d.places.get i = .held b → ∃ a, c.places.get i = .held a ∧ a.code = b.code ∧ a.kind = b.kind

theorem CallTable.KeepsKeys.refl (c : CallTable) : c.KeepsKeys c := fun _ b h => ⟨b, h, rfl, rfl⟩

theorem CallTable.KeepsKeys.of_eq {c d : CallTable} (h : d = c) : c.KeepsKeys d := h ▸ .refl c

theorem CallTable.KeepsKeys.trans {c d e : CallTable} (h : c.KeepsKeys d) (k : d.KeepsKeys e) : c.KeepsKeys e := by
  intro i x hx
  obtain ⟨b, hb, hcode, hkind⟩ := k i x hx
  obtain ⟨a, ha, hcode', hkind'⟩ := h i b hb
  exact ⟨a, ha, hcode'.trans hcode, hkind'.trans hkind⟩

theorem CallTable.KeysDistinct.kept {c d : CallTable} (hc : c.KeysDistinct) (h : c.KeepsKeys d) : d.KeysDistinct := by
  intro i j a b ha hb hcode hkind
  obtain ⟨a', ha', hac, hak⟩ := h i a ha
  obtain ⟨b', hb', hbc, hbk⟩ := h j b hb
  exact hc i j a' b' ha' hb' (by rw [hac, hbc, hcode]) (by rw [hak, hbk, hkind])

/-- A table in which every place but one stands, and that one holds no record but of its own key, keeps its keys. -/
theorem CallTable.KeepsKeys.of_place {c d : CallTable} (i : Fin 96) (ho : ∀ j, j ≠ i → d.places.get j = c.places.get j)
    (hi : ∀ b, d.places.get i = .held b → ∃ a, c.places.get i = .held a ∧ a.code = b.code ∧ a.kind = b.kind) :
    c.KeepsKeys d := by
  intro j b hb
  by_cases hj : j = i
  · subst hj
    exact hi b hb
  · exact ⟨b, (ho j hj).symm.trans hb, rfl, rfl⟩

theorem CallTable.put_free_keeps_keys (c : CallTable) (i : Fin 96) : c.KeepsKeys (c.put i .free) :=
  .of_place i (fun _ hj => c.put_get_of_ne _ hj) fun b hb => by simp at hb

theorem CallTable.put_held_keeps_keys {c : CallTable} {i : Fin 96} {a r : CallRec} (h : c.places.get i = .held a)
    (hcode : a.code = r.code) (hkind : a.kind = r.kind) : c.KeepsKeys (c.put i (.held r)) := by
  refine .of_place i (fun _ hj => c.put_get_of_ne _ hj) fun b hb => ?_
  rw [CallTable.put_get_self] at hb
  cases hb
  exact ⟨a, h, hcode, hkind⟩

/-- A change of the held records that leaves their keys, or removes them. -/
theorem CallTable.mapHeld_keeps_keys (c : CallTable) {f : CallRec → Option CallRec}
    (hf : ∀ r x, f r = some x → r.code = x.code ∧ r.kind = x.kind) : c.KeepsKeys (c.mapHeld f) := by
  intro i b hb
  cases hq : c.places.get i with
  | free | leaving =>
    rw [CallTable.mapHeld_get_of_not_held f (by simp [hq]), hq] at hb
    cases hb
  | held r =>
    rw [CallTable.mapHeld_get_of_held f hq] at hb
    cases hx : f r with
    | none => simp [hx] at hb
    | some x =>
      simp only [hx, Option.elim_some, Place.held.injEq] at hb
      subst hb
      exact ⟨r, rfl, hf r x hx⟩

/-- A record of a key that no held record has joins a table of distinct keys. -/
theorem CallTable.KeysDistinct.join {c d : CallTable} (hc : c.KeysDistinct) {i : Fin 96} {r : CallRec}
    (hnew : ∀ j a, c.places.get j = .held a → ¬ (a.code = r.code ∧ a.kind = r.kind))
    (hi : ∃ fired, d.places.get i = .held { r with fired := fired })
    (ho : ∀ j, j ≠ i → d.places.get j = c.places.get j) : d.KeysDistinct := by
  obtain ⟨fired, hi⟩ := hi
  have hother : ∀ j b, j ≠ i → d.places.get j = .held b → ¬ (b.code = r.code ∧ b.kind = r.kind) :=
    fun j b hj hb => hnew j b ((ho j hj).symm.trans hb)
  intro j k a b ha hb hcode hkind
  by_cases hj : j = i <;> by_cases hk : k = i
  · exact hj.trans hk.symm
  · subst hj
    rw [hi] at ha
    cases ha
    exact absurd ⟨hcode.symm, hkind.symm⟩ (hother k b hk hb)
  · subst hk
    rw [hi] at hb
    cases hb
    exact absurd ⟨hcode, hkind⟩ (hother j a hj ha)
  · exact hc j k a b ((ho j hj).symm.trans ha) ((ho k hk).symm.trans hb) hcode hkind

/-! ### Call events (R14 to R17) -/

/-- An event raised for a record of the key that its place holds. -/
theorem State.raise_keeps_keys {s : State} {i : Fin 96} {a r : CallRec} {ev : CallEvent} {changed : Bool}
    (he : ev ≠ .alteredAway) (h : s.ctb.places.get i = .held a) (hcode : a.code = r.code) (hkind : a.kind = r.kind) :
    s.ctb.KeepsKeys (s.raise i r ev changed).ctb := by
  obtain ⟨⟨fired, hi⟩, ho, _⟩ := State.raise_frame i r ev changed s he
  refine .of_place i ho fun b hb => ?_
  rw [hi] at hb
  cases hb
  exact ⟨a, h, hcode, hkind⟩

theorem State.alterAway_keeps_keys (i : Fin 96) (old new : CallRec) (s : State) :
    s.ctb.KeepsKeys (s.alterAway i old new).ctb := by
  obtain ⟨hi, ho, _⟩ := State.alterAway_frame i old new s
  exact .of_place i ho fun b hb => by rw [hi] at hb; cases hb

/-- What a move to another covered platform leaves (R5, R15). -/
theorem State.move_frame (i : Fin 96) (old new : CallRec) (s : State) :
    (∃ fired, (s.move i old new).ctb.places.get i =
      .held { (new.enter .booked s.env.now).nextEpoch with fired := fired }) ∧
    (∀ j, j ≠ i → (s.move i old new).ctb.places.get j = s.ctb.places.get j) ∧
    s.ctb.SameInputs (s.move i old new).ctb ∧ (s.move i old new).ctb.counts = s.ctb.counts ∧
    s.SameSurroundings (s.move i old new) := by
  have hp : (s.onCtb fun c => c.put i (.held (new.enter .booked s.env.now).nextEpoch)).ctb.places.get i =
    .held (new.enter .booked s.env.now).nextEpoch := CallTable.put_get_self _ _ _
  obtain ⟨hi, ho, hin, hcounts, hsame⟩ := State.callEvent_frame hp .platformChanged true
    (new.enter .booked s.env.now).nextEpoch.platform [old.platform, (new.enter .booked s.env.now).nextEpoch.platform]
    (by decide)
  exact ⟨hi, fun j hj => (ho j hj).trans (CallTable.put_get_of_ne _ _ hj), hin, hcounts,
    (State.onCtb_same s _).trans hsame⟩

theorem State.move_keeps_keys {s : State} {i : Fin 96} {a old new : CallRec} (h : s.ctb.places.get i = .held a)
    (hcode : a.code = new.code) (hkind : a.kind = new.kind) :
    s.ctb.KeepsKeys (s.move i old new).ctb := by
  obtain ⟨⟨fired, hi⟩, ho, _⟩ := State.move_frame i old new s
  refine .of_place i ho fun b hb => ?_
  rw [hi] at hb
  cases hb
  exact ⟨a, h, hcode, hkind⟩

theorem State.evaluate_keeps_keys (s : State) (i : Fin 96) : s.ctb.KeepsKeys (s.evaluate i).ctb := by
  obtain ⟨_, _, _, ho⟩ := State.evaluate_frame s i
  refine .of_place i ho fun b hb => ?_
  by_cases h : ∃ r, s.ctb.places.get i = .held r
  · obtain ⟨r, hr⟩ := h
    obtain ⟨hctb, _⟩ := State.evaluate_held hr
    rw [hctb] at hb
    simp only [upd_get_self, Place.held.injEq] at hb
    subst hb
    exact ⟨r, hr, rfl, rfl⟩
  · rw [State.evaluate_other fun r hr => h ⟨r, hr⟩] at hb
    exact ⟨b, hb, rfl, rfl⟩

theorem State.retime_keeps_keys {s : State} {i : Fin 96} {a r : CallRec} (h : s.ctb.places.get i = .held a)
    (hcode : a.code = r.code) (hkind : a.kind = r.kind) : s.ctb.KeepsKeys (s.retime i r).ctb := by
  unfold State.retime
  extract_lets threshold
  split
  · exact State.raise_keeps_keys (r := r.nextEpoch) (by decide) h hcode hkind
  · exact (CallTable.put_held_keeps_keys h hcode hkind).trans (State.evaluate_keeps_keys _ i)

theorem State.evaluateAll_keeps_keys (s : State) : s.ctb.KeepsKeys s.evaluateAll.ctb := by
  obtain ⟨_, _, _, hheld, hother⟩ := State.evaluateAll_frame s
  intro i b hb
  by_cases h : ∃ r, s.ctb.places.get i = .held r
  · obtain ⟨r, hr⟩ := h
    obtain ⟨fired, hf⟩ := hheld i r hr
    rw [hf] at hb
    cases hb
    exact ⟨r, hr, rfl, rfl⟩
  · rw [hother i fun r hr => h ⟨r, hr⟩] at hb
    exact ⟨b, hb, rfl, rfl⟩

/-! ### Creation (R8, R23) -/

/-- What installing a new record leaves (R8, R12). -/
theorem State.install_frame (i : Fin 96) (r : CallRec) (s : State) :
    (∃ fired, (s.install i r).ctb.places.get i = .held { r with fired := fired }) ∧
    (∀ j, j ≠ i → (s.install i r).ctb.places.get j = s.ctb.places.get j) ∧
    s.ctb.SameInputs (s.install i r).ctb ∧ (s.install i r).ctb.counts = s.ctb.counts ∧
    s.SameSurroundings (s.install i r) := by
  refine State.raise_frame i r _ false s ?_
  split <;> decide

theorem State.create_keys_distinct {s : State} (h : s.ctb.KeysDistinct) {r : CallRec}
    (hnew : s.ctb.find r.code r.kind = none) : (s.create r).ctb.KeysDistinct := by
  have hnone := (CallTable.find_eq_none_iff _ _ _).mp hnew
  unfold State.create
  split
  · next i _ =>
    obtain ⟨hi, ho, _⟩ := State.install_frame i r s
    exact h.join hnone hi ho
  · dsimp only
    split
    · exact h
    · next i old _ =>
      obtain ⟨hi, ho, _⟩ := State.install_frame i r
        (((s.onPlay fun e p => p.fault e .callTableFull r.platform).onPlay fun e p =>
          p.removeCalls e (fun k _ => k = some old.key) false).countCtb fun c => { c with evicted := bump c.evicted })
      exact h.join hnone hi ho

/-! ### Timetable frames (R8 to R13) -/

theorem State.applySet_keys_distinct {s : State} (h : s.ctb.KeysDistinct) (kind : CallKind) (f : CallSetFrame)
    (fields : CallFields) : (s.applySet kind f fields).ctb.KeysDistinct := by
  unfold State.applySet
  dsimp only
  split
  case h_1 hfind =>
    split
    · exact State.create_keys_distinct h hfind
    · exact h
  case h_2 i r hfind =>
    obtain ⟨hheld, _, _⟩ := CallTable.held_of_find hfind
    split
    case h_1 => exact h
    case h_2 => exact h
    case h_3 =>
      split
      · exact h.kept (State.raise_keeps_keys (by decide) hheld rfl rfl)
      · exact h.kept (CallTable.put_free_keeps_keys _ i)
    case h_4 =>
      split
      · exact h.kept (State.alterAway_keeps_keys i r _ s)
      · split
        · exact h.kept (State.move_keeps_keys hheld rfl rfl)
        · split
          · exact h.kept (CallTable.put_held_keeps_keys hheld rfl rfl)
          · exact h.kept (State.retime_keeps_keys hheld rfl rfl)

theorem State.callSet_keys_distinct {s : State} (h : s.ctb.KeysDistinct) (f : CallSetFrame) :
    (s.callSet f).ctb.KeysDistinct := by
  unfold State.callSet
  split
  · exact h
  · split
    · exact h
    · split
      · exact h
      · exact State.applySet_keys_distinct h _ f _

theorem State.callDelay_keys_distinct {s : State} (h : s.ctb.KeysDistinct) (f : CallDelayFrame) :
    (s.callDelay f).ctb.KeysDistinct := by
  unfold State.callDelay
  split
  · exact h
  · split
    · exact h
    · next hfind =>
      obtain ⟨hheld, _, _⟩ := CallTable.held_of_find hfind
      dsimp only
      split
      · exact h
      · split
        · exact h
        · exact h.kept (State.retime_keeps_keys hheld rfl rfl)

theorem State.applyPlatform_keys_distinct {s : State} (h : s.ctb.KeysDistinct) (kind : CallKind)
    (f : CallPlatformFrame) (fields : Option CallFields) : (s.applyPlatform kind f fields).ctb.KeysDistinct := by
  unfold State.applyPlatform
  dsimp only
  split
  case h_1 hfind =>
    split
    · exact h
    · split
      · exact State.create_keys_distinct h hfind
      · exact h
  case h_2 i r hfind =>
    obtain ⟨hheld, _, _⟩ := CallTable.held_of_find hfind
    split
    case h_1 => exact h
    case h_2 => exact h
    case h_3 =>
      split
      · exact h.kept (CallTable.put_free_keeps_keys _ i)
      · split
        · exact h
        · exact h.kept (CallTable.put_held_keeps_keys hheld rfl rfl)
    case h_4 =>
      split
      · exact h.kept (State.alterAway_keeps_keys i r _ s)
      · split
        · exact h
        · exact h.kept (State.move_keeps_keys hheld rfl rfl)

theorem State.callPlatform_keys_distinct {s : State} (h : s.ctb.KeysDistinct) (f : CallPlatformFrame) :
    (s.callPlatform f).ctb.KeysDistinct := by
  unfold State.callPlatform
  split
  · exact h
  · split
    · exact h
    · split
      · exact State.applyPlatform_keys_distinct h _ f _
      · split
        · exact h
        · exact State.applyPlatform_keys_distinct h _ f _

theorem State.callCancel_keys_distinct {s : State} (h : s.ctb.KeysDistinct) (f : CallKeyFields) :
    (s.callCancel f).ctb.KeysDistinct := by
  unfold State.callCancel
  split
  · exact h
  · split
    · exact h
    · next hfind =>
      obtain ⟨hheld, _, _⟩ := CallTable.held_of_find hfind
      split
      · exact h
      · exact h
      · exact h
      · exact h.kept (State.raise_keeps_keys (by decide) hheld rfl rfl)

/-! ### Berth inputs (R18 to R21) -/

/-- A change of a berth input leaves every place. -/
@[simp] theorem CallTable.onInput_places (c : CallTable) (l : BerthLine) (i : Fin 8) (f : Debounce → Debounce) :
    (c.onInput l i f).places = c.places := by
  cases l <;> rfl

theorem CallTable.onInput_keeps_keys (c : CallTable) (l : BerthLine) (i : Fin 8) (f : Debounce → Debounce) :
    c.KeepsKeys (c.onInput l i f) := fun j b hb => ⟨b, by rwa [CallTable.onInput_places] at hb, rfl, rfl⟩

/-- An act on each element of a list keeps the keys when each act does. -/
theorem foldl_keeps_keys {α : Type} {act : State → α → State}
    (h : ∀ (s : State) a, s.ctb.KeepsKeys (act s a).ctb) (l : List α) (s : State) : s.ctb.KeepsKeys (l.foldl act s).ctb := by
  induction l generalizing s with
  | nil => exact .refl _
  | cons a rest ih => exact (h s a).trans (ih _)

theorem State.takeLevel_keeps_keys {act : State → Nat → State}
    (h : ∀ (s : State) n, s.ctb.KeepsKeys (act s n).ctb) (l : BerthLine) (i : Fin 8) (level : Bool) (s : State) : s.ctb.KeepsKeys (s.takeLevel l i level act).ctb := by
  have hinput := CallTable.onInput_keeps_keys s.ctb l i fun d => { d with level := some level }
  unfold State.takeLevel
  dsimp only
  split
  · split
    · exact hinput.trans (foldl_keeps_keys h _ _)
    · exact hinput
  · exact .refl _

theorem State.approachPlatform_keeps_keys (s : State) (n : Nat) : s.ctb.KeepsKeys (s.approachPlatform n).ctb := by
  unfold State.approachPlatform
  split
  · next hbest => exact State.raise_keeps_keys (by decide) (State.earliest_spec hbest).1 rfl rfl
  · exact .refl _

theorem State.atPlatform_keeps_keys {s : State} {i : Fin 96} {r : CallRec} (h : s.ctb.places.get i = .held r) :
    s.ctb.KeepsKeys (s.atPlatform i r).ctb := State.raise_keeps_keys (by decide) h rfl rfl

theorem State.occupyPlatform_keeps_keys (s : State) (n : Nat) : s.ctb.KeepsKeys (s.occupyPlatform n).ctb := by
  unfold State.occupyPlatform
  split
  · next i r hbest =>
    have harr := State.atPlatform_keeps_keys (State.earliest_spec hbest).1
    dsimp only
    split
    · exact harr
    · split
      · next hfind =>
        split
        · exact harr.trans (State.atPlatform_keeps_keys (CallTable.held_of_find hfind).1)
        · exact harr
      · exact harr
  · split
    · next hbest => exact State.atPlatform_keeps_keys (State.earliest_spec hbest).1
    · exact .refl _

theorem State.leavePlatform_keeps_keys (n : Nat) (s : State) (i : Fin 96) :
    s.ctb.KeepsKeys (s.leavePlatform n i).ctb := by
  unfold State.leavePlatform
  split
  · next hheld =>
    split
    · split <;> exact State.raise_keeps_keys (by decide) hheld rfl rfl
    · exact .refl _
  · exact .refl _

theorem State.vacatePlatform_keeps_keys (s : State) (n : Nat) : s.ctb.KeepsKeys (s.vacatePlatform n).ctb :=
  foldl_keeps_keys (State.leavePlatform_keeps_keys n) allPlaces s

/-! ### Retirement and day changes (R22, R24, R25) -/

/-- An elapsed second changes the held records, and the count of seconds (R22). -/
@[simp] theorem CallTable.second_places (c : CallTable) : c.second.places = (c.mapHeld CallRec.retire).places := by
  unfold CallTable.second
  dsimp only

theorem CallRec.retire_key {r x : CallRec} (h : r.retire = some x) : r.code = x.code ∧ r.kind = x.kind := by
  unfold CallRec.retire at h
  split at h
  · cases h; exact ⟨rfl, rfl⟩
  · split at h <;> cases h
    exact ⟨rfl, rfl⟩

theorem CallTable.second_keeps_keys (c : CallTable) : c.KeepsKeys c.second := by
  intro i b hb
  rw [CallTable.second_places] at hb
  exact c.mapHeld_keeps_keys (fun _ _ => CallRec.retire_key) i b hb

theorem State.onSecond_keeps_keys (s : State) : s.ctb.KeepsKeys (s.onCtb CallTable.second).ctb := by
  rw [State.onCtb_ctb]
  exact s.ctb.second_keeps_keys

theorem CallRec.rollOver_key {r x : CallRec} (h : r.rollOver = some x) : r.code = x.code ∧ r.kind = x.kind := by
  unfold CallRec.rollOver at h
  dsimp only at h
  split at h <;> cases h
  exact ⟨rfl, rfl⟩

theorem State.rollOver_keeps_keys (s : State) : s.ctb.KeepsKeys s.rollOver.ctb := by
  unfold State.rollOver
  rw [State.onCtb_ctb]
  exact s.ctb.mapHeld_keeps_keys fun _ _ => CallRec.rollOver_key

theorem State.wholeSecond_keeps_keys (s : State) : s.ctb.KeepsKeys s.wholeSecond.ctb := by
  unfold State.wholeSecond
  rw [State.onPlay_ctb]
  exact State.evaluateAll_keeps_keys (s.onSck fun c => { c with secondDue := false })

theorem State.secondAfter_keeps_keys (old : Clock) (s : State) : s.ctb.KeepsKeys (s.secondAfter old).ctb := by
  unfold State.secondAfter
  split
  · exact .refl _
  · exact s.wholeSecond_keeps_keys

/-- The end of the day rolls the table over, and the whole-second signal follows (R28, R34). -/
theorem State.dayEnd_keeps_keys (s : State) : s.ctb.KeepsKeys s.dayEnd.ctb := by
  have hset : s.ctb.KeepsKeys (s.onSck fun c => { c with time := 0, day := c.day + 1, dayEndDue := false }).ctb :=
    .of_eq (State.onSck_ctb _ _)
  unfold State.dayEnd
  exact hset.trans ((State.rollOver_keeps_keys _).trans (State.wholeSecond_keeps_keys _))

/-! ### Beacons and start-up, which leave the table or its keys (R29 to R32, R188 to R191) -/

@[simp] theorem State.settleQuiet_ctb (s : State) : s.settleQuiet.ctb = s.ctb := by
  unfold State.settleQuiet
  dsimp only
  split
  · rfl
  · split <;> simp

@[simp] theorem State.setTime_ctb (day : Day) (time : Nat) (s : State) : (s.setTime day time).ctb = s.ctb := by
  unfold State.setTime
  rw [State.settleQuiet_ctb, State.onSck_ctb]

@[simp] theorem State.reportStep_ctb (src : Nat) (s : State) : (s.reportStep src).ctb = s.ctb := by
  unfold State.reportStep
  rw [State.onPlay_ctb]

theorem State.secondAfter_keeps_keys_of_ctb {s t : State} (h : t.ctb = s.ctb) (old : Clock) :
    s.ctb.KeepsKeys (t.secondAfter old).ctb := (CallTable.KeepsKeys.of_eq h).trans (State.secondAfter_keeps_keys old t)

theorem State.sameDayBeacon_keeps_keys (src time : Nat) (s : State) :
    s.ctb.KeepsKeys (s.sameDayBeacon src time).ctb := by
  have hold : ∀ q, s.ctb.KeepsKeys (s.onSck fun c => { c with pendingStep := q }).ctb := fun _ => .of_eq (by simp)
  unfold State.sameDayBeacon
  dsimp only
  split
  · exact State.secondAfter_keeps_keys_of_ctb (by simp) _
  · split
    · exact hold _
    · split
      · exact State.secondAfter_keeps_keys_of_ctb (by simp) _
      · exact hold _

theorem State.otherDayBeacon_keeps_keys (src : Nat) (day : Day) (time : Nat) (s : State) :
    s.ctb.KeepsKeys (s.otherDayBeacon src day time).ctb := by
  unfold State.otherDayBeacon
  dsimp only
  split
  · exact .of_eq (by simp)
  · split
    · refine CallTable.KeepsKeys.trans ?_ ((State.rollOver_keeps_keys _).trans (State.secondAfter_keeps_keys _ _))
      split <;> exact .of_eq (by simp)
    · refine CallTable.KeepsKeys.trans (fun i b hb => ?_) (State.secondAfter_keeps_keys _ _)
      simp [State.clearTable] at hb

theorem State.sourceBeacon_keeps_keys (src : Nat) (f : BeaconFrame) (s : State) :
    s.ctb.KeepsKeys (s.sourceBeacon src f).ctb := by
  have hmark : (s.onSck fun c => { c with lastSource := some ⟨s.elapsed, src⟩ }).ctb = s.ctb := by simp
  unfold State.sourceBeacon
  dsimp only
  split
  · exact State.secondAfter_keeps_keys_of_ctb (by simp) _
  · split
    · exact (CallTable.KeepsKeys.of_eq hmark).trans (State.sameDayBeacon_keeps_keys _ _ _)
    · exact (CallTable.KeepsKeys.of_eq hmark).trans (State.otherDayBeacon_keeps_keys _ _ _ _)

theorem State.timeBeacon_keeps_keys (src : Nat) (f : BeaconFrame) (s : State) :
    s.ctb.KeepsKeys (s.timeBeacon src f).ctb := by
  unfold State.timeBeacon
  split
  · dsimp only
    split
    · exact State.sourceBeacon_keeps_keys src f _
    · exact .refl _
  · exact .refl _

theorem State.expireHeard_ctb (a : Fin 31) (s : State) : (s.expireHeard a).ctb = s.ctb := by
  unfold State.expireHeard
  rw [State.onSck_ctb]

theorem State.holdover_ctb (s : State) : s.holdover.ctb = s.ctb := by
  simp [State.holdover]

@[simp] theorem State.leaveLoading_ctb (s : State) : s.leaveLoading.ctb = s.ctb := by
  rcases s.leaveLoading_cases with ⟨image, n, _, _, _, e⟩ | ⟨cause, _, _, _, e⟩ | ⟨_, e⟩ <;> rw [e]
  · simp [State.enterRunning]
  · rfl

@[simp] theorem State.settleHeader_ctb (header : Option LibHeader) (s : State) :
    (s.settleHeader header).ctb = s.ctb := by
  unfold State.settleHeader
  split
  · simp
  · rfl

@[simp] theorem State.settleConfig_ctb (r : ConfigResult) (s : State) : (s.settleConfig r).ctb = s.ctb := by
  unfold State.settleConfig
  split
  · simp
  · rfl

/-! ### Maintenance requests, which leave the table unless they restart the part (R191, R197) -/

theorem settleClearFault_ctb (args : List Byte) (s : State) : (settleClearFault args s).state.ctb = s.ctb := by
  unfold settleClearFault
  split
  · split
    · rfl
    · split <;> rfl
  · rfl

theorem settleSurveyStart_ctb (args : List Byte) (s : State) : (settleSurveyStart args s).state.ctb = s.ctb := by
  refine withOutput_keeps (P := fun u => u.ctb = s.ctb) args rfl fun o => ?_
  split
  · rfl
  · split <;> rfl

theorem settleSurveyAbort_ctb (args : List Byte) (s : State) : (settleSurveyAbort args s).state.ctb = s.ctb :=
  withOutput_keeps (P := fun u => u.ctb = s.ctb) args rfl fun _ => rfl

theorem settleLimitSet_ctb (args : List Byte) (s : State) : (settleLimitSet args s).state.ctb = s.ctb := by
  unfold settleLimitSet
  dsimp only
  split
  · split
    · rfl
    · split <;> rfl
  · rfl

theorem settleLimitLock_ctb (args : List Byte) (s : State) : (settleLimitLock args s).state.ctb = s.ctb :=
  withNone_keeps (P := fun u => u.ctb = s.ctb) args rfl rfl

theorem settleRestart_ctb (args : List Byte) (s : State) : (settleRestart args s).state.ctb = s.ctb := by
  refine withNone_keeps (P := fun u => u.ctb = s.ctb) args rfl ?_
  split <;> rfl

/-- A request leaves the table when its settling does: receiving and answering it act on the link and the log alone. -/
theorem State.maint_ctb {settle : State → Settled} (h : ∀ s, (settle s).state.ctb = s.ctb) (head : MaintHead)
    (code : Nat) (s : State) : (s.maint head code settle).ctb = s.ctb := by
  refine State.receive_keeps (P := fun u => u.ctb = s.ctb) _ _ rfl (fun _ _ hu => hu) fun u hu => ?_
  refine State.whenRunning_keeps (P := fun u => u.ctb = s.ctb) hu ?_
  split
  · exact hu
  · exact (h u).trans hu

theorem State.maint_query_ctb {settle : State → Settled} (h : ∀ s, (settle s).state = s) (head : MaintHead)
    (code : Nat) (s : State) : (s.maint head code settle).ctb = s.ctb :=
  State.maint_ctb (fun u => by rw [h u]) head code s

theorem State.restartRequest_keeps_keys (head : MaintHead) (args : List Byte) (s : State) :
    s.ctb.KeepsKeys (s.restartRequest head args).ctb := by
  refine State.receive_keeps (P := fun u => s.ctb.KeepsKeys u.ctb) _ _ (.refl _) (fun _ _ hu => hu) fun u hu => ?_
  refine State.whenRunning_keeps (P := fun u => s.ctb.KeepsKeys u.ctb) hu ?_
  split
  · exact hu
  · have hset : s.ctb.KeepsKeys (settleRestart args u).state.ctb := settleRestart_ctb args u ▸ hu
    dsimp only
    split
    · exact hset.trans (fun i b hb => by simp [State.restartBlocks] at hb)
    · exact hset

/-! ### The commands -/

@[simp] theorem State.finish_ctb (s : State) : s.finish.ctb = s.ctb := by
  unfold State.finish
  rw [State.onPlay_ctb]

@[simp] theorem State.finishBoundary_ctb (s : State) : s.finishBoundary.ctb = s.ctb := by
  unfold State.finishBoundary
  rw [State.onPlay_ctb]

/-- The end of a command leaves the table. -/
theorem CallTable.KeysDistinct.finish {s : State} (h : s.ctb.KeysDistinct) : s.finish.ctb.KeysDistinct := by
  rwa [State.finish_ctb]

theorem CallTable.KeysDistinct.onPlay {s : State} (h : s.ctb.KeysDistinct) (f : Env → Play → Play) :
    (s.onPlay f).ctb.KeysDistinct := by
  rwa [State.onPlay_ctb]

theorem CallTable.KeysDistinct.receive {act : State → State} {s : State} (h : s.ctb.KeysDistinct)
    (hact : ∀ u : State, u.ctb.KeysDistinct → (act u).ctb.KeysDistinct) (env : Envelope) (ok : Bool) :
    (s.receive env ok act).ctb.KeysDistinct :=
  State.receive_keeps (P := fun u => u.ctb.KeysDistinct) env ok h (fun _ _ hu => hu.onPlay _) hact

/-- What RUNNING hands to a block keeps the keys distinct when the block does. -/
theorem CallTable.KeysDistinct.receiveRunning {act : State → State} {s : State} (h : s.ctb.KeysDistinct)
    (hact : ∀ u : State, u.ctb.KeysDistinct → (act u).ctb.KeysDistinct) (env : Envelope) (ok : Bool) :
    (s.receive env ok (State.whenRunning act)).ctb.KeysDistinct :=
  h.receive (fun u hu => State.whenRunning_keeps (P := fun u => u.ctb.KeysDistinct) hu (hact u hu)) env ok

theorem CallTable.KeysDistinct.when {act : State → State} {s : State} (h : s.ctb.KeysDistinct)
    (hact : s.ctb.KeepsKeys (act s).ctb) (due : Bool) : (s.when due act).ctb.KeysDistinct :=
  State.when_keeps (P := fun u => u.ctb.KeysDistinct) h fun _ => h.kept hact

/-- A guarded act of the other blocks leaves the table. -/
theorem CallTable.KeysDistinct.whenPlay {s : State} (h : s.ctb.KeysDistinct) (f : Env → Play → Play) (due : Bool) :
    (s.when due fun s => s.onPlay f).ctb.KeysDistinct := h.when (.of_eq (State.onPlay_ctb s f)) due

theorem CallTable.KeysDistinct.whenSame {act : State → State} {s : State} (h : s.ctb.KeysDistinct)
    (hact : (act s).ctb = s.ctb) (due : Bool) : (s.when due act).ctb.KeysDistinct := h.when (.of_eq hact) due

theorem State.discard_ctb (raw : List Byte) (s : State) : (s.discard raw).ctb = s.ctb := by
  unfold State.discard
  split <;> simp

/-- Every command keeps the keys distinct. -/
theorem exec_keeps_keys_distinct (i : Instr) {s : State} (h : s.ctb.KeysDistinct) :
    ∃ t, exec i s = .next t ∧ t.ctb.KeysDistinct := by
  have same : ∀ {c : CallTable}, c = s.ctb → c.KeysDistinct := fun e => e ▸ h
  cases i with
  | powerOnReset => exact ⟨_, rfl, h.kept fun i b hb => by simp [State.powerOn, CallTable.reset] at hb⟩
  | headerReadComplete r => exact ⟨_, rfl, (same (State.settleHeader_ctb r s))⟩
  | headerReadTimeout => exact ⟨_, rfl, h.whenSame (State.settleHeader_ctb none s) _⟩
  | configReadComplete r => exact ⟨_, rfl, (same (State.settleConfig_ctb _ s))⟩
  | configLoadTimeout => exact ⟨_, rfl, h.whenSame (State.settleConfig_ctb _ s) _⟩
  | frameDiscard raw => exact ⟨_, rfl, (same (State.discard_ctb raw s)).finish⟩
  | beacon env f =>
    refine ⟨_, rfl, (h.receive (fun u hu => ?_) _ _).finish⟩
    have hb := hu.kept (State.timeBeacon_keeps_keys env.src f u)
    exact State.whenRunning_keeps (P := fun u => u.ctb.KeysDistinct) hb (hb.onPlay _)
  | callSet env f => exact ⟨_, rfl, (h.receiveRunning (fun _ hu => State.callSet_keys_distinct hu f) _ _).finish⟩
  | callDelay env f => exact ⟨_, rfl, (h.receiveRunning (fun _ hu => State.callDelay_keys_distinct hu f) _ _).finish⟩
  | callPlatform env f =>
    exact ⟨_, rfl, (h.receiveRunning (fun _ hu => State.callPlatform_keys_distinct hu f) _ _).finish⟩
  | callCancel env f =>
    exact ⟨_, rfl, (h.receiveRunning (fun _ hu => State.callCancel_keys_distinct hu f) _ _).finish⟩
  | announce | zoneReport | withdraw | withdrawDone =>
    exact ⟨_, rfl, (h.receiveRunning (fun _ hu => hu.onPlay _) _ _).finish⟩
  | faultNoticeReceived | maintReplyReceived => exact ⟨_, rfl, (h.receive (fun _ hu => hu) _ _).finish⟩
  | queryCall _ args => exact ⟨_, rfl, (same (State.maint_query_ctb (settleQueryCall_state args) _ _ s)).finish⟩
  | queryZone _ args => exact ⟨_, rfl, (same (State.maint_query_ctb (settleQueryZone_state args) _ _ s)).finish⟩
  | queryFault _ args => exact ⟨_, rfl, (same (State.maint_query_ctb (settleQueryFault_state args) _ _ s)).finish⟩
  | querySurvey _ args => exact ⟨_, rfl, (same (State.maint_query_ctb (settleQuerySurvey_state args) _ _ s)).finish⟩
  | queryCounters _ args => exact ⟨_, rfl, (same (State.maint_query_ctb (settleQueryCounters_state args) _ _ s)).finish⟩
  | maintRequestUnknown => exact ⟨_, rfl, (same (State.maint_query_ctb (fun _ => rfl) _ _ s)).finish⟩
  | clearFault _ args => exact ⟨_, rfl, (same (State.maint_ctb (settleClearFault_ctb args) _ _ s)).finish⟩
  | surveyStart _ args => exact ⟨_, rfl, (same (State.maint_ctb (settleSurveyStart_ctb args) _ _ s)).finish⟩
  | surveyAbort _ args => exact ⟨_, rfl, (same (State.maint_ctb (settleSurveyAbort_ctb args) _ _ s)).finish⟩
  | limitSet _ args => exact ⟨_, rfl, (same (State.maint_ctb (settleLimitSet_ctb args) _ _ s)).finish⟩
  | limitLock _ args => exact ⟨_, rfl, (same (State.maint_ctb (settleLimitLock_ctb args) _ _ s)).finish⟩
  | restart head args => exact ⟨_, rfl, (h.kept (State.restartRequest_keeps_keys head args s)).finish⟩
  | stationDayEnd => exact ⟨_, rfl, (h.when s.dayEnd_keeps_keys _).finish⟩
  | wholeSecond => exact ⟨_, rfl, (h.when s.wholeSecond_keeps_keys _).finish⟩
  | quietHoursChange => exact ⟨_, rfl, same s.settleQuiet_ctb⟩
  | heardEntryExpire a => exact ⟨_, rfl, h.whenSame (s.expireHeard_ctb a) _⟩
  | holdoverTimeout => exact ⟨_, rfl, h.whenSame s.holdover_ctb _⟩
  | berthInputChange line input level => exact ⟨_, rfl, h.kept (CallTable.onInput_keeps_keys s.ctb line input _)⟩
  | approachAssert =>
    exact ⟨_, rfl, (h.kept (State.takeLevel_keeps_keys State.approachPlatform_keeps_keys _ _ _ s)).finish⟩
  | approachClear => exact ⟨_, rfl, h.kept (State.takeLevel_keeps_keys (fun _ _ => .refl _) _ _ _ s)⟩
  | occupancyAssert =>
    exact ⟨_, rfl, (h.kept (State.takeLevel_keeps_keys State.occupyPlatform_keeps_keys _ _ _ s)).finish⟩
  | occupancyClear =>
    exact ⟨_, rfl, (h.kept (State.takeLevel_keeps_keys State.vacatePlatform_keeps_keys _ _ _ s)).finish⟩
  | retireSecond => exact ⟨_, rfl, h.when (act := (State.onCtb · CallTable.second)) s.onSecond_keeps_keys s.retireDue⟩
  | linkFrameBegin | transmitGapReached | frameSent | ownerEntryExpire | evacInputChange => exact ⟨_, rfl, h.onPlay _⟩
  | syncStartReached | blockReadComplete | directoryReadComplete | expiryReached | syncWindowClose | supervisionWord =>
    exact ⟨_, rfl, (h.onPlay _).finish⟩
  | channelStart | channelBlockAdvance | passEnd | stopPointReached => exact ⟨_, rfl, (h.onPlay _).onPlay _⟩
  | beaconDue | reportDeadline | originationExpire => exact ⟨_, rfl, h.whenPlay _ _⟩
  | windowEnd => exact ⟨_, rfl, (h.whenPlay _ _).onPlay _⟩
  | supervisionCycleEnd | autoSurveyRetry | probeChannelTimeout | evacAssert | evacRelease =>
    exact ⟨_, rfl, (h.whenPlay _ _).finish⟩

/-- With no command waiting the table stands. -/
theorem State.idle_ctb (s : State) : s.idle.ctb = s.ctb := by
  unfold State.idle
  split <;> rfl

/-- Settles O57: each command keeps the keys distinct, and the idle step leaves the table. -/
theorem keysStayDistinct : Obligations.KeysStayDistinct := by
  intro s t h hstep
  unfold step at hstep
  split at hstep
  · next i rest _ =>
    obtain ⟨u, hu, hdistinct⟩ := exec_keeps_keys_distinct (s := { s with pending := rest }) i h
    cases hu.symm.trans hstep
    exact hdistinct
  · cases hstep
    exact s.idle_ctb ▸ h

end Sys2Proof.Machine
end

section
/-! PROOFS. What a power-on reset leaves, what the checks of a timetable frame answer (R6, R7), and what a good CALL_SET,
CALL_DELAY, CALL_PLATFORM and CALL_CANCEL come to (R8 to R14). -/
namespace Sys2Proof.Machine

/-! ### Power-on reset (R188) -/

/-- A power-on reset keeps the raw level of every berth input, and takes no debounced level (R18). -/
theorem State.powerOn_inputs (s : State) (i : Fin 8) :
    (s.powerOn.ctb.occupancy.get i).raw = (s.ctb.occupancy.get i).raw ∧ (s.powerOn.ctb.occupancy.get i).level = none ∧
      (s.powerOn.ctb.approach.get i).raw = (s.ctb.approach.get i).raw ∧ (s.powerOn.ctb.approach.get i).level = none := by
  simp [State.powerOn, Debounce.reset]

/-- Settles O3, block by block: the reset state is computed, and POWER_ON_RESET gives it with the pins kept. -/
theorem resetLeaves : Obligations.ResetLeaves := by
  refine ⟨⟨rfl, rfl, rfl, rfl, rfl, fun i => ?_, fun o => ?_, fun o => ?_, rfl, fun z => ?_, fun i => ?_, rfl,
    fun c => ?_, rfl, rfl⟩, fun s => ⟨s.powerOn, rfl, rfl, rfl, rfl, rfl, rfl, rfl, rfl, rfl, rfl, rfl, rfl, rfl, rfl,
    rfl, rfl, s.powerOn_inputs⟩⟩
  · exact replicate_get _ i
  · have hzone : State.reset.play.zone o = Zone.off := replicate_get _ o
    rw [hzone]
    exact ⟨rfl, rfl⟩
  · have hline : State.reset.play.lineAt o = Line.reset := replicate_get _ o
    rw [hline]
    exact ⟨rfl, rfl, rfl⟩
  · exact replicate_get _ z
  · exact replicate_get _ i
  · have hchan : State.reset.play.chan c = Channel.reset := replicate_get _ c
    rw [hchan]
    rfl

/-! ### Service codes (R2, R178) -/

theorem codeBytes_eq_map_range (c : Code) :
    codeBytes c = (List.range 6).map fun i => (c.toNat >>> (40 - 8 * i)) % 256 := rfl

theorem isAlnum_iff (b : Nat) :
    isAlnum b = true ↔ 48 ≤ b ∧ b ≤ 57 ∨ 65 ≤ b ∧ b ≤ 90 ∨ 97 ≤ b ∧ b ≤ 122 := by
  simp [isAlnum, or_assoc]

/-- A text of letters and digits followed by zeros is told by its length: the first zero ends it. -/
theorem text_then_zeros_iff (l : List Nat) :
    (4 ≤ (l.takeWhile (· ≠ 0)).length ∧ (l.takeWhile (· ≠ 0)).all isAlnum = true ∧
        (l.dropWhile (· ≠ 0)).all (· = 0) = true) ↔
      ∃ n, 4 ≤ n ∧ n ≤ l.length ∧ (l.take n).all isAlnum = true ∧ (l.drop n).all (· = 0) = true := by
  constructor
  · rintro ⟨hlen, htext, hrest⟩
    refine ⟨(l.takeWhile (· ≠ 0)).length, hlen, (List.takeWhile_sublist _).length_le, ?_, ?_⟩
    · rwa [← List.prefix_iff_eq_take.mp (List.takeWhile_prefix _)]
    · have hsplit : (l.takeWhile (· ≠ 0) ++ l.dropWhile (· ≠ 0)).drop (l.takeWhile (· ≠ 0)).length =
        l.dropWhile (· ≠ 0) := List.drop_left
      rw [List.takeWhile_append_dropWhile] at hsplit
      rwa [hsplit]
  · rintro ⟨n, hlen, hle, htext, hrest⟩
    have hpos : ∀ a ∈ l.take n, decide (a ≠ 0) = true := by
      intro a ha
      have := (isAlnum_iff a).mp (List.all_eq_true.mp htext a ha)
      exact decide_eq_true (by omega)
    have hzero : ∀ a ∈ l.drop n, ¬ decide (a ≠ 0) = true := by
      intro a ha
      simpa using List.all_eq_true.mp hrest a ha
    have htake : l.takeWhile (· ≠ 0) = l.take n := by
      conv_lhs => rw [← List.take_append_drop n l]
      rw [List.takeWhile_append_of_pos hpos]
      cases hd : l.drop n with
      | nil => simp
      | cons x rest =>
        rw [List.takeWhile_cons_of_neg (p := fun a => decide (a ≠ 0)) (hzero x (by simp [hd])), List.append_nil]
    have hdrop : l.dropWhile (· ≠ 0) = l.drop n := by
      conv_lhs => rw [← List.take_append_drop n l]
      rw [List.dropWhile_append_of_pos hpos]
      cases hd : l.drop n with
      | nil => simp
      | cons x rest => rw [List.dropWhile_cons_of_neg (p := fun a => decide (a ≠ 0)) (hzero x (by simp [hd]))]
    rw [htake, hdrop]
    exact ⟨by simpa using ⟨hlen, hlen.trans hle⟩, htext, hrest⟩

/-- A service code is 4 to 6 letters and digits before zero bytes (R2). -/
theorem codeOk_iff (c : Code) : codeOk c = true ↔ ∃ n, 4 ≤ n ∧ n ≤ 6 ∧
    (∀ i b : Nat, i < n → b = (c.toNat >>> (40 - 8 * i)) % 256 →
      48 ≤ b ∧ b ≤ 57 ∨ 65 ≤ b ∧ b ≤ 90 ∨ 97 ≤ b ∧ b ≤ 122) ∧
    (∀ i : Nat, n ≤ i → i < 6 → (c.toNat >>> (40 - 8 * i)) % 256 = 0) := by
  have hok : codeOk c = true ↔ _ := Iff.trans (by simp [codeOk, and_assoc]) (text_then_zeros_iff (codeBytes c))
  rw [hok]
  refine exists_congr fun n => and_congr_right fun _ => ?_
  rw [show (codeBytes c).length = 6 from rfl]
  refine and_congr_right fun hn => and_congr ?_ ?_
  · rw [codeBytes_eq_map_range, ← List.map_take, List.take_range, Nat.min_eq_left hn]
    simp only [List.all_map, List.all_eq_true, List.mem_range, Function.comp, isAlnum_iff]
    exact ⟨fun h i b hi hb => hb ▸ h i hi, fun h i hi => h i _ hi rfl⟩
  · rw [codeBytes_eq_map_range, List.all_eq_true]
    simp only [decide_eq_true_eq]
    constructor
    · intro h i hni hi
      exact h _ (List.mem_drop_iff_getElem.mpr ⟨i - n, by simp; omega, by simp [Nat.add_sub_cancel' hni]⟩)
    · intro h b hb
      obtain ⟨k, hk, rfl⟩ := List.mem_drop_iff_getElem.mp hb
      simp only [List.length_map, List.length_range] at hk
      simpa using h (n + k) (Nat.le_add_right _ _) (by omega)

/-! ### The checks of a timetable frame (R6, R7) -/

theorem platformOk_iff (p : Nat) : platformOk p = true ↔ 1 ≤ p ∧ p ≤ 48 := by simp [platformOk]

theorem kindOf_eq_some_iff {code : Nat} (h : code ≤ 1) (kind : CallKind) :
    kindOf code = some kind ↔ (kind = .arr ↔ code = 0) := by
  unfold kindOf
  interval_cases code <;> cases kind <;> simp

/-- A kind byte of 0 or 1 names a kind. -/
theorem kindOf_isSome {code : Nat} (h : code ≤ 1) : ∃ kind, kindOf code = some kind := by
  unfold kindOf
  interval_cases code <;> simp

/-- What the check of a key answers: absent for a bad code or a day that cannot be aligned, and else kind and alignment. -/
theorem State.checkKey_eq_some_iff (s : State) {k : CallKeyFields} (h : k.kind ≤ 1) (kind : CallKind) (shift : Int) :
    s.checkKey k = some (kind, shift) ↔
      codeOk k.code = true ∧ s.alignment k.day = some shift ∧ (kind = .arr ↔ k.kind = 0) := by
  rw [← kindOf_eq_some_iff h]
  obtain ⟨named, hnamed⟩ := kindOf_isSome h
  unfold State.checkKey
  rw [hnamed]
  cases codeOk k.code <;> cases s.alignment k.day <;> simp [and_comm]

theorem State.checkKey_eq_none_iff (s : State) {k : CallKeyFields} (h : k.kind ≤ 1) :
    s.checkKey k = none ↔ codeOk k.code = false ∨ s.alignment k.day = none := by
  obtain ⟨named, hnamed⟩ := kindOf_isSome h
  unfold State.checkKey
  rw [hnamed]
  cases codeOk k.code <;> cases s.alignment k.day <;> simp

theorem State.alignment_of_unset {s : State} (h : s.sck.state = .unset) (day : Day) : s.alignment day = some 0 := by
  simp [State.alignment, h]

/-- How a day is aligned while the clock is set: by its difference from the station's own day (R7). -/
theorem State.alignment_of_set {s : State} (h : s.sck.state ≠ .unset) (day : Day) :
    (day = s.sck.day → s.alignment day = some 0) ∧
      (day = s.sck.day + 1 → s.alignment day = some 1440) ∧
      (day + 1 = s.sck.day → s.alignment day = some (-1440)) ∧
      (day ≠ s.sck.day → day ≠ s.sck.day + 1 → day + 1 ≠ s.sck.day → s.alignment day = none) := by
  have hnext : ∀ d : Day, d + 1 ≠ d := by bv_omega
  have hprev : ∀ d : Day, d ≠ d + 1 + 1 := by bv_omega
  have hother : day ≠ s.sck.day → ¬ (decide (s.sck.state = .unset) || decide (day = s.sck.day)) = true := by
    intro hd
    simp [h, hd]
  refine ⟨fun hd => by simp [State.alignment, hd], fun hd => ?_, fun hd => ?_, fun h0 h1 h2 => ?_⟩
  · rw [State.alignment, if_neg (hother (hd ▸ hnext _)), if_pos hd]
  · rw [State.alignment, if_neg (hother (hd ▸ (hnext _).symm)), if_neg (hd ▸ hprev _), if_pos hd]
  · rw [State.alignment, if_neg (hother h0), if_neg h1, if_neg h2]

theorem checkFields_eq_none_iff (kind : CallKind) (shift : Int) (f : CallFields) :
    checkFields kind shift f = none ↔ f.booked < -1440 ∨ 2879 < f.booked ∨ f.booked + shift < -1440 ∨
      2879 < f.booked + shift := by
  simp only [checkFields, bookedOk, ite_eq_right_iff, reduceCtorEq, imp_false, Bool.and_eq_true, decide_eq_true_eq]
  omega

/-- The fields that a good frame gives are the aligned ones. -/
theorem checkFields_eq_some {kind : CallKind} {shift : Int} {f x : CallFields}
    (h : checkFields kind shift f = some x) : x = alignFields kind shift f := by
  unfold checkFields at h
  split at h
  · exact (Option.some.inj h).symm
  · cases h

/-- A byte is held as it is where it lies in range, and as a value in range elsewhere (log entry 6). -/
theorem heldByte_range (n b beyond : Nat) :
    (if b ≤ n then b else beyond % (n + 1)) ≤ n ∧ (b ≤ n → (if b ≤ n then b else beyond % (n + 1)) = b) := by
  refine ⟨?_, fun h => if_pos h⟩
  split
  · assumption
  · exact Nat.le_of_lt_succ (Nat.mod_lt _ (Nat.succ_pos n))

theorem alignFields_spec (kind : CallKind) (shift : Int) (f : CallFields) :
    (alignFields kind shift f).booked = f.booked + shift ∧
      (alignFields kind shift f).delay = max (-60) (min 720 f.delay) ∧ (alignFields kind shift f).place = f.place ∧
      (alignFields kind shift f).coaches = min 24 f.coaches ∧ (alignFields kind shift f).points = f.points.take 16 ∧
      (alignFields kind shift f).forms = (if kind = .arr then f.forms else 0) ∧
      (alignFields kind shift f).category ≤ 7 ∧
      (f.category ≤ 7 → (alignFields kind shift f).category = f.category) ∧
      (alignFields kind shift f).operator ≤ 15 ∧
      (f.operator ≤ 15 → (alignFields kind shift f).operator = f.operator) := by
  obtain ⟨hcat, hcat'⟩ := heldByte_range 7 f.category (Config.categoryBeyond f.category)
  obtain ⟨hop, hop'⟩ := heldByte_range 15 f.operator (Config.operatorBeyond f.operator)
  exact ⟨rfl, rfl, rfl, rfl, rfl, rfl, hcat, hcat', hop, hop'⟩

/-! ### A timetable frame handed to the Call Table (R179) -/

theorem State.Quiet.onCtb {s : State} (h : s.Quiet) (f : CallTable → CallTable) : (s.onCtb f).Quiet := h

@[simp] theorem State.tookGood_checkKey (s : State) (k : CallKeyFields) : s.tookGood.checkKey k = s.checkKey k := rfl

@[simp] theorem State.finish_sck (s : State) : s.finish.sck = s.sck := by
  unfold State.finish
  rw [State.onPlay_sck]

@[simp] theorem State.finish_cfl (s : State) : s.finish.cfl = s.cfl := by
  unfold State.finish
  rw [State.onPlay_cfl]

section taken
variable {s : State} {env : Envelope} (h : s.TakesFrame env)
include h

theorem exec_callSet_of_takes (f : CallSetFrame) (hk : f.key.kind ≤ 1) :
    exec (.callSet env f) s = .next (s.tookGood.callSet f).finish := by
  simp only [exec, execCallSet, hk, decide_true, State.receive_takes _ h]

theorem exec_callDelay_of_takes (f : CallDelayFrame) (hk : f.key.kind ≤ 1) :
    exec (.callDelay env f) s = .next (s.tookGood.callDelay f).finish := by
  simp only [exec, execCallDelay, hk, decide_true, State.receive_takes _ h]

theorem exec_callPlatform_of_takes (f : CallPlatformFrame) (hk : f.key.kind ≤ 1) :
    exec (.callPlatform env f) s = .next (s.tookGood.callPlatform f).finish := by
  simp only [exec, execCallPlatform, hk, decide_true, State.receive_takes _ h]

theorem exec_callCancel_of_takes (f : CallKeyFields) (hk : f.kind ≤ 1) :
    exec (.callCancel env f) s = .next (s.tookGood.callCancel f).finish := by
  simp only [exec, execCallCancel, hk, decide_true, State.receive_takes _ h]

end taken

/-- A frame that the Call Table does not act on ends as it was taken. -/
theorem State.finish_tookGood {s : State} (h : s.Quiet) : s.tookGood.finish = s.tookGood :=
  State.finish_of_quiet h.tookGood

/-- A change of the Call Table alone is all that such a command makes. -/
theorem State.finish_tookGood_onCtb {s : State} (h : s.Quiet) (f : CallTable → CallTable) :
    (s.tookGood.onCtb f).finish = s.tookGood.onCtb f := State.finish_of_quiet (h.tookGood.onCtb f)

/-- A record held but for its fired set, with the fired set of the record meant put back. -/
theorem CallRec.held_but_fired {q : Place} {x : CallRec} (h : ∃ fired, q = .held { x with fired := fired })
    {fired : BitVec 32} (hx : x.fired = fired) : ∃ r, q = .held r ∧ { r with fired := fired } = x := by
  obtain ⟨g, hq⟩ := h
  subst hx
  exact ⟨_, hq, rfl⟩

/-! ### Frames whose check answers none (R6) -/

theorem State.callSet_malformed {s : State} {f : CallSetFrame}
    (h : s.checkKey f.key = none ∨ platformOk f.platform = false ∨
      ∃ kind shift, s.checkKey f.key = some (kind, shift) ∧ checkFields kind shift f.fields = none) :
    s.callSet f = s.malformedCall := by
  unfold State.callSet
  rcases h with hkey | hplatform | ⟨kind, shift, hkey, hfields⟩
  · simp only [hkey]
  · simp only [hplatform]
    split <;> rfl
  · simp only [hkey, hfields]
    split <;> rfl

theorem State.callPlatform_malformed {s : State} {f : CallPlatformFrame}
    (h : s.checkKey f.key = none ∨ platformOk f.platform = false ∨
      ∃ kind shift x, s.checkKey f.key = some (kind, shift) ∧ f.complete = some x ∧ checkFields kind shift x = none) :
    s.callPlatform f = s.malformedCall := by
  unfold State.callPlatform
  rcases h with hkey | hplatform | ⟨kind, shift, x, hkey, hcomplete, hfields⟩
  · simp only [hkey]
  · simp only [hplatform]
    split <;> rfl
  · simp only [hkey, hcomplete, hfields]
    split <;> rfl

theorem State.callDelay_malformed {s : State} {f : CallDelayFrame} (h : s.checkKey f.key = none) :
    s.callDelay f = s.malformedCall := by
  unfold State.callDelay
  simp only [h]

theorem State.callCancel_malformed {s : State} {f : CallKeyFields} (h : s.checkKey f = none) :
    s.callCancel f = s.malformedCall := by
  unfold State.callCancel
  simp only [h]

/-! ### A CALL_SET for a key not held (R8) -/

theorem State.callSet_good {s : State} {f : CallSetFrame} {kind : CallKind} {shift : Int} {fields : CallFields}
    (hkey : s.checkKey f.key = some (kind, shift)) (hplatform : platformOk f.platform = true)
    (hfields : checkFields kind shift f.fields = some fields) : s.callSet f = s.applySet kind f fields := by
  simp [State.callSet, hkey, hplatform, hfields]

theorem State.applySet_new {s : State} {kind : CallKind} {f : CallSetFrame}
    (hfind : s.ctb.find f.key.code kind = none) (hcovers : s.env.covers f.platform = true) (fields : CallFields) :
    s.applySet kind f fields =
      s.create (newCall f.key.code kind f.platform fields f.alteration s.env.now) := by
  simp [State.applySet, hfind, hcovers]

theorem State.applySet_new_uncovered {s : State} {kind : CallKind} {f : CallSetFrame}
    (hfind : s.ctb.find f.key.code kind = none) (hcovers : s.env.covers f.platform = false) (fields : CallFields) :
    s.applySet kind f fields = s := by
  simp [State.applySet, hfind, hcovers]

theorem State.create_of_freePlace {s : State} {i : Fin 96} (h : s.ctb.freePlace = some i) (r : CallRec) :
    s.create r = s.install i r := by
  simp [State.create, h]

/-- Settles O23: the check of a frame is read off its parts, a frame that fails it is counted, and one that passes
installs its record at the free place of lowest index. -/
theorem callSetCreates : Obligations.CallSetCreates := by
  refine ⟨⟨fun s env f kind shift fields h hk hkey hplatform hfields hfind => ⟨fun hcovers i hi => ?_,
    fun hcovers hq => ?_⟩, ⟨fun s env bad h hq hbad => ⟨fun f hk hf => ?_, fun f hk hf => ?_, fun f hk hf => ?_,
    fun f hk hf => ?_⟩, fun s k hk => ⟨s.checkKey_eq_none_iff hk, s.checkKey_eq_some_iff hk⟩,
    fun s day => ⟨fun hu => State.alignment_of_unset hu day, fun hs => State.alignment_of_set hs day⟩, codeOk_iff,
    platformOk_iff, fun kind shift f => ⟨checkFields_eq_none_iff kind shift f, fun x hx => ?_⟩⟩⟩,
    fun c => ⟨c.freePlace_eq_some_iff, c.freePlace_eq_none_iff, fun code kind =>
      ⟨c.find_eq_some_iff code kind, c.find_eq_none_iff code kind⟩⟩⟩
  · have hset : s.tookGood.callSet f =
        s.tookGood.install i (newCall f.key.code kind f.platform fields f.alteration s.env.now) := by
      rw [State.callSet_good (s := s.tookGood) hkey hplatform hfields, State.applySet_new (s := s.tookGood) hfind hcovers,
        State.create_of_freePlace (s := s.tookGood) hi]
      rfl
    obtain ⟨hi, hother, hinputs, hcounts, hsck, hcfl, _⟩ := State.install_frame i
      (newCall f.key.code kind f.platform fields f.alteration s.env.now) s.tookGood
    obtain ⟨r, hr, hnew⟩ := CallRec.held_but_fired hi (fired := 0) rfl
    refine ⟨_, r, exec_callSet_of_takes h f hk, ?_⟩
    simp only [hset, State.finish_ctb, State.finish_sck, State.finish_cfl]
    exact ⟨hr, hnew, hother, hsck, hcfl, hinputs, hcounts⟩
  · rw [exec_callSet_of_takes h f hk, State.callSet_good (s := s.tookGood) hkey hplatform hfields,
      State.applySet_new_uncovered (s := s.tookGood) hfind hcovers, State.finish_tookGood hq]
  · rw [exec_callSet_of_takes h f hk, State.callSet_malformed (s := s.tookGood) hf, hbad]
    exact congrArg _ (State.finish_tookGood_onCtb hq _)
  · rw [exec_callDelay_of_takes h f hk, State.callDelay_malformed (s := s.tookGood) hf, hbad]
    exact congrArg _ (State.finish_tookGood_onCtb hq _)
  · rw [exec_callPlatform_of_takes h f hk, State.callPlatform_malformed (s := s.tookGood) hf, hbad]
    exact congrArg _ (State.finish_tookGood_onCtb hq _)
  · rw [exec_callCancel_of_takes h f hk, State.callCancel_malformed (s := s.tookGood) hf, hbad]
    exact congrArg _ (State.finish_tookGood_onCtb hq _)
  · rw [checkFields_eq_some hx]
    exact alignFields_spec kind shift f

end Sys2Proof.Machine
end

section
/-! PROOFS. What a good timetable frame does to a call that the table holds (R4, R9 to R14). -/
namespace Sys2Proof.Machine

/-! ### A change of booked time or delay (R4) -/

/-- The record that a changed booked time or delay leaves: at the requalify threshold the epoch increments and the record
is qualified. -/
def CallRec.retimed (m : Image) (r : CallRec) : CallRec :=
  if (r.expected - r.qualified).natAbs < m.requalify then r else r.nextEpoch

@[simp] theorem CallRec.retimed_fired (m : Image) (r : CallRec) : (r.retimed m).fired = r.fired := by
  unfold CallRec.retimed
  split <;> rfl

/-- What a silent change with an evaluation at once leaves: the record but for its fired set. -/
theorem State.putEvaluate_frame (i : Fin 96) (r : CallRec) (s : State) :
    (∃ fired, ((s.onCtb fun c => c.put i (.held r)).evaluate i).ctb.places.get i = .held { r with fired := fired }) ∧
      (∀ j, j ≠ i → ((s.onCtb fun c => c.put i (.held r)).evaluate i).ctb.places.get j = s.ctb.places.get j) ∧
      s.SameSurroundings ((s.onCtb fun c => c.put i (.held r)).evaluate i) := by
  have hput : (s.onCtb fun c => c.put i (.held r)).ctb.places.get i = .held r := CallTable.put_get_self _ _ _
  obtain ⟨hctb, hsame⟩ := State.evaluate_held hput
  obtain ⟨_, _, _, hother⟩ := State.evaluate_frame (s.onCtb fun c => c.put i (.held r)) i
  refine ⟨⟨_, by rw [hctb]; exact upd_get_self _ _ _⟩, fun j hj => (hother j hj).trans ?_,
    (State.onCtb_same s _).trans hsame⟩
  exact CallTable.put_get_of_ne _ _ hj

theorem State.retime_frame {s : State} {m : Image} (hm : s.cfl.image = some m) (i : Fin 96) (r : CallRec) :
    (∃ fired, (s.retime i r).ctb.places.get i = .held { r.retimed m with fired := fired }) ∧
      (∀ j, j ≠ i → (s.retime i r).ctb.places.get j = s.ctb.places.get j) ∧ s.SameSurroundings (s.retime i r) := by
  unfold State.retime CallRec.retimed
  simp only [hm]
  by_cases hlt : (r.expected - r.qualified).natAbs < m.requalify
  · rw [if_neg (Nat.not_le.mpr hlt), if_pos hlt]
    exact State.putEvaluate_frame i r s
  · rw [if_pos (Nat.not_lt.mp hlt), if_neg hlt]
    obtain ⟨hi, hother, _, _, hsame⟩ := State.raise_frame i r.nextEpoch .delayed true s (by decide)
    exact ⟨hi, hother, hsame⟩

/-! ### A CALL_SET for a call held (R9) -/

/-- A live call takes the fields: it leaves, moves, or stays, and then silently where booked time and delay stand. -/
theorem State.applySet_live {s : State} {kind : CallKind} {f : CallSetFrame} {i : Fin 96} {r : CallRec}
    (hfind : s.ctb.find f.key.code kind = some (i, r)) (hlive : r.state.live = true) (fields : CallFields) :
    s.applySet kind f fields = if s.env.covers f.platform = false then s.alterAway i r (r.take f.platform fields)
      else if f.platform ≠ r.platform then s.move i r (r.take f.platform fields)
      else if (r.take f.platform fields).booked = r.booked ∧ (r.take f.platform fields).delay = r.delay
        then s.onCtb fun c => c.put i (.held (r.take f.platform fields))
      else s.retime i (r.take f.platform fields) := by
  cases hst : r.state <;> simp only [hst, CallState.live, Bool.false_eq_true] at hlive <;>
    simp [State.applySet, hfind, hst]

theorem State.applySet_ended {s : State} {kind : CallKind} {f : CallSetFrame} {i : Fin 96} {r : CallRec}
    (hfind : s.ctb.find f.key.code kind = some (i, r)) (hended : r.state = .departed ∨ r.state = .complete)
    (fields : CallFields) : s.applySet kind f fields = s.ignoreFrame := by
  rcases hended with hst | hst <;> simp [State.applySet, hfind, hst]

/-- What a CALL_SET leaves of a live call at its platform (R4, R9). -/
theorem State.applySet_live_here_frame {s : State} {kind : CallKind} {f : CallSetFrame} {i : Fin 96} {r : CallRec}
    {m : Image} (hm : s.cfl.image = some m) (hfind : s.ctb.find f.key.code kind = some (i, r))
    (hlive : r.state.live = true) (hcovers : s.env.covers f.platform = true) (hhere : f.platform = r.platform)
    (fields : CallFields) :
    (∃ fired, (s.applySet kind f fields).ctb.places.get i = .held { (if (fields.booked = r.booked ∧
        fields.delay = r.delay) ∨ (expectedTime fields.booked fields.delay - r.qualified).natAbs < m.requalify
          then r.take f.platform fields else (r.take f.platform fields).nextEpoch) with fired := fired }) ∧
      (∀ j, j ≠ i → (s.applySet kind f fields).ctb.places.get j = s.ctb.places.get j) ∧
      (s.applySet kind f fields).sck = s.sck := by
  have hbooked : (r.take f.platform fields).booked = fields.booked := rfl
  have hdelay : (r.take f.platform fields).delay = fields.delay := rfl
  rw [State.applySet_live hfind hlive, hcovers, if_neg (by decide), if_neg (not_not.mpr hhere), hbooked, hdelay]
  by_cases hstands : fields.booked = r.booked ∧ fields.delay = r.delay
  · rw [if_pos hstands, if_pos (Or.inl hstands)]
    exact ⟨⟨r.fired, CallTable.put_get_self _ _ _⟩, fun j hj => CallTable.put_get_of_ne _ _ hj, rfl⟩
  · obtain ⟨hi, hother, hsck, _⟩ := State.retime_frame hm i (r.take f.platform fields)
    have hretimed : (r.take f.platform fields).retimed m = if (fields.booked = r.booked ∧ fields.delay = r.delay) ∨
        (expectedTime fields.booked fields.delay - r.qualified).natAbs < m.requalify
          then r.take f.platform fields else (r.take f.platform fields).nextEpoch := by
      simp only [hstands, false_or]
      rfl
    rw [if_neg hstands, ← hretimed]
    exact ⟨hi, hother, hsck⟩

/-! ### A CALL_DELAY (R11) -/

theorem State.callDelay_absent {s : State} {f : CallDelayFrame} {kind : CallKind} {shift : Int}
    (hkey : s.checkKey f.key = some (kind, shift)) (hfind : s.ctb.find f.key.code kind = none) :
    s.callDelay f = s := by
  simp [State.callDelay, hkey, hfind]

/-- A CALL_DELAY for a call held: an ended call is ignored, the same delay changes nothing, another one is taken. -/
theorem State.callDelay_held {s : State} {f : CallDelayFrame} {kind : CallKind} {shift : Int} {i : Fin 96}
    {r : CallRec} (hkey : s.checkKey f.key = some (kind, shift)) (hfind : s.ctb.find f.key.code kind = some (i, r)) :
    s.callDelay f = if r.state.live = false then s.ignoreFrame
      else if clampInt (-60) 720 f.delay = r.delay then s
      else s.retime i { r with delay := clampInt (-60) 720 f.delay
                               expected := expectedTime r.booked (clampInt (-60) 720 f.delay) } := by
  simp [State.callDelay, hkey, hfind]

/-- Settles O24, by the state of the call held and, for a live one, by the requalify threshold. -/
theorem callsUpdate : Obligations.CallsUpdate := by
  refine ⟨fun s env f kind shift fields m i r h hk hkey hplatform hfields hm hfind =>
    ⟨fun hlive hcovers hhere => ?_, fun hended hq => ?_⟩, fun s env f kind shift m h hk hkey hm =>
    ⟨fun hfind hq => ?_, fun i r hfind => ⟨fun hlive hdelay => ?_, fun hlive hdelay hq => ?_, fun hlive hq => ?_⟩⟩⟩
  · obtain ⟨hi, hother, hsck⟩ :=
      State.applySet_live_here_frame (s := s.tookGood) hm hfind hlive hcovers hhere fields
    obtain ⟨r', hr, htaken⟩ := CallRec.held_but_fired hi (fired := r.fired) (by split <;> rfl)
    refine ⟨_, r', exec_callSet_of_takes h f hk, ?_⟩
    simp only [State.callSet_good (s := s.tookGood) hkey hplatform hfields, State.finish_ctb, State.finish_sck]
    exact ⟨hr, htaken, hother, hsck⟩
  · rw [exec_callSet_of_takes h f hk, State.callSet_good (s := s.tookGood) hkey hplatform hfields,
      State.applySet_ended (s := s.tookGood) hfind hended]
    exact congrArg _ (State.finish_tookGood_onCtb hq _)
  · rw [exec_callDelay_of_takes h f hk, State.callDelay_absent (s := s.tookGood) hkey hfind,
      State.finish_tookGood hq]
  · obtain ⟨hi, hother, hsck, _⟩ := State.retime_frame (s := s.tookGood) hm i
      { r with delay := clampInt (-60) 720 f.delay, expected := expectedTime r.booked (clampInt (-60) 720 f.delay) }
    obtain ⟨r', hr, htaken⟩ := CallRec.held_but_fired hi (CallRec.retimed_fired m _)
    refine ⟨_, r', exec_callDelay_of_takes h f hk, ?_⟩
    simp only [State.callDelay_held (s := s.tookGood) hkey hfind, hlive, Bool.true_eq_false, hdelay, if_false,
      State.finish_ctb, State.finish_sck]
    exact ⟨hr, htaken, hother, hsck⟩
  · rw [exec_callDelay_of_takes h f hk, State.callDelay_held (s := s.tookGood) hkey hfind, hlive, if_neg (by decide),
      if_pos hdelay, State.finish_tookGood hq]
  · rw [exec_callDelay_of_takes h f hk, State.callDelay_held (s := s.tookGood) hkey hfind, if_pos hlive]
    exact congrArg _ (State.finish_tookGood_onCtb hq _)

/-! ### A CALL_PLATFORM (R12) -/

theorem State.callPlatform_good {s : State} {f : CallPlatformFrame} {kind : CallKind} {shift : Int}
    (hkey : s.checkKey f.key = some (kind, shift)) (hplatform : platformOk f.platform = true)
    (hfields : ∀ x, f.complete = some x → (checkFields kind shift x).isSome = true) :
    s.callPlatform f = s.applyPlatform kind f (f.complete.bind (checkFields kind shift)) := by
  simp only [State.callPlatform, hkey, hplatform, Bool.not_true, Bool.false_eq_true, if_false]
  cases hx : f.complete with
  | none => rfl
  | some x =>
    obtain ⟨y, hy⟩ := Option.isSome_iff_exists.mp (hfields x hx)
    simp [hy]

/-- A live call goes to the platform of the frame: it leaves, stays or moves. -/
theorem State.applyPlatform_live {s : State} {kind : CallKind} {f : CallPlatformFrame} {i : Fin 96} {r : CallRec}
    (hfind : s.ctb.find f.key.code kind = some (i, r)) (hlive : r.state.live = true) (fields : Option CallFields) :
    s.applyPlatform kind f fields = if s.env.covers f.platform = false then
        s.alterAway i r { r with platform := f.platform }
      else if f.platform = r.platform then s.ignoreFrame else s.move i r { r with platform := f.platform } := by
  cases hst : r.state <;> simp only [hst, CallState.live, Bool.false_eq_true] at hlive <;>
    simp [State.applyPlatform, hfind, hst]

/-- A cancelled call is moved silently, ignored or removed. -/
theorem State.applyPlatform_cancelled {s : State} {kind : CallKind} {f : CallPlatformFrame} {i : Fin 96} {r : CallRec}
    (hfind : s.ctb.find f.key.code kind = some (i, r)) (hst : r.state = .cancelled) (fields : Option CallFields) :
    s.applyPlatform kind f fields = if s.env.covers f.platform = false then s.onCtb fun c => c.put i .free
      else if f.platform = r.platform then s.ignoreFrame
      else s.onCtb fun c => c.put i (.held { r with platform := f.platform }) := by
  simp [State.applyPlatform, hfind, hst]

theorem State.applyPlatform_ended {s : State} {kind : CallKind} {f : CallPlatformFrame} {i : Fin 96} {r : CallRec}
    (hfind : s.ctb.find f.key.code kind = some (i, r)) (hended : r.state = .departed ∨ r.state = .complete)
    (fields : Option CallFields) : s.applyPlatform kind f fields = s.ignoreFrame := by
  rcases hended with hst | hst <;> simp [State.applyPlatform, hfind, hst]

theorem State.applyPlatform_absent {s : State} {kind : CallKind} {f : CallPlatformFrame}
    (hfind : s.ctb.find f.key.code kind = none) :
    s.applyPlatform kind f none = if s.env.covers f.platform = false then s else s.ignoreFrame := by
  simp [State.applyPlatform, hfind]

theorem State.applyPlatform_absent_uncovered {s : State} {kind : CallKind} {f : CallPlatformFrame}
    (hfind : s.ctb.find f.key.code kind = none) (hcovers : s.env.covers f.platform = false)
    (fields : Option CallFields) : s.applyPlatform kind f fields = s := by
  simp [State.applyPlatform, hfind, hcovers]

/-! ### A CALL_CANCEL (R13) -/

theorem State.callCancel_absent {s : State} {f : CallKeyFields} {kind : CallKind} {shift : Int}
    (hkey : s.checkKey f = some (kind, shift)) (hfind : s.ctb.find f.code kind = none) : s.callCancel f = s := by
  simp [State.callCancel, hkey, hfind]

theorem State.callCancel_live {s : State} {f : CallKeyFields} {kind : CallKind} {shift : Int} {i : Fin 96} {r : CallRec}
    (hkey : s.checkKey f = some (kind, shift)) (hfind : s.ctb.find f.code kind = some (i, r))
    (hlive : r.state.live = true) :
    s.callCancel f = s.raise i (r.enter .cancelled s.env.now).nextEpoch .cancelled true := by
  cases hst : r.state <;> simp only [hst, CallState.live, Bool.false_eq_true] at hlive <;>
    simp [State.callCancel, hkey, hfind, hst]

theorem State.callCancel_cancelled {s : State} {f : CallKeyFields} {kind : CallKind} {shift : Int} {i : Fin 96}
    {r : CallRec} (hkey : s.checkKey f = some (kind, shift)) (hfind : s.ctb.find f.code kind = some (i, r))
    (hst : r.state = .cancelled) : s.callCancel f = s := by
  simp [State.callCancel, hkey, hfind, hst]

theorem State.callCancel_ended {s : State} {f : CallKeyFields} {kind : CallKind} {shift : Int} {i : Fin 96}
    {r : CallRec} (hkey : s.checkKey f = some (kind, shift)) (hfind : s.ctb.find f.code kind = some (i, r))
    (hended : r.state = .departed ∨ r.state = .complete) : s.callCancel f = s.ignoreFrame := by
  rcases hended with hst | hst <;> simp [State.callCancel, hkey, hfind, hst]

/-- A change of state takes the state entry (R5). -/
theorem CallRec.enter_of_ne {r : CallRec} {st : CallState} (h : r.state ≠ st) (now : Instant) :
    (r.enter st now).entered = now := if_neg h

/-- A live call that is cancelled (R13, R14). -/
theorem CallRec.cancelled_eq {r : CallRec} (hlive : r.state.live = true) (now : Instant) :
    (r.enter .cancelled now).nextEpoch =
      { r with state := .cancelled, entered := now, hold := some 1800, epoch := r.epoch + 1, qualified := r.expected } := by
  have hne : r.state ≠ .cancelled := by rintro hst; simp [hst, CallState.live] at hlive
  simp [CallRec.nextEpoch, CallRec.qualify, CallRec.enter, hne]

/-- Settles O25, by the state of the call held and by the platform of the frame. -/
theorem callMovesOrCancels : Obligations.CallMovesOrCancels := by
  refine ⟨⟨fun s env f kind shift i r h hk hkey hplatform hfields hfind hlive =>
    ⟨fun hcovers haway => ?_, fun hcovers => ?_, fun hcovers hhere hq => ?_⟩,
    fun s env f kind shift h hk hkey => ⟨fun hfind hq => ?_, fun i r hfind => ⟨fun hlive => ?_, fun hst hq => ?_⟩⟩⟩,
    fun s env f kind shift ignored h hq hk hkey hplatform hfields hignored =>
    ⟨fun i r hfind => ⟨fun hst => ⟨fun hcovers haway => ?_, fun hcovers hhere => ?_, fun hcovers => ?_⟩,
      fun hended => ?_⟩, fun hfind => ⟨fun hcovers hcomplete => ?_, fun hcovers => ?_⟩⟩,
    fun s env f kind shift i r h hq hk hkey hfind hended => ?_⟩
  · obtain ⟨hi, hother, _, _, hsck, _⟩ := State.move_frame i r { r with platform := f.platform } s.tookGood
    obtain ⟨r', hr, hmoved⟩ := CallRec.held_but_fired hi (fired := r.fired) rfl
    refine ⟨_, r', exec_callPlatform_of_takes h f hk, ?_⟩
    simp only [State.callPlatform_good (s := s.tookGood) hkey hplatform hfields,
      State.applyPlatform_live (s := s.tookGood) hfind hlive, State.tookGood_env, hcovers, haway, Bool.true_eq_false,
      if_false, State.finish_ctb, State.finish_sck]
    exact ⟨hr, hmoved, hother, hsck⟩
  · obtain ⟨hi, hother, _, _, hsck, _⟩ := State.alterAway_frame i r { r with platform := f.platform } s.tookGood
    refine ⟨_, exec_callPlatform_of_takes h f hk, ?_⟩
    simp only [State.callPlatform_good (s := s.tookGood) hkey hplatform hfields,
      State.applyPlatform_live (s := s.tookGood) hfind hlive, State.tookGood_env, hcovers, if_true, State.finish_ctb,
      State.finish_sck]
    exact ⟨hi, hother, hsck⟩
  · rw [exec_callPlatform_of_takes h f hk, State.callPlatform_good (s := s.tookGood) hkey hplatform hfields,
      State.applyPlatform_live (s := s.tookGood) hfind hlive, State.tookGood_env, hcovers, if_neg (by decide),
      if_pos hhere]
    exact congrArg _ (State.finish_tookGood_onCtb hq _)
  · rw [exec_callCancel_of_takes h f hk, State.callCancel_absent (s := s.tookGood) hkey hfind,
      State.finish_tookGood hq]
  · obtain ⟨hi, hother, _, _, hsck, _⟩ := State.raise_frame i
      (r.enter .cancelled s.tookGood.env.now).nextEpoch .cancelled true s.tookGood (by decide)
    obtain ⟨r', hr, hcancelled⟩ := CallRec.held_but_fired hi (fired := r.fired) rfl
    rw [CallRec.cancelled_eq hlive] at hcancelled
    refine ⟨_, r', exec_callCancel_of_takes h f hk, ?_⟩
    simp only [State.callCancel_live (s := s.tookGood) hkey hfind hlive, State.finish_ctb, State.finish_sck]
    exact ⟨hr, hcancelled, hother, hsck⟩
  · rw [exec_callCancel_of_takes h f hk, State.callCancel_cancelled (s := s.tookGood) hkey hfind hst,
      State.finish_tookGood hq]
  · rw [exec_callPlatform_of_takes h f hk, State.callPlatform_good (s := s.tookGood) hkey hplatform hfields,
      State.applyPlatform_cancelled (s := s.tookGood) hfind hst, State.tookGood_env, hcovers, if_neg (by decide),
      if_neg haway]
    exact congrArg _ (State.finish_tookGood_onCtb hq _)
  · rw [exec_callPlatform_of_takes h f hk, State.callPlatform_good (s := s.tookGood) hkey hplatform hfields,
      State.applyPlatform_cancelled (s := s.tookGood) hfind hst, State.tookGood_env, hcovers, if_neg (by decide),
      if_pos hhere, hignored]
    exact congrArg _ (State.finish_tookGood_onCtb hq _)
  · rw [exec_callPlatform_of_takes h f hk, State.callPlatform_good (s := s.tookGood) hkey hplatform hfields,
      State.applyPlatform_cancelled (s := s.tookGood) hfind hst, State.tookGood_env, if_pos hcovers]
    exact congrArg _ (State.finish_tookGood_onCtb hq _)
  · rw [exec_callPlatform_of_takes h f hk, State.callPlatform_good (s := s.tookGood) hkey hplatform hfields,
      State.applyPlatform_ended (s := s.tookGood) hfind hended, hignored]
    exact congrArg _ (State.finish_tookGood_onCtb hq _)
  · rw [exec_callPlatform_of_takes h f hk, State.callPlatform_good (s := s.tookGood) hkey hplatform hfields, hcomplete,
      Option.bind_none, State.applyPlatform_absent (s := s.tookGood) hfind, State.tookGood_env, hcovers,
      if_neg (by decide), hignored]
    exact congrArg _ (State.finish_tookGood_onCtb hq _)
  · rw [exec_callPlatform_of_takes h f hk, State.callPlatform_good (s := s.tookGood) hkey hplatform hfields,
      State.applyPlatform_absent_uncovered (s := s.tookGood) hfind hcovers, State.finish_tookGood hq]
  · rw [exec_callCancel_of_takes h f hk, State.callCancel_ended (s := s.tookGood) hkey hfind hended]
    exact congrArg _ (State.finish_tookGood_onCtb hq _)

end Sys2Proof.Machine
end

section
/-! PROOFS. The whole-second signal and the end of the day (R24, R28, R35), and what the berth inputs do to the calls of
their platforms (R18 to R22). -/
namespace Sys2Proof.Machine

/-! ### Acts that change one place each -/

section onePlace
variable {act : State → Fin 96 → State} (hother : ∀ u j k, k ≠ j → (act u j).ctb.places.get k = u.ctb.places.get k)
include hother

/-- A place that none of the acts is about stands. -/
theorem State.foldl_place_of_not_mem {l : List (Fin 96)} {i : Fin 96} (hi : i ∉ l) (s : State) :
    (l.foldl act s).ctb.places.get i = s.ctb.places.get i := by
  induction l generalizing s with
  | nil => rfl
  | cons j rest ih =>
    exact (ih (List.not_mem_of_not_mem_cons hi) _).trans (hother s j i (List.ne_of_not_mem_cons hi))

/-- A place that one of the acts is about holds what that act leaves, made in the surroundings of the first state on what
the place held there. -/
theorem State.foldl_place_of_mem (hsame : ∀ (u : State) j, u.SameSurroundings (act u j)) {l : List (Fin 96)} (hl : l.Nodup)
    {i : Fin 96} (hi : i ∈ l) (s : State) :
    ∃ v, s.SameSurroundings v ∧ v.ctb.places.get i = s.ctb.places.get i ∧
      (l.foldl act s).ctb.places.get i = (act v i).ctb.places.get i := by
  induction l generalizing s with
  | nil => cases hi
  | cons j rest ih =>
    obtain ⟨hj, hrest⟩ := List.nodup_cons.mp hl
    by_cases hij : i = j
    · subst hij
      exact ⟨s, .refl s, rfl, State.foldl_place_of_not_mem hother hj _⟩
    · obtain ⟨v, hv, hplace, hfold⟩ := ih hrest (List.mem_of_ne_of_mem hij hi) (act s j)
      exact ⟨v, (hsame s j).trans hv, hplace.trans (hother s j i hij), hfold⟩

end onePlace

/-! ### The whole-second signal (R35, R45) -/

/-- What an evaluation sets depends on the clock and the triggers in force. -/
theorem State.SameSurroundings.firedAfter {s t : State} (h : s.SameSurroundings t) (r : CallRec) :
    t.firedAfter r = s.firedAfter r := by
  obtain ⟨hsck, hcfl, _⟩ := h
  simp only [State.firedAfter, State.triggers, hsck, hcfl]

/-- The evaluation of every record sets the flags of its due pairs, and leaves it otherwise (R45, R46). -/
theorem State.evaluateAll_held {s : State} {i : Fin 96} {r : CallRec} (h : s.ctb.places.get i = .held r) :
    s.evaluateAll.ctb.places.get i = .held { r with fired := s.firedAfter r } := by
  obtain ⟨v, hsame, hplace, hfold⟩ := State.foldl_place_of_mem
    (fun u j k hk => (State.evaluate_frame u j).2.2.2 k hk) (fun u j => (State.evaluate_frame u j).1)
    (List.nodup_finRange 96) (List.mem_finRange i) s
  obtain ⟨hctb, _⟩ := State.evaluate_held (hplace.trans h)
  unfold State.evaluateAll
  rw [hfold, hctb]
  simp [hsame.firedAfter]

/-- What the whole-second signal does to the Call Table, and what it leaves (R35, R163). -/
theorem State.wholeSecond_frame (s : State) :
    s.wholeSecond.sck = { s.sck with secondDue := false } ∧ s.wholeSecond.cfl = s.cfl ∧
      s.wholeSecond.elapsed = s.elapsed ∧ s.wholeSecond.pending = s.pending ∧
      s.ctb.SameInputs s.wholeSecond.ctb ∧ s.wholeSecond.ctb.counts = s.ctb.counts ∧
      (∀ i r, s.ctb.places.get i = .held r →
        s.wholeSecond.ctb.places.get i = .held { r with fired := s.firedAfter r }) ∧
      (∀ i, (∀ r, s.ctb.places.get i ≠ .held r) → s.wholeSecond.ctb.places.get i = s.ctb.places.get i) ∧
      s.wholeSecond.play.vsu.lastMinute = some (clockMinute s.env.dayStart s.sck.time) := by
  have hfired : ∀ r, (s.onSck fun c => { c with secondDue := false }).firedAfter r = s.firedAfter r := fun r => rfl
  obtain ⟨hsame, hinputs, hcounts, _, hnone⟩ := State.evaluateAll_frame (s.onSck fun c => { c with secondDue := false })
  have henv : (s.onSck fun c => { c with secondDue := false }).evaluateAll.env = s.env := hsame.env
  obtain ⟨hsck, hcfl, helapsed, hpending⟩ := hsame
  unfold State.wholeSecond
  rw [State.onPlay_sck, State.onPlay_cfl, State.onPlay_elapsed, State.onPlay_pending, State.onPlay_ctb,
    State.onPlay_play, henv]
  exact ⟨hsck, hcfl, helapsed, hpending, hinputs, hcounts,
    fun i r h => hfired r ▸ State.evaluateAll_held (s := s.onSck fun c => { c with secondDue := false }) h, hnone, rfl⟩

/-! ### Days (R24, R28, R34) -/

/-- A record expected before −60 after the rollover is removed (R24). -/
theorem CallRec.rollOver_of_lt {r : CallRec} (h : expectedTime (r.booked - 1440) r.delay < -60) : r.rollOver = none := by
  unfold CallRec.rollOver
  exact if_pos h

theorem CallRec.rollOver_of_le {r : CallRec} (h : -60 ≤ expectedTime (r.booked - 1440) r.delay) :
    r.rollOver = some { r with booked := r.booked - 1440, expected := expectedTime (r.booked - 1440) r.delay,
                               qualified := max (-1440) (r.qualified - 1440) } := by
  unfold CallRec.rollOver
  exact if_neg (Int.not_lt.mpr h)

@[simp] theorem State.rollOver_ctb (s : State) : s.rollOver.ctb = s.ctb.mapHeld CallRec.rollOver := by
  unfold State.rollOver
  rw [State.onCtb_ctb]

/-- What a rollover followed by the evaluation of every record leaves of the table (R24, R35). -/
theorem State.rollOver_second_frame (s : State) :
    (∀ i r, s.ctb.places.get i = .held r → expectedTime (r.booked - 1440) r.delay < -60 →
      s.rollOver.wholeSecond.ctb.places.get i = .free) ∧
    (∀ i r, s.ctb.places.get i = .held r → -60 ≤ expectedTime (r.booked - 1440) r.delay →
      ∃ r', s.rollOver.wholeSecond.ctb.places.get i = .held r' ∧ { r' with fired := r.fired } =
        { r with booked := r.booked - 1440, expected := expectedTime (r.booked - 1440) r.delay,
                 qualified := max (-1440) (r.qualified - 1440) }) ∧
    (∀ i, s.ctb.places.get i = .free → s.rollOver.wholeSecond.ctb.places.get i = .free) := by
  obtain ⟨_, _, _, _, _, _, hheld, hnone, _⟩ := State.wholeSecond_frame s.rollOver
  have hfree : ∀ i, s.rollOver.ctb.places.get i = .free → s.rollOver.wholeSecond.ctb.places.get i = .free :=
    fun i hi => (hnone i fun r hr => by rw [hi] at hr; cases hr).trans hi
  refine ⟨fun i r hr hlt => hfree i ?_, fun i r hr hle => ?_, fun i hi => hfree i ?_⟩
  · rw [State.rollOver_ctb, CallTable.mapHeld_get_of_held _ hr, CallRec.rollOver_of_lt hlt, Option.elim_none]
  · refine CallRec.held_but_fired ⟨_, hheld i _ ?_⟩ rfl
    rw [State.rollOver_ctb, CallTable.mapHeld_get_of_held _ hr, CallRec.rollOver_of_le hle, Option.elim_some]
  · rw [State.rollOver_ctb, CallTable.mapHeld_get_of_not_held _ (by simp [hi]), hi]

theorem CallTable.mapHeld_beside (c : CallTable) (f : CallRec → Option CallRec) :
    c.SameInputs (c.mapHeld f) ∧ (c.mapHeld f).counts = c.counts := by
  unfold CallTable.mapHeld CallTable.SameInputs
  exact ⟨⟨rfl, rfl, rfl⟩, rfl⟩

theorem State.rollOver_same (s : State) : s.SameSurroundings s.rollOver := by
  unfold State.rollOver
  exact State.onCtb_same s _

/-- What the end of the service day does (R24, R34). -/
theorem State.dayEnd_frame (s : State) :
    s.dayEnd.sck = { s.sck with time := 0, day := s.sck.day + 1, dayEndDue := false, secondDue := false } ∧
    (∀ i r, s.ctb.places.get i = .held r → expectedTime (r.booked - 1440) r.delay < -60 →
      s.dayEnd.ctb.places.get i = .free) ∧
    (∀ i r, s.ctb.places.get i = .held r → -60 ≤ expectedTime (r.booked - 1440) r.delay →
      ∃ r', s.dayEnd.ctb.places.get i = .held r' ∧ { r' with fired := r.fired } =
        { r with booked := r.booked - 1440, expected := expectedTime (r.booked - 1440) r.delay,
                 qualified := max (-1440) (r.qualified - 1440) }) ∧
    (∀ i, s.ctb.places.get i = .free → s.dayEnd.ctb.places.get i = .free) ∧
    s.ctb.SameInputs s.dayEnd.ctb ∧ s.dayEnd.ctb.counts = s.ctb.counts ∧ s.dayEnd.cfl = s.cfl ∧
    s.dayEnd.elapsed = s.elapsed ∧ s.dayEnd.pending = s.pending := by
  unfold State.dayEnd
  generalize hu : (s.onSck fun c => { c with time := 0, day := c.day + 1, dayEndDue := false }) = u
  have huctb : u.ctb = s.ctb := by rw [← hu, State.onSck_ctb]
  obtain ⟨hsck, hcfl, helapsed, hpending, hinputs, hcounts, _⟩ := State.wholeSecond_frame u.rollOver
  obtain ⟨hremoved, hkept, hfree⟩ := State.rollOver_second_frame u
  obtain ⟨hsck', hcfl', helapsed', hpending'⟩ := u.rollOver_same
  rw [State.rollOver_ctb] at hinputs hcounts
  obtain ⟨hinputs', hcounts'⟩ := u.ctb.mapHeld_beside CallRec.rollOver
  rw [huctb] at *
  refine ⟨?_, hremoved, hkept, hfree, ?_, ?_, ?_, ?_, ?_⟩
  · rw [hsck, hsck', ← hu, State.onSck_sck]
  · obtain ⟨ho, ha, hs⟩ := hinputs'
    obtain ⟨ho', ha', hs'⟩ := hinputs
    exact ⟨ho'.trans ho, ha'.trans ha, hs'.trans hs⟩
  · exact hcounts.trans hcounts'
  · rw [hcfl, hcfl', ← hu, State.onSck_cfl]
  · rw [helapsed, helapsed', ← hu, State.onSck_elapsed]
  · rw [hpending, hpending', ← hu, State.onSck_pending]

@[simp] theorem State.finish_elapsed (s : State) : s.finish.elapsed = s.elapsed := by
  unfold State.finish
  rw [State.onPlay_elapsed]

@[simp] theorem State.finish_pending (s : State) : s.finish.pending = s.pending := by
  unfold State.finish
  rw [State.onPlay_pending]

@[simp] theorem State.finish_vsu (s : State) : s.finish.play.vsu = s.play.vsu := by
  obtain ⟨_, _, _, _, _, hvsu, _⟩ := s.finish_frame
  exact hvsu

theorem exec_stationDayEnd (s : State) :
    exec .stationDayEnd s = .next (s.when s.sck.dayEndDue State.dayEnd).finish := rfl

theorem exec_wholeSecond (s : State) :
    exec .wholeSecond s = .next (s.when s.sck.secondDue State.wholeSecond).finish := rfl

/-- Settles O34, from what the end of a day and a whole second do to each place of the table. -/
theorem secondsAndDays : Obligations.SecondsAndDays := by
  intro s
  refine ⟨fun hdue => ?_, fun hdue => ?_, fun hq hdue => ?_, fun hq hdue => ?_⟩
  · rw [exec_stationDayEnd, hdue, State.when_true]
    refine ⟨_, rfl, ?_⟩
    simp only [State.finish_sck, State.finish_ctb, State.finish_cfl, State.finish_elapsed, State.finish_pending]
    exact s.dayEnd_frame
  · obtain ⟨hsck, hcfl, helapsed, hpending, hinputs, hcounts, hheld, hnone, hminute⟩ := s.wholeSecond_frame
    rw [exec_wholeSecond, hdue, State.when_true]
    refine ⟨_, rfl, ?_⟩
    simp only [State.finish_sck, State.finish_ctb, State.finish_cfl, State.finish_elapsed, State.finish_pending,
      State.finish_vsu]
    exact ⟨hsck, hheld, fun i hi => (hnone i fun r hr => by rw [hi] at hr; cases hr).trans hi, hinputs, hcounts, hminute,
      hcfl, helapsed, hpending⟩
  · rw [exec_stationDayEnd, hdue, State.when_false, State.finish_of_quiet hq]
  · rw [exec_wholeSecond, hdue, State.when_false, State.finish_of_quiet hq]

end Sys2Proof.Machine
end

section
/-! PROOFS. What the berth inputs do to the calls of their platforms (R18 to R21), and the retirement of a second (R22). -/
namespace Sys2Proof.Machine

/-! ### What a search of the table reads -/

theorem CallTable.held_congr {c d : CallTable} (h : d.places = c.places) : d.held = c.held := by
  simp only [CallTable.held, h]

theorem CallTable.find_congr {c d : CallTable} (h : d.places = c.places) (code : Code) (kind : CallKind) :
    d.find code kind = c.find code kind := by simp only [CallTable.find, CallTable.held_congr h]

theorem State.earliest_congr {s t : State} (h : t.ctb.places = s.ctb.places) (test : CallRec → Bool) :
    t.earliest test = s.earliest test := by simp only [State.earliest, CallTable.held_congr h]

/-- A record found stays the one found while the places of its kind stand. -/
theorem CallTable.find_of_others {c d : CallTable} {code : Code} {kind : CallKind} {j : Fin 96} {r r' : CallRec}
    (hr : c.places.get j = .held r) (hr' : d.places.get j = .held r') (hkind : r.kind ≠ kind) (hkind' : r'.kind ≠ kind)
    (hothers : ∀ k, k ≠ j → d.places.get k = c.places.get k) (k : Fin 96) (x : CallRec) :
    d.find code kind = some (k, x) ↔ c.find code kind = some (k, x) := by
  have hsame : ∀ k x, x.kind = kind → (d.places.get k = .held x ↔ c.places.get k = .held x) := fun k x hx => by
    by_cases hk : k = j
    · subst hk
      rw [hr, hr']
      constructor <;> rintro ⟨⟩ <;> contradiction
    · rw [hothers k hk]
  rw [CallTable.find_eq_some_iff, CallTable.find_eq_some_iff]
  constructor
  · rintro ⟨hheld, hcode, hx, hfirst⟩
    exact ⟨(hsame k x hx).mp hheld, hcode, hx, fun l y hl hy hkey =>
      hfirst l y hl ((hsame l y hkey.2).mpr hy) hkey⟩
  · rintro ⟨hheld, hcode, hx, hfirst⟩
    exact ⟨(hsame k x hx).mpr hheld, hcode, hx, fun l y hl hy hkey =>
      hfirst l y hl ((hsame l y hkey.2).mp hy) hkey⟩

/-- A record lies near when the clock is UNSET or it is expected within the milliseconds, either side (R19, R20). -/
theorem State.near_iff (s : State) (ms : Nat) (r : CallRec) : s.near ms r = true ↔ s.sck.state = .unset ∨
    r.expected * 60000 - (s.sck.time : Int) ≤ ms ∧ (s.sck.time : Int) - r.expected * 60000 ≤ ms := by
  unfold State.near
  rw [Bool.or_eq_true, decide_eq_true_eq, decide_eq_true_eq]
  refine or_congr Iff.rfl ?_
  omega

/-! ### Edges (R18) -/

/-- The debounced level of an input is taken. -/
def State.takenLevel (l : BerthLine) (i : Fin 8) (level : Bool) (s : State) : State :=
  s.onCtb fun c => c.onInput l i fun d => { d with level := some level }

@[simp] theorem State.takenLevel_places (l : BerthLine) (i : Fin 8) (level : Bool) (s : State) :
    (s.takenLevel l i level).ctb.places = s.ctb.places := CallTable.onInput_places _ _ _ _

@[simp] theorem State.takenLevel_counts (l : BerthLine) (i : Fin 8) (level : Bool) (s : State) :
    (s.takenLevel l i level).ctb.counts = s.ctb.counts := by cases l <;> rfl

theorem State.takenLevel_same (l : BerthLine) (i : Fin 8) (level : Bool) (s : State) :
    s.SameSurroundings (s.takenLevel l i level) := State.onCtb_same s _

@[simp] theorem State.takenLevel_env (l : BerthLine) (i : Fin 8) (level : Bool) (s : State) :
    (s.takenLevel l i level).env = s.env := (s.takenLevel_same l i level).env

@[simp] theorem State.takenLevel_near (l : BerthLine) (i : Fin 8) (level : Bool) (s : State) (ms : Nat) :
    (s.takenLevel l i level).near ms = s.near ms := rfl

@[simp] theorem State.takenLevel_earliest (l : BerthLine) (i : Fin 8) (level : Bool) (s : State)
    (test : CallRec → Bool) : (s.takenLevel l i level).earliest test = s.earliest test :=
  State.earliest_congr (s.takenLevel_places l i level) test

@[simp] theorem State.takenLevel_find (l : BerthLine) (i : Fin 8) (level : Bool) (s : State) (code : Code)
    (kind : CallKind) : (s.takenLevel l i level).ctb.find code kind = s.ctb.find code kind :=
  CallTable.find_congr (s.takenLevel_places l i level) code kind

theorem State.Quiet.takenLevel {s : State} (h : s.Quiet) (l : BerthLine) (i : Fin 8) (level : Bool) :
    (s.takenLevel l i level).Quiet := h.onCtb _

/-- A level held for 2 s after the other one is an edge, which acts on each platform tied to the input (R18). -/
theorem State.takeLevel_edge {s : State} {l : BerthLine} {i : Fin 8} {level : Bool} (act : State → Nat → State)
    (hraw : (s.ctb.line l i).raw = level) (hlevel : (s.ctb.line l i).level = some !level)
    (hsince : (s.ctb.line l i).since + 2000 ≤ s.elapsed) (hload : s.cfl.load = .running) :
    s.takeLevel l i level act = (s.platformsOf l i).foldl act (s.takenLevel l i level) := by
  have hdue : (s.ctb.line l i).due level s.elapsed = true := by simp [Debounce.due, hraw, hlevel, hsince]
  unfold State.takeLevel
  rw [if_pos hdue, if_pos (by rw [hlevel]; exact decide_eq_true hload)]
  rfl

/-- The edge on the one platform tied to an input. -/
theorem State.takeLevel_edge_on {s : State} {l : BerthLine} {i : Fin 8} {level : Bool} {n : Nat}
    (act : State → Nat → State) (hraw : (s.ctb.line l i).raw = level) (hlevel : (s.ctb.line l i).level = some !level)
    (hsince : (s.ctb.line l i).since + 2000 ≤ s.elapsed) (hload : s.cfl.load = .running)
    (hn : s.platformsOf l i = [n]) : s.takeLevel l i level act = act (s.takenLevel l i level) n := by
  rw [State.takeLevel_edge act hraw hlevel hsince hload, hn, List.foldl_cons, List.foldl_nil]

/-- The first level ever taken raises no event (R18). -/
theorem State.takeLevel_first {s : State} {l : BerthLine} {i : Fin 8} {level : Bool} (act : State → Nat → State)
    (hraw : (s.ctb.line l i).raw = level) (hlevel : (s.ctb.line l i).level = none)
    (hsince : (s.ctb.line l i).since + 2000 ≤ s.elapsed) : s.takeLevel l i level act = s.takenLevel l i level := by
  have hdue : (s.ctb.line l i).due level s.elapsed = true := by simp [Debounce.due, hraw, hlevel, hsince]
  unfold State.takeLevel
  rw [if_pos hdue, if_neg (by simp [hlevel])]
  rfl

/-- An edge that acts on nothing. -/
theorem State.takeLevel_no_act {s : State} {l : BerthLine} {i : Fin 8} {level : Bool}
    (hraw : (s.ctb.line l i).raw = level) (hlevel : (s.ctb.line l i).level ≠ some level)
    (hsince : (s.ctb.line l i).since + 2000 ≤ s.elapsed) :
    s.takeLevel l i level (fun s _ => s) = s.takenLevel l i level := by
  have hdue : (s.ctb.line l i).due level s.elapsed = true := by simp [Debounce.due, hraw, hlevel, hsince]
  unfold State.takeLevel
  rw [if_pos hdue]
  dsimp only
  split
  · exact List.foldl_fixed _
  · rfl

/-! ### A call that enters a state by its platform's input (R5, R19, R20) -/

/-- The record with which a call of another state enters APPROACHING or AT_PLATFORM. -/
theorem CallRec.enter_arrival {r : CallRec} {st : CallState} (hst : st = .approaching ∨ st = .atPlatform)
    (hne : r.state ≠ st) (now : Instant) :
    r.enter st now = { r with state := st, entered := now, hold := none } := by
  rcases hst with rfl | rfl <;> simp [CallRec.enter, hne]

/-- The earliest booked arrival of a platform that lies near approaches (R19). -/
theorem State.approachPlatform_of_earliest {s : State} {n : Nat} {j : Fin 96} {r : CallRec}
    (h : s.earliest (fun r => r.platform = n && r.kind = .arr && r.state = .booked && s.near 1800000 r) = some (j, r)) :
    s.approachPlatform n =
      s.raise j { r with state := .approaching, entered := s.env.now, hold := none } .approaching false := by
  have htest := (State.earliest_spec h).2.1
  simp only [Bool.and_eq_true, decide_eq_true_eq] at htest
  obtain ⟨⟨_, hbooked⟩, _⟩ := htest
  unfold State.approachPlatform
  rw [h]
  dsimp only
  rw [CallRec.enter_arrival (.inl rfl) (by simp [hbooked])]

theorem State.approachPlatform_of_none {s : State} {n : Nat}
    (h : s.earliest (fun r => r.platform = n && r.kind = .arr && r.state = .booked && s.near 1800000 r) = none) :
    s.approachPlatform n = s.countCtb fun c => { c with unmatched := bump c.unmatched } := by
  unfold State.approachPlatform
  rw [h]

theorem exec_approachAssert (i : Fin 8) (s : State) :
    exec (.approachAssert i) s = .next (s.takeLevel .approach i true State.approachPlatform).finish := rfl

theorem exec_approachClear (i : Fin 8) (s : State) :
    exec (.approachClear i) s = .next (s.takeLevel .approach i false fun s _ => s) := rfl

/-- Settles O37: an edge on one platform, with the earliest call of that platform. -/
theorem approachEdges : Obligations.ApproachEdges := by
  refine ⟨fun s i => ⟨fun level => ⟨rfl, rfl⟩, fun hsince => ⟨fun n hraw hlevel hload hn => ⟨fun j r hbest => ?_,
    fun hq hnone => ?_⟩, fun hq hraw hlevel => ?_, fun hraw hlevel => ?_⟩⟩,
    fun s test => ⟨s.earliest_eq_some_iff test, s.earliest_eq_none_iff test⟩, State.near_iff⟩
  · obtain ⟨hplace, hothers, ⟨hocc, happ, _⟩, hcounts, hsck, hcfl, _⟩ := State.raise_frame j
      { r with state := .approaching, entered := s.env.now, hold := none } .approaching false
      (s.takenLevel .approach i true) (by decide)
    obtain ⟨r', hr', hfired⟩ := CallRec.held_but_fired hplace rfl
    rw [exec_approachAssert, State.takeLevel_edge_on (l := .approach) _ hraw hlevel hsince hload hn,
      State.approachPlatform_of_earliest (s := s.takenLevel .approach i true) ((s.takenLevel_earliest ..).trans hbest),
      State.takenLevel_env]
    refine ⟨_, r', rfl, ?_⟩
    rw [State.finish_ctb, State.finish_sck, State.finish_cfl]
    refine ⟨hr', hfired, fun k hk => (hothers k hk).trans (by rw [State.takenLevel_places]), ?_, hocc, hcounts, hsck,
      hcfl⟩
    rw [happ]
    exact upd_get_self _ _ _
  · rw [exec_approachAssert, State.takeLevel_edge_on (l := .approach) _ hraw hlevel hsince hload hn,
      State.approachPlatform_of_none (s := s.takenLevel .approach i true) ((s.takenLevel_earliest ..).trans hnone)]
    exact congrArg _ (State.finish_of_quiet ((hq.takenLevel .approach i true).onCtb _))
  · rw [exec_approachAssert, State.takeLevel_first (l := .approach) _ hraw hlevel hsince]
    exact congrArg _ (State.finish_of_quiet (hq.takenLevel .approach i true))
  · rw [exec_approachClear, State.takeLevel_no_act (l := .approach) hraw hlevel hsince]
    rfl

/-! ### The occupancy input (R20, R21) -/

/-- A call of another state that enters AT_PLATFORM. -/
theorem State.atPlatform_frame {s : State} {j : Fin 96} {r : CallRec} (hne : r.state ≠ .atPlatform) :
    (∃ r', (s.atPlatform j r).ctb.places.get j = .held r' ∧
      { r' with fired := r.fired } = { r with state := .atPlatform, entered := s.env.now, hold := none }) ∧
    (∀ k, k ≠ j → (s.atPlatform j r).ctb.places.get k = s.ctb.places.get k) ∧
    (s.atPlatform j r).ctb.counts = s.ctb.counts ∧ s.SameSurroundings (s.atPlatform j r) := by
  unfold State.atPlatform
  rw [CallRec.enter_arrival (.inr rfl) hne]
  obtain ⟨hplace, hothers, _, hcounts, hsame⟩ := State.raise_frame j
    { r with state := .atPlatform, entered := s.env.now, hold := none } .atPlatform false s (by decide)
  exact ⟨CallRec.held_but_fired hplace rfl, hothers, hcounts, hsame⟩

/-- A departure that the forms code of the arrival names, BOOKED at the platform, enters with it (R20). -/
theorem State.occupyPlatform_linked {s : State} {n : Nat} {j k : Fin 96} {r d : CallRec}
    (h : s.earliest (fun r => r.platform = n && r.kind = .arr && r.state = .approaching) = some (j, r))
    (hlink : r.forms.bind (fun c => (s.atPlatform j r).ctb.find c .dep) = some (k, d)) (hstate : d.state = .booked)
    (hplatform : d.platform = n) : s.occupyPlatform n = (s.atPlatform j r).atPlatform k d := by
  obtain ⟨code, hcode, hfind⟩ := Option.bind_eq_some_iff.mp hlink
  unfold State.occupyPlatform
  simp only [h, hcode, hfind]
  exact if_pos (by simp [hstate, hplatform])

/-- Any other forms link takes no record (R20). -/
theorem State.occupyPlatform_alone {s : State} {n : Nat} {j : Fin 96} {r : CallRec}
    (h : s.earliest (fun r => r.platform = n && r.kind = .arr && r.state = .approaching) = some (j, r))
    (hlink : ∀ k d, r.forms.bind (fun c => (s.atPlatform j r).ctb.find c .dep) = some (k, d) →
      d.state ≠ .booked ∨ d.platform ≠ n) : s.occupyPlatform n = s.atPlatform j r := by
  unfold State.occupyPlatform
  cases hcode : r.forms with
  | none => simp only [h, hcode]
  | some code =>
    cases hfind : (s.atPlatform j r).ctb.find code .dep with
    | none => simp only [h, hcode, hfind]
    | some x =>
      obtain ⟨k, d⟩ := x
      simp only [h, hcode, hfind]
      refine if_neg ?_
      rw [Bool.and_eq_true, decide_eq_true_eq, decide_eq_true_eq, not_and_or]
      exact hlink k d (by rw [hcode]; exact hfind)

theorem State.occupyPlatform_departure {s : State} {n : Nat} {j : Fin 96} {r : CallRec}
    (harr : s.earliest (fun r => r.platform = n && r.kind = .arr && r.state = .approaching) = none)
    (h : s.earliest (fun r => r.platform = n && r.kind = .dep && r.state = .booked && s.near 3600000 r) = some (j, r)) :
    s.occupyPlatform n = s.atPlatform j r := by
  unfold State.occupyPlatform
  simp only [harr, h]

theorem State.occupyPlatform_unexpected {s : State} {n : Nat}
    (harr : s.earliest (fun r => r.platform = n && r.kind = .arr && r.state = .approaching) = none)
    (h : s.earliest (fun r => r.platform = n && r.kind = .dep && r.state = .booked && s.near 3600000 r) = none) :
    s.occupyPlatform n = s.onPlay fun e p => p.fault e .platformUnexpected n := by
  unfold State.occupyPlatform
  simp only [harr, h]

/-- A fault report leaves nothing gathered for the end of the command. -/
theorem State.Quiet.fault {s : State} (h : s.Quiet) (k : FaultKind) (source : Nat) :
    (s.onPlay fun e p => p.fault e k source).Quiet := by
  obtain ⟨hout, hheld, hgate⟩ := h
  exact ⟨(Net.report_outbox ..).trans hout, (Net.report_held ..).trans hheld, hgate⟩

/-- The forms link of the arrival reads as before once the arrival is AT_PLATFORM: it names a departure. -/
theorem State.forms_after_atPlatform {s : State} {j : Fin 96} {r : CallRec} (hheld : s.ctb.places.get j = .held r)
    (hkind : r.kind = .arr) (hne : r.state ≠ .atPlatform) (k : Fin 96) (d : CallRec) :
    r.forms.bind (fun c => (s.atPlatform j r).ctb.find c .dep) = some (k, d) ↔
      r.forms.bind (fun c => s.ctb.find c .dep) = some (k, d) := by
  obtain ⟨⟨r', hr', hfired⟩, hothers, _⟩ := State.atPlatform_frame (s := s) (j := j) hne
  have hkind' : r'.kind = .arr := (congrArg CallRec.kind hfired).trans hkind
  have hfind := fun code => CallTable.find_of_others (code := code) (kind := .dep) hheld hr' (by rw [hkind]; decide)
    (by rw [hkind']; decide) hothers k d
  simp only [Option.bind_eq_some_iff, hfind]

/-- What the earliest approaching arrival does when its platform is taken: it is AT_PLATFORM, and with it the departure
that its forms code names where that is BOOKED there (R20). -/
theorem State.occupyPlatform_arrival_frame {s : State} {n : Nat} {j : Fin 96} {r : CallRec}
    (hbest : s.earliest (fun r => r.platform = n && r.kind = .arr && r.state = .approaching) = some (j, r)) :
    (∃ r', (s.occupyPlatform n).ctb.places.get j = .held r' ∧
      { r' with fired := r.fired } = { r with state := .atPlatform, entered := s.env.now, hold := none }) ∧
    (s.occupyPlatform n).ctb.counts = s.ctb.counts ∧ s.SameSurroundings (s.occupyPlatform n) ∧
    (∀ k d, r.forms.bind (fun c => s.ctb.find c .dep) = some (k, d) → d.state = .booked → d.platform = n →
      (∃ d', (s.occupyPlatform n).ctb.places.get k = .held d' ∧
        { d' with fired := d.fired } = { d with state := .atPlatform, entered := s.env.now, hold := none }) ∧
      ∀ l, l ≠ j → l ≠ k → (s.occupyPlatform n).ctb.places.get l = s.ctb.places.get l) ∧
    ((∀ k d, r.forms.bind (fun c => s.ctb.find c .dep) = some (k, d) → d.state ≠ .booked ∨ d.platform ≠ n) →
      ∀ l, l ≠ j → (s.occupyPlatform n).ctb.places.get l = s.ctb.places.get l) := by
  obtain ⟨hheld, htest, _⟩ := State.earliest_spec hbest
  simp only [Bool.and_eq_true, decide_eq_true_eq] at htest
  obtain ⟨⟨_, hkind⟩, hstate⟩ := htest
  have hne : r.state ≠ .atPlatform := by simp [hstate]
  have hforms := State.forms_after_atPlatform hheld hkind hne
  obtain ⟨harrived, hothers, hcounts, hsame⟩ := State.atPlatform_frame (s := s) (j := j) hne
  by_cases hlink : ∃ k d, r.forms.bind (fun c => s.ctb.find c .dep) = some (k, d) ∧ d.state = .booked ∧ d.platform = n
  · obtain ⟨k, d, hkd, hbooked, hplatform⟩ := hlink
    obtain ⟨code, _, hcode⟩ := Option.bind_eq_some_iff.mp hkd
    obtain ⟨hd, _, hdep⟩ := CallTable.held_of_find hcode
    have hkj : k ≠ j := fun h => by
      rw [h, hheld] at hd
      rw [Place.held.inj hd, hdep] at hkind
      cases hkind
    obtain ⟨hd', hothers', hcounts', hsame'⟩ := State.atPlatform_frame (s := s.atPlatform j r) (j := k) (r := d)
      (by simp [hbooked])
    rw [hsame.env] at hd'
    rw [State.occupyPlatform_linked hbest ((hforms k d).mpr hkd) hbooked hplatform, hothers' j hkj.symm]
    refine ⟨harrived, hcounts'.trans hcounts, hsame.trans hsame', fun l x hx _ _ => ?_, fun hnone => ?_⟩
    · cases hkd.symm.trans hx
      exact ⟨hd', fun m hmj hmk => (hothers' m hmk).trans (hothers m hmj)⟩
    · rcases hnone k d hkd with h | h <;> contradiction
  · rw [State.occupyPlatform_alone hbest fun k d hkd =>
      not_and_or.mp fun h => hlink ⟨k, d, (hforms k d).mp hkd, h⟩]
    exact ⟨harrived, hcounts, hsame,
      fun k d hkd hbooked hplatform => absurd ⟨k, d, hkd, hbooked, hplatform⟩ hlink, fun _ => hothers⟩

/-- What an AT_PLATFORM record becomes when its platform clears (R5, R21). -/
def CallRec.left (r : CallRec) (now : Instant) : CallRec :=
  { r with state := (if r.kind = .dep then .departed else .complete), entered := now, hold := some 120,
           epoch := r.epoch + 1, qualified := r.expected }

/-- A platform's AT_PLATFORM record ends by an event of its kind (R21). -/
theorem State.leavePlatform_ending {s : State} {n : Nat} {j : Fin 96} {r : CallRec} (hr : s.ctb.places.get j = .held r)
    (hends : r.platform = n ∧ r.state = .atPlatform) :
    ∃ ev, ev ≠ .alteredAway ∧ s.leavePlatform n j = s.raise j (r.left s.env.now) ev true := by
  obtain ⟨hplatform, hstate⟩ := hends
  unfold State.leavePlatform
  simp only [hr]
  rw [if_pos (by simp [hplatform, hstate])]
  cases hkind : r.kind with
  | dep =>
    refine ⟨.departed, by decide, ?_⟩
    simp [CallRec.left, CallRec.nextEpoch, CallRec.qualify, CallRec.enter, hstate, hkind]
  | arr =>
    refine ⟨.complete, by decide, ?_⟩
    simp [CallRec.left, CallRec.nextEpoch, CallRec.qualify, CallRec.enter, hstate, hkind]

/-- A place that holds no AT_PLATFORM record of the platform makes nothing happen (R21). -/
theorem State.leavePlatform_staying {s : State} {n : Nat} {j : Fin 96}
    (h : ∀ r, s.ctb.places.get j = .held r → ¬ (r.platform = n ∧ r.state = .atPlatform)) : s.leavePlatform n j = s := by
  unfold State.leavePlatform
  split
  · next r hr => exact if_neg (by simpa using h r hr)
  · rfl

/-- Each place is left or changed by itself alone (R21). -/
theorem State.leavePlatform_frame (n : Nat) (s : State) (j : Fin 96) :
    (∀ k, k ≠ j → (s.leavePlatform n j).ctb.places.get k = s.ctb.places.get k) ∧
    (s.leavePlatform n j).ctb.counts = s.ctb.counts ∧ s.SameSurroundings (s.leavePlatform n j) := by
  by_cases h : ∃ r, s.ctb.places.get j = .held r ∧ r.platform = n ∧ r.state = .atPlatform
  · obtain ⟨r, hr, hends⟩ := h
    obtain ⟨ev, hev, heq⟩ := State.leavePlatform_ending hr hends
    obtain ⟨_, hothers, _, hcounts, hsame⟩ := State.raise_frame j (r.left s.env.now) ev true s hev
    rw [heq]
    exact ⟨hothers, hcounts, hsame⟩
  · rw [State.leavePlatform_staying fun r hr hends => h ⟨r, hr, hends⟩]
    exact ⟨fun _ _ => rfl, rfl, .refl s⟩

theorem State.vacatePlatform_counts (s : State) (n : Nat) : (s.vacatePlatform n).ctb.counts = s.ctb.counts := by
  unfold State.vacatePlatform
  induction allPlaces generalizing s with
  | nil => rfl
  | cons j rest ih => exact (ih _).trans (State.leavePlatform_frame n s j).2.1

/-- A place after the platform has cleared is as if it alone had been looked at (R21). -/
theorem State.vacatePlatform_place (s : State) (n : Nat) (j : Fin 96) :
    ∃ v, s.SameSurroundings v ∧ v.ctb.places.get j = s.ctb.places.get j ∧
      (s.vacatePlatform n).ctb.places.get j = (v.leavePlatform n j).ctb.places.get j := by
  unfold State.vacatePlatform allPlaces
  exact State.foldl_place_of_mem (act := State.leavePlatform n) (fun u i => (State.leavePlatform_frame n u i).1)
    (fun u i => (State.leavePlatform_frame n u i).2.2) (List.nodup_finRange 96) (List.mem_finRange j) s

/-- When a platform clears every AT_PLATFORM record of it ends, and no other (R21). -/
theorem State.vacatePlatform_held {s : State} {n : Nat} {j : Fin 96} {r : CallRec} (hr : s.ctb.places.get j = .held r) :
    (r.platform = n ∧ r.state = .atPlatform → ∃ r', (s.vacatePlatform n).ctb.places.get j = .held r' ∧
      { r' with fired := r.fired } = r.left s.env.now) ∧
    (¬ (r.platform = n ∧ r.state = .atPlatform) → (s.vacatePlatform n).ctb.places.get j = .held r) := by
  obtain ⟨v, hsame, hv, hfold⟩ := s.vacatePlatform_place n j
  rw [hr] at hv
  rw [hfold]
  refine ⟨fun hends => ?_, fun hstays => ?_⟩
  · obtain ⟨ev, hev, heq⟩ := State.leavePlatform_ending hv hends
    obtain ⟨hplace, _⟩ := State.raise_frame j (r.left v.env.now) ev true v hev
    rw [heq, ← hsame.env]
    exact CallRec.held_but_fired hplace rfl
  · rw [State.leavePlatform_staying fun x hx => ?_, hv]
    obtain rfl := Place.held.inj (hv.symm.trans hx)
    exact hstays

/-! ### Retirement (R22) -/

theorem CallRec.retire_eq (r : CallRec) : r.retire =
    r.hold.elim (some r) fun k => if k ≤ 1 then none else some { r with hold := some (k - 1) } := by
  unfold CallRec.retire
  cases r.hold <;> rfl

/-- What an elapsed second leaves in a place (R22). -/
theorem CallTable.second_frame (c : CallTable) :
    c.second.seconds = c.seconds + 1 ∧ c.second.occupancy = c.occupancy ∧ c.second.approach = c.approach ∧
    c.second.counts = c.counts ∧ (∀ j, c.places.get j = .free → c.second.places.get j = .free) ∧
    ∀ j r, c.places.get j = .held r → c.second.places.get j = r.retire.elim .free .held := by
  obtain ⟨⟨hocc, happ, _⟩, hcounts⟩ := c.mapHeld_beside CallRec.retire
  refine ⟨?_, ?_, ?_, ?_, fun j hj => ?_, fun j r hr => ?_⟩
  · simp only [CallTable.second]
  · simp only [CallTable.second, hocc]
  · simp only [CallTable.second, happ]
  · simp only [CallTable.second, hcounts]
  · rw [CallTable.second_places, CallTable.mapHeld_get_of_not_held _ (by simp [hj]), hj]
  · rw [CallTable.second_places, CallTable.mapHeld_get_of_held _ hr]

/-! ### The platforms of an input (R18) -/

theorem State.mem_platformsOf_occupancy (s : State) (i : Fin 8) (k : Nat) : k ∈ s.platformsOf .occupancy i ↔
    k ≤ 48 ∧ ∃ m, s.cfl.image = some m ∧ ∃ c ∈ m.platforms, c.platform = k ∧ c.occupancy = i := by
  unfold State.platformsOf
  cases s.cfl.image with
  | none => simp
  | some m => simp [Nat.lt_succ_iff]

theorem State.platformsOf_ascending (s : State) (l : BerthLine) (i : Fin 8) :
    (s.platformsOf l i).Pairwise (· < ·) := by
  unfold State.platformsOf
  cases s.cfl.image with
  | none => exact List.Pairwise.nil
  | some m => exact List.pairwise_lt_range.filter _

theorem exec_occupancyAssert (i : Fin 8) (s : State) :
    exec (.occupancyAssert i) s = .next (s.takeLevel .occupancy i true State.occupyPlatform).finish := rfl

theorem exec_occupancyClear (i : Fin 8) (s : State) :
    exec (.occupancyClear i) s = .next (s.takeLevel .occupancy i false State.vacatePlatform).finish := rfl

theorem exec_retireSecond (s : State) :
    exec .retireSecond s = .next (s.when s.retireDue (State.onCtb · CallTable.second)) := rfl

/-- Settles O38: an edge on one platform, with the lemmas on what it does there, and an elapsed second place by place. -/
theorem occupancyEdges : Obligations.OccupancyEdges := by
  intro s i n
  refine ⟨⟨s.mem_platformsOf_occupancy i, s.platformsOf_ascending _ i, fun hsince hload hraw hlevel => ?_⟩,
    fun hsince hload hn => ⟨fun hraw hlevel => ?_, fun hraw hlevel => ?_⟩, fun hdue => ?_, fun hearly => ?_⟩
  · rw [exec_occupancyAssert, State.takeLevel_edge (l := .occupancy) _ hraw hlevel hsince hload]
    rfl
  · have hexec : exec (.occupancyAssert i) s = .next ((s.takenLevel .occupancy i true).occupyPlatform n).finish := by
      rw [exec_occupancyAssert, State.takeLevel_edge_on (l := .occupancy) _ hraw hlevel hsince hload hn]
    have hplaces := s.takenLevel_places .occupancy i true
    have hcounts := s.takenLevel_counts .occupancy i true
    have hsame := s.takenLevel_same .occupancy i true
    have henv := s.takenLevel_env .occupancy i true
    have hquiet := fun h : s.Quiet => h.takenLevel .occupancy i true
    have hnet : (s.takenLevel .occupancy i true).play = s.play := rfl
    have htgu : (s.takenLevel .occupancy i true).tgu = s.tgu := rfl
    have hearliest := s.takenLevel_earliest .occupancy i true
    have hnear := s.takenLevel_near .occupancy i true
    have hfind := s.takenLevel_find .occupancy i true
    generalize s.takenLevel .occupancy i true = u at *
    rw [hexec]
    refine ⟨fun j r hbest => ?_, fun hnone => ⟨fun j r hbest => ?_, fun hq hbest => ?_⟩⟩
    · obtain ⟨⟨r', hr', hfired⟩, hkeeps, hsame', hlinked, halone⟩ :=
        State.occupyPlatform_arrival_frame ((hearliest _).trans hbest)
      simp only [hfind, hplaces, henv] at hfired hlinked halone
      refine ⟨_, r', rfl, ?_⟩
      rw [State.finish_ctb, State.finish_sck]
      exact ⟨hr', hfired, hkeeps.trans hcounts, (hsame.trans hsame').1, hlinked, halone⟩
    · have hbest' := (hearliest _).trans hbest
      have htest := (State.earliest_spec hbest).2.1
      simp only [Bool.and_eq_true, decide_eq_true_eq] at htest
      obtain ⟨⟨_, hbooked⟩, _⟩ := htest
      obtain ⟨⟨r', hr', hfired⟩, hothers, hkeeps, hsame'⟩ := State.atPlatform_frame (s := u) (j := j) (r := r)
        (by simp [hbooked])
      rw [State.occupyPlatform_departure ((hearliest _).trans hnone) (by rw [hnear]; exact hbest')]
      refine ⟨_, r', rfl, ?_⟩
      rw [State.finish_ctb, State.finish_sck]
      exact ⟨hr', henv ▸ hfired, fun k hk => by rw [hothers k hk, hplaces], hkeeps.trans hcounts,
        (hsame.trans hsame').1⟩
    · rw [State.occupyPlatform_unexpected ((hearliest _).trans hnone) (by rw [hnear]; exact (hearliest _).trans hbest),
        State.finish_of_quiet]
      · refine ⟨_, rfl, hplaces, ?_, hcounts, htgu, hsame.trans (State.onPlay_same _ _)⟩
        rw [State.onPlay_play, henv, hnet]
        rfl
      · exact (hquiet hq).fault .platformUnexpected n
  · rw [exec_occupancyClear, State.takeLevel_edge_on (l := .occupancy) _ hraw hlevel hsince hload hn]
    obtain ⟨hsck, hcfl, _⟩ := (s.takenLevel_same .occupancy i false).trans (State.vacatePlatform_same n _)
    refine ⟨_, rfl, ?_⟩
    rw [State.finish_ctb, State.finish_sck, State.finish_cfl]
    refine ⟨hsck, hcfl, (State.vacatePlatform_counts _ n).trans (s.takenLevel_counts ..), fun j r hr => ?_⟩
    have hr' : (s.takenLevel .occupancy i false).ctb.places.get j = .held r := by rw [State.takenLevel_places, hr]
    obtain ⟨hends, hstays⟩ := State.vacatePlatform_held (n := n) hr'
    rw [State.takenLevel_env] at hends
    exact ⟨hends, hstays⟩
  · obtain ⟨hseconds, hocc, happ, hcounts, hfree, hheld⟩ := s.ctb.second_frame
    have hretire : s.retireDue = true := decide_eq_true hdue
    rw [exec_retireSecond, hretire, State.when_true]
    refine ⟨s.ctb.second, rfl, hseconds, hocc, happ, hcounts, hfree, fun j r hr => ?_⟩
    rw [hheld j r hr, CallRec.retire_eq]
    refine ⟨fun hk => ?_, fun k hk hle => ?_, fun k hk hle => ?_⟩
    · rw [hk]; rfl
    · rw [hk, Option.elim_some, if_pos hle]; rfl
    · rw [hk, Option.elim_some, if_neg (by omega)]; rfl
  · have hretire : s.retireDue = false := decide_eq_false (by omega)
    rw [exec_retireSecond, hretire, State.when_false]

end Sys2Proof.Machine
end

section
/-! PROOFS. What leaves the queues with the calls (R25, R93): the channel operations and the starts change no more of an
entry than its state, and a sounding one goes on sounding; a removal takes its waiting entries out by id, counts them, and
marks the sounding ones. -/
namespace Sys2Proof.Machine

/-! ### Lists that agree element by element -/

theorem forall₂_comp {α : Type} {R S T : α → α → Prop} (h : ∀ a b c, R a b → S b c → T a c) :
    ∀ {l m n : List α}, List.Forall₂ R l m → List.Forall₂ S m n → List.Forall₂ T l n
  | _, _, _, .nil, .nil => .nil
  | _, _, _, .cons hab hl, .cons hbc hm => .cons (h _ _ _ hab hbc) (forall₂_comp h hl hm)

/-- An element of the second list comes from one of the first. -/
theorem forall₂_source {α : Type} {R : α → α → Prop} {l m : List α} (h : List.Forall₂ R l m) {b : α} (hb : b ∈ m) :
    ∃ a ∈ l, R a b := by
  induction h with
  | nil => cases hb
  | cons hab _ ih =>
    rcases List.mem_cons.mp hb with rfl | hb
    · exact ⟨_, List.mem_cons_self, hab⟩
    · obtain ⟨a, ha, hr⟩ := ih hb
      exact ⟨a, List.mem_cons_of_mem _ ha, hr⟩

/-- A map that keeps the relation on each element of a list. -/
theorem forall₂_map_self {α : Type} {R : α → α → Prop} {f : α → α} {l : List α} (h : ∀ a ∈ l, R a (f a)) :
    List.Forall₂ R l (l.map f) := by
  rw [List.forall₂_map_right_iff, List.forall₂_same]
  exact h

/-! ### Entries that change their state alone -/

/-- An entry with another state, sounding as before. -/
def Entry.Restated (x y : Entry) : Prop := ∃ st, y = { x with state := st } ∧ y.sounding = x.sounding

theorem Entry.Restated.refl (x : Entry) : x.Restated x := ⟨x.state, rfl, rfl⟩

theorem Entry.Restated.trans {x y z : Entry} (h : x.Restated y) (k : y.Restated z) : x.Restated z := by
  obtain ⟨a, rfl, ha⟩ := h
  obtain ⟨b, rfl, hb⟩ := k
  exact ⟨b, rfl, hb.trans ha⟩

theorem Entry.Restated.addCause (x : Entry) (f : StopCause → StopCause) : x.Restated (x.addCause f) := by
  refine ⟨(x.addCause f).state, ?_, x.addCause_sounding f⟩
  unfold Entry.addCause
  split <;> rfl

theorem Entry.Restated.start {x : Entry} (h : x.state = .queued) : x.Restated { x with state := .starting } :=
  ⟨.starting, rfl, by simp [Entry.sounding, h]⟩

theorem Entry.Restated.forall₂_trans {l m n : List Entry} (h : List.Forall₂ Entry.Restated l m)
    (k : List.Forall₂ Entry.Restated m n) : List.Forall₂ Entry.Restated l n :=
  forall₂_comp (R := Entry.Restated) (S := Entry.Restated) (fun _ _ _ hab hbc => hab.trans hbc) h k

/-- A test that reads no state selects the same of entries restated. -/
theorem Entry.Restated.forall₂_filter {l m : List Entry} (h : List.Forall₂ Entry.Restated l m) {test : Entry → Bool}
    (htest : ∀ x y, Entry.Restated x y → test y = test x) :
    List.Forall₂ Entry.Restated (l.filter test) (m.filter test) :=
  List.rel_filter (fun x y hxy => by simp [htest x y hxy]) h

theorem Entry.Restated.id {x y : Entry} (h : x.Restated y) : y.id = x.id := by
  obtain ⟨st, rfl, _⟩ := h
  rfl

/-- The entries of every queue stand, but for their states. -/
def Play.Restates (p q : Play) : Prop := ∀ o, List.Forall₂ Entry.Restated (p.zone o).queue (q.zone o).queue

theorem Play.Restates.refl (p : Play) : p.Restates p := fun _ => List.forall₂_same.mpr fun x _ => .refl x

theorem Play.Restates.trans {p q r : Play} (h : p.Restates q) (k : q.Restates r) : p.Restates r :=
  fun o => Entry.Restated.forall₂_trans (h o) (k o)

/-- What leaves the zones leaves every entry. -/
theorem Play.Restates.of_zpc {p q : Play} (h : q.zpc = p.zpc) : p.Restates q := by
  intro o
  have hzone : q.zone o = p.zone o := by simp only [Play.zone, h]
  rw [hzone]
  exact Play.Restates.refl p o

/-- A change of the Clip Fetch Unit alone. -/
theorem restates_cfu (p : Play) (c : Clips) : p.Restates { p with cfu := c } := .refl p

theorem Play.onEntries_restates (p : Play) (o : Out) {test : Entry → Bool} {f : Entry → Entry}
    (h : ∀ x ∈ (p.zone o).queue, test x = true → x.Restated (f x)) :
    p.Restates (p.onZone o fun z => z.onEntries test f) := by
  intro k
  rw [Play.onZone_zone]
  split
  · next hk =>
    subst hk
    refine forall₂_map_self fun x hx => ?_
    split
    · next ht => exact h x hx ht
    · exact .refl x
  · exact Play.Restates.refl p k

/-! ### Channels (R90, R129 to R133) -/

theorem Play.pump_zpc (ch : Chan) (p : Play) : (p.pump ch).zpc = p.zpc := by
  have hfill : (p.fillNext ch).zpc = p.zpc := by
    unfold Play.fillNext
    split <;> rfl
  have hask : ∀ q : Play, (q.askRead ch).zpc = q.zpc := fun q => by
    unfold Play.askRead
    dsimp only
    split
    · rfl
    · split
      · rfl
      · split <;> rfl
  have hgrant : ∀ q : Play, q.grantPort.zpc = q.zpc := fun q => by
    unfold Play.grantPort
    split
    · rfl
    · split <;> rfl
  unfold Play.pump
  rw [hgrant, hask, hfill]

theorem Play.assign_zpc (ch : Chan) (r : ChanRequest) (p : Play) : (p.assign ch r).zpc = p.zpc := by
  unfold Play.assign
  dsimp only
  rw [Play.pump_zpc]
  rfl

theorem Play.newRequest_zpc (r : ChanRequest) (p : Play) : (p.newRequest r).zpc = p.zpc := by
  unfold Play.newRequest
  dsimp only
  split
  · rfl
  · split
    · exact Play.assign_zpc _ r p
    · rfl

theorem Play.tellTheft_restates (ch : Chan) (taker : AnnClass) (p : Play) : p.Restates (p.tellTheft ch taker) := by
  unfold Play.tellTheft
  dsimp only
  split
  · next id hserved =>
    clear hserved
    induction outsOf (p.chan ch).members generalizing p with
    | nil => exact .refl p
    | cons o rest ih => exact (p.onEntries_restates o fun x _ _ => .addCause x _).trans (ih _)
  · exact .refl p

/-- The allocator gives stop causes to sounding entries by a theft, and changes no entry otherwise (R131, R133). -/
theorem Play.allocate_restates (n : Nat) (l : List ChanRequest) (p : Play) : p.Restates (Play.allocate n l p) := by
  induction n generalizing l p with
  | zero => exact .refl p
  | succ n ih =>
    unfold Play.allocate
    split
    · exact (Play.Restates.of_zpc (Play.assign_zpc _ _ p)).trans (ih _ _)
    · split
      · exact (Play.Restates.of_zpc (Play.newRequest_zpc _ p)).trans (ih _ _)
      · split
        · exact .refl p
        · dsimp only
          split
          · exact (restates_cfu _ _).trans (ih _ _)
          · split
            · exact ((restates_cfu _ _).trans (Play.tellTheft_restates _ _ _)).trans (ih _ _)
            · exact (restates_cfu _ _).trans (ih _ _)

theorem Play.requestChan_restates (o : Out) (cls : AnnClass) (s : Served) (p : Play) :
    p.Restates (p.requestChan o cls s) := (restates_cfu _ _).trans (Play.allocate_restates _ _ _)

theorem Play.withdrawRequest_restates (o : Out) (s : Served) (p : Play) : p.Restates (p.withdrawRequest o s) := by
  have hleave : ∀ (ch : Chan) (q : Play), q.Restates (q.leaveChan o ch) := fun ch q => by
    unfold Play.leaveChan
    dsimp only
    split
    · exact (restates_cfu _ _).trans (Play.allocate_restates _ _ _)
    · exact restates_cfu _ _
  unfold Play.withdrawRequest
  dsimp only
  split
  · exact (restates_cfu _ _).trans (hleave _ _)
  · exact restates_cfu _ _

/-- A start makes QUEUED entries STARTING (R82, R83). -/
theorem Play.startHead_restates (e : Env) (o : Out) (p : Play) : p.Restates (p.startHead e o) := by
  unfold Play.startHead
  dsimp only
  split
  · exact .refl p
  · next en rest hqueue =>
    split
    · exact .refl p
    · next hstart =>
      simp only [Bool.or_eq_true, List.any_eq_true, decide_eq_true_eq, not_or, not_exists, not_and, not_not] at hstart
      obtain ⟨⟨_, hqueued⟩, _⟩ := hstart
      have hstarted : p.Restates (p.onEntry o en.id fun x => { x with state := .starting }) :=
        p.onEntries_restates o fun x hx _ => .start (hqueued x hx)
      refine hstarted.trans ?_
      unfold Play.askChannel
      split
      · exact Play.requestChan_restates _ _ _ _
      · exact .refl _

/-! ### A removal (R93, R94) -/

/-- An entry that a removal request takes out: selected and not sounding. -/
def Entry.lostTo (sel : Entry → Bool) (en : Entry) : Bool := sel en && !en.sounding

/-- The entries of a zone whose id no entry taken out has. -/
def Zone.spared (z : Zone) (sel : Entry → Bool) : List Entry :=
  z.queue.filter fun x => !(z.queue.any fun en => en.lostTo sel && en.id = x.id)

/-- An entry after a removal that lets sounding entries play on: a selected one is marked stale (R93). -/
def Entry.Spared (x : Entry) (sel : Entry → Bool) (y : Entry) : Prop :=
  ∃ st, y = { x with state := st, stale := x.stale || sel x && x.sounding } ∧ y.sounding = x.sounding

/-- What a removal marks in an entry restated meanwhile (R93). -/
theorem Entry.Restated.markStale {x y : Entry} (h : x.Restated y) {sel : Entry → Bool}
    (hsel : ∀ x y, Entry.Restated x y → sel y = sel x) :
    x.Spared sel (if sel y && y.sounding then { y with stale := true } else y) := by
  have hmarked : (sel y && y.sounding) = (sel x && x.sounding) := by
    rw [hsel x y h]
    obtain ⟨_, _, hsound⟩ := h
    rw [hsound]
  rw [hmarked]
  obtain ⟨st, hy, hsound⟩ := h
  refine ⟨st, ?_, ?_⟩
  · cases hx : sel x && x.sounding <;> simp [hy]
  · split
    · exact hsound
    · exact hsound

/-- An entry taken out changes nothing of what is sent, and no count of the zones (R77). -/
theorem Play.takeOut_beside (o : Out) (en : Entry) (p : Play) :
    (p.takeOut o en).net = p.net ∧ (p.takeOut o en).zpc.counts = p.zpc.counts := by
  obtain ⟨hnet, hzpc, _⟩ := Play.releaseRef_frame en
    (p.onZone o fun z => { z with queue := z.queue.filter fun x => x.id ≠ en.id })
  unfold Play.takeOut
  rw [hnet, hzpc]
  exact ⟨rfl, rfl⟩

/-- A drop of an own entry takes its id out of its queue and counts it (R93, R104). -/
theorem Play.dropWaiting_own (e : Env) (o : Out) {en : Entry} (hown : en.origin = .own) (p : Play) :
    (p.dropWaiting e o .callEnded en).net = p.net ∧
    (p.dropWaiting e o .callEnded en).zpc.counts =
      { p.zpc.counts with callEnded := bump p.zpc.counts.callEnded } ∧
    (∀ k, k ≠ o → List.Forall₂ Entry.Restated (p.zone k).queue ((p.dropWaiting e o .callEnded en).zone k).queue) ∧
    List.Forall₂ Entry.Restated ((p.zone o).queue.filter fun x => x.id ≠ en.id)
      ((p.dropWaiting e o .callEnded en).zone o).queue := by
  have hasked := p.withdrawRequest_restates o (.body en.id)
  obtain ⟨hnet, _, _, _, _, _, hcounts, _⟩ := Play.withdrawRequest_sameBeside o (.body en.id) p
  unfold Play.dropWaiting Play.leaveWaiting
  generalize p.withdrawRequest o (.body en.id) = q at hasked hnet hcounts
  obtain ⟨htaken, htakenCounts⟩ := Play.takeOut_beside o en q
  obtain ⟨hzpc, _, _, _, hnoted, _⟩ := Play.noteDrop_frame en .callEnded (q.takeOut o en)
  have hstart : ∀ u : Play, u.Restates (if en.state = .starting then u.startHead e o else u) ∧
      (if en.state = .starting then u.startHead e o else u).net = u.net ∧
      (if en.state = .starting then u.startHead e o else u).zpc.counts = u.zpc.counts := fun u => by
    split
    · obtain ⟨h1, _, _, _, _, _, h2, _⟩ := Play.startHead_sameBeside e o u
      exact ⟨Play.startHead_restates e o u, h1, h2⟩
    · exact ⟨.refl u, rfl, rfl⟩
  obtain ⟨hrestated, hsent, hcounted⟩ := hstart ((q.takeOut o en).noteDrop en .callEnded)
  have hzone : ∀ k, ((q.takeOut o en).noteDrop en .callEnded).zone k = (q.takeOut o en).zone k := fun k => by
    simp only [Play.zone, hzpc]
  refine ⟨?_, ?_, fun k hk => ?_, ?_⟩
  · rw [hsent, hnoted hown, htaken, hnet]
  · rw [hcounted, hzpc, htakenCounts, hcounts]
    rfl
  · have hk' := hrestated k
    rw [hzone, Play.takeOut_zone, if_neg hk] at hk'
    exact Entry.Restated.forall₂_trans (hasked k) hk'
  · have ho := hrestated o
    rw [hzone, Play.takeOut_zone, if_pos rfl] at ho
    exact Entry.Restated.forall₂_trans (Entry.Restated.forall₂_filter (hasked o) fun x y hxy => by rw [hxy.id]) ho

/-- The drops of own entries, one after the other. -/
theorem Play.dropWaiting_foldl_own (e : Env) (o : Out) {l : List Entry} (hown : ∀ en ∈ l, en.origin = .own) (p : Play) :
    (l.foldl (Play.dropWaiting e o .callEnded) p).net = p.net ∧
    (l.foldl (Play.dropWaiting e o .callEnded) p).zpc.counts =
      { p.zpc.counts with callEnded := bump^[l.length] p.zpc.counts.callEnded } ∧
    (∀ k, k ≠ o → List.Forall₂ Entry.Restated (p.zone k).queue
      ((l.foldl (Play.dropWaiting e o .callEnded) p).zone k).queue) ∧
    List.Forall₂ Entry.Restated ((p.zone o).queue.filter fun x => !(l.any fun en => en.id = x.id))
      ((l.foldl (Play.dropWaiting e o .callEnded) p).zone o).queue := by
  induction l generalizing p with
  | nil => exact ⟨rfl, rfl, fun k _ => Play.Restates.refl p k, by simpa using Play.Restates.refl p o⟩
  | cons en rest ih =>
    obtain ⟨hen, hrest⟩ := List.forall_mem_cons.mp hown
    obtain ⟨hnet, hcounts, hothers, ho⟩ := Play.dropWaiting_own e o hen p
    obtain ⟨hnet', hcounts', hothers', ho'⟩ := ih hrest (p.dropWaiting e o .callEnded en)
    refine ⟨hnet'.trans hnet, ?_, fun k hk => Entry.Restated.forall₂_trans (hothers k hk) (hothers' k hk), ?_⟩
    · rw [List.foldl_cons, hcounts', hcounts]
      rfl
    · refine Entry.Restated.forall₂_trans ?_ ho'
      have hfiltered := Entry.Restated.forall₂_filter ho (test := fun x => !(rest.any fun en => en.id = x.id))
        fun x y hxy => by simp only [hxy.id]
      rw [List.filter_filter] at hfiltered
      convert hfiltered using 2
      funext x
      rw [List.any_cons, Bool.not_or, Bool.and_comm, decide_not, decide_eq_decide.mpr (eq_comm (a := x.id))]

theorem Entry.sounding_eq_false_iff (en : Entry) : en.sounding = false ↔ en.state = .queued ∨ en.state = .starting := by
  unfold Entry.sounding
  cases en.state <;> simp

theorem Zone.mem_waiting {z : Zone} {sel : Entry → Bool} {en : Entry} :
    en ∈ z.waiting sel ↔ en ∈ z.queue ∧ en.lostTo sel = true := by
  simp only [Zone.waiting, Entry.lostTo, List.mem_append, List.mem_filter, Bool.and_eq_true, decide_eq_true_eq,
    Bool.not_eq_true', Entry.sounding_eq_false_iff]
  tauto

theorem Zone.waiting_length (z : Zone) (sel : Entry → Bool) :
    (z.waiting sel).length = (z.queue.filter (Entry.lostTo sel)).length := by
  unfold Zone.waiting
  rw [List.length_append]
  induction z.queue with
  | nil => rfl
  | cons x rest ih =>
    have hlost : x.lostTo sel = (sel x && x.state = .queued || sel x && x.state = .starting) := by
      rw [Entry.lostTo, ← Bool.and_or_distrib_left]
      congr 1
      rw [Bool.eq_iff_iff, Bool.not_eq_true', Entry.sounding_eq_false_iff]
      simp
    have hone : ¬ (x.state = .queued ∧ x.state = .starting) := fun h => by rw [h.1] at h; cases h.2
    by_cases hq : (sel x && x.state = .queued) = true <;> by_cases hs : (sel x && x.state = .starting) = true
    · simp only [Bool.and_eq_true, decide_eq_true_eq] at hq hs
      exact absurd ⟨hq.2, hs.2⟩ hone
    all_goals
      simp only [List.filter_cons, hlost, hq, hs]
      simp
      omega

/-- A removal request in one zone, for own entries that carry a call: the waiting ones leave, counted, and the sounding
ones play on, marked stale (R93). -/
theorem Play.removeIn_own (e : Env) {sel : Entry → Bool} (hown : ∀ en, sel en = true → en.origin = .own)
    (hsel : ∀ x y, Entry.Restated x y → sel y = sel x) (p : Play) (o : Out) :
    (p.removeIn e sel .callEnded false o).net = p.net ∧
    (p.removeIn e sel .callEnded false o).zpc.counts = { p.zpc.counts with
      callEnded :=
        bump^[((p.zone o).queue.filter (Entry.lostTo sel)).length] p.zpc.counts.callEnded } ∧
    (∀ k, k ≠ o → List.Forall₂ Entry.Restated (p.zone k).queue
      ((p.removeIn e sel .callEnded false o).zone k).queue) ∧
    List.Forall₂ (Entry.Spared · sel) ((p.zone o).spared sel) ((p.removeIn e sel .callEnded false o).zone o).queue := by
  obtain ⟨hnet, hcounts, hothers, ho⟩ := Play.dropWaiting_foldl_own e o (l := (p.zone o).waiting sel)
    (fun en hen => by
      have hlost := (Zone.mem_waiting.mp hen).2
      rw [Entry.lostTo, Bool.and_eq_true] at hlost
      exact hown en hlost.1) p
  rw [Zone.waiting_length] at hcounts
  have hspared : ((p.zone o).queue.filter fun x => !(((p.zone o).waiting sel).any fun en => en.id = x.id)) =
      (p.zone o).spared sel := by
    unfold Zone.spared
    refine List.filter_congr fun x _ => congrArg _ ?_
    rw [Bool.eq_iff_iff]
    simp [Zone.mem_waiting, and_assoc]
  rw [hspared] at ho
  unfold Play.removeIn
  dsimp only
  generalize ((p.zone o).waiting sel).foldl (Play.dropWaiting e o .callEnded) p = q at hnet hcounts hothers ho ⊢
  refine ⟨hnet, hcounts, fun k hk => ?_, ?_⟩
  · rw [Play.onZone_zone_of_ne _ _ _ _ hk]
    exact hothers k hk
  · rw [Play.onZone_zone_self]
    unfold Zone.onEntries
    dsimp only
    rw [List.forall₂_map_right_iff]
    refine ho.imp fun x y hxy => ?_
    exact hxy.markStale hsel

theorem Entry.Spared.restated {sel : Entry → Bool} {x y z : Entry} (h : x.Spared sel y) (k : y.Restated z) :
    x.Spared sel z := by
  obtain ⟨a, rfl, ha⟩ := h
  obtain ⟨b, rfl, hb⟩ := k
  exact ⟨b, rfl, hb.trans ha⟩

section selection
variable {sel : Entry → Bool} (hsel : ∀ x y, Entry.Restated x y → sel y = sel x)
include hsel

theorem Entry.Restated.lostTo {x y : Entry} (h : x.Restated y) : y.lostTo sel = x.lostTo sel := by
  have hy := hsel x y h
  obtain ⟨_, _, hsound⟩ := h
  unfold Entry.lostTo
  rw [hy, hsound]

/-- Of entries restated the same number is lost. -/
theorem Entry.Restated.lost_length {l m : List Entry} (h : List.Forall₂ Entry.Restated l m) :
    (m.filter (Entry.lostTo sel)).length = (l.filter (Entry.lostTo sel)).length :=
  (Entry.Restated.forall₂_filter h fun _ _ hxy => hxy.lostTo hsel).length_eq.symm

/-- Of entries restated the same are spared. -/
theorem Zone.spared_restated {z w : Zone} (h : List.Forall₂ Entry.Restated z.queue w.queue) :
    List.Forall₂ Entry.Restated (z.spared sel) (w.spared sel) := by
  have hany : ∀ {l m : List Entry} (_ : List.Forall₂ Entry.Restated l m) (id : AnnId),
      (m.any fun en => en.lostTo sel && en.id = id) = l.any fun en => en.lostTo sel && en.id = id := fun hlm id => by
    induction hlm with
    | nil => rfl
    | cons hxy _ ih => rw [List.any_cons, List.any_cons, ih, hxy.lostTo hsel, hxy.id]
  unfold Zone.spared
  exact List.rel_filter (fun x y hxy => by simp only [hany h, hxy.id]) h

theorem Entry.Restated.spared {x y z : Entry} (h : x.Restated y) (k : y.Spared sel z) : x.Spared sel z := by
  have hy := hsel x y h
  obtain ⟨a, rfl, ha⟩ := h
  obtain ⟨b, rfl, hb⟩ := k
  exact ⟨b, by rw [hy, ha], hb.trans ha⟩

/-- A removal request in every zone of a list (R93): the zones of the list are settled, the others restated. -/
theorem Play.removeIn_foldl_own (e : Env) (hown : ∀ en, sel en = true → en.origin = .own) {l : List Out} (hl : l.Nodup)
    (p : Play) :
    (l.foldl (Play.removeIn e sel .callEnded false) p).net = p.net ∧
    (l.foldl (Play.removeIn e sel .callEnded false) p).zpc.counts = { p.zpc.counts with
      callEnded := bump^[(l.map fun o => ((p.zone o).queue.filter (Entry.lostTo sel)).length).sum]
        p.zpc.counts.callEnded } ∧
    ∀ k,
      (k ∉ l → List.Forall₂ Entry.Restated (p.zone k).queue
        ((l.foldl (Play.removeIn e sel .callEnded false) p).zone k).queue) ∧
      (k ∈ l → List.Forall₂ (Entry.Spared · sel) ((p.zone k).spared sel)
        ((l.foldl (Play.removeIn e sel .callEnded false) p).zone k).queue) := by
  induction l generalizing p with
  | nil => exact ⟨rfl, rfl, fun k => ⟨fun _ => Play.Restates.refl p k, fun h => nomatch h⟩⟩
  | cons o rest ih =>
    obtain ⟨ho, hrest⟩ := List.nodup_cons.mp hl
    obtain ⟨hnet, hcounts, hothers, hsettled⟩ := Play.removeIn_own e hown hsel p o
    obtain ⟨hnet', hcounts', hzones⟩ := ih hrest (p.removeIn e sel .callEnded false o)
    refine ⟨hnet'.trans hnet, ?_, fun k => ⟨fun hk => ?_, fun hk => ?_⟩⟩
    · have hlater : (rest.map fun o' => (((p.removeIn e sel .callEnded false o).zone o').queue.filter
          (Entry.lostTo sel)).length) = rest.map fun o' => ((p.zone o').queue.filter (Entry.lostTo sel)).length :=
        List.map_congr_left fun k hk =>
          Entry.Restated.lost_length hsel (hothers k fun h => ho (h ▸ hk))
      rw [List.foldl_cons, hcounts', hcounts, hlater, List.map_cons, List.sum_cons, Nat.add_comm,
        Function.iterate_add_apply]
    · exact Entry.Restated.forall₂_trans (hothers k (List.ne_of_not_mem_cons hk))
        ((hzones k).1 (List.not_mem_of_not_mem_cons hk))
    · by_cases hko : k = o
      · subst hko
        exact forall₂_comp (R := (Entry.Spared · sel)) (S := Entry.Restated) (fun _ _ _ hab hbc => hab.restated hbc)
          hsettled ((hzones k).1 ho)
      · have hkrest := (List.mem_cons.mp hk).resolve_left hko
        exact forall₂_comp (R := Entry.Restated) (S := (Entry.Spared · sel)) (fun _ _ _ hab hbc => hab.spared hsel hbc)
          (Zone.spared_restated hsel (hothers k hko)) ((hzones k).2 hkrest)

/-- A removal request for own entries, in every zone (R93). -/
theorem Play.removeAll_own (e : Env) (hown : ∀ en, sel en = true → en.origin = .own) (p : Play) :
    (p.removeAll e sel .callEnded false).net = p.net ∧
    (p.removeAll e sel .callEnded false).zpc.counts = { p.zpc.counts with
      callEnded := bump^[(allOuts.map fun o => ((p.zone o).queue.filter (Entry.lostTo sel)).length).sum]
        p.zpc.counts.callEnded } ∧
    ∀ k, List.Forall₂ (Entry.Spared · sel) ((p.zone k).spared sel)
      ((p.removeAll e sel .callEnded false).zone k).queue := by
  obtain ⟨hnet, hcounts, hzones⟩ := Play.removeIn_foldl_own hsel e hown (List.nodup_finRange 8) p
  exact ⟨hnet, hcounts, fun k => (hzones k).2 (List.mem_finRange k)⟩

end selection

/-! ### What a removal leaves -/

/-- What stands in a queue after a removal stood there before, and is marked stale and sounds where it is selected. -/
theorem Entry.Spared.of_mem {z : Zone} {sel : Entry → Bool} {l : List Entry}
    (h : List.Forall₂ (Entry.Spared · sel) (z.spared sel) l) {y : Entry} (hy : y ∈ l) :
    ∃ x ∈ z.queue, x.Spared sel y ∧ (sel x = true → x.sounding = true) := by
  obtain ⟨x, hx, hxy⟩ := forall₂_source h hy
  obtain ⟨hmem, hnot⟩ := List.mem_filter.mp hx
  refine ⟨x, hmem, hxy, fun hsel => ?_⟩
  by_contra hsound
  rw [Bool.not_eq_true', List.any_eq_false] at hnot
  exact hnot x hmem (by simp [Entry.lostTo, hsel, hsound])

/-- Where no two entries have one id, the ids that stay are those of the entries not lost. -/
theorem Zone.spared_of_nodup {z : Zone} (h : (z.queue.map (·.id)).Nodup) (sel : Entry → Bool) :
    z.spared sel = z.queue.filter fun en => !en.lostTo sel := by
  unfold Zone.spared
  refine List.filter_congr fun x hx => congrArg _ ?_
  rw [Bool.eq_iff_iff]
  simp only [List.any_eq_true, Bool.and_eq_true, decide_eq_true_eq]
  constructor
  · rintro ⟨en, hen, hlost, hid⟩
    rwa [← List.inj_on_of_nodup_map h hen hx hid]
  · exact fun hlost => ⟨x, hx, hlost, rfl⟩

theorem Entry.Spared.ids {sel : Entry → Bool} {l m : List Entry} (h : List.Forall₂ (Entry.Spared · sel) l m) :
    m.map (·.id) = l.map (·.id) := by
  induction h with
  | nil => rfl
  | cons hxy _ ih =>
    obtain ⟨st, rfl, _⟩ := hxy
    simp only [List.map_cons, ih]

/-- Counting up one by one is counting up at once (R1). -/
theorem bump_iterate {n : Nat} (h : n ≤ 65535) (k : Nat) : bump^[k] n = bumpBy k n := by
  induction k with
  | zero => simp [bumpBy, h]
  | succ k ih =>
    rw [Function.iterate_succ_apply', ih]
    simp only [bump, bumpBy]
    omega

end Sys2Proof.Machine
end

section
/-! PROOFS. The beacon of another day (R32): what a withdrawal of originations leaves (R114), what the signals leave of the
queues and of what is sent, and the straddle, the advance and the day step. -/
namespace Sys2Proof.Machine

/-! ### Withdrawn originations (R114) -/

/-- The originations of the second table were of the first, under the same id, key and deadline; one withdrawn stays
so. -/
def Peers.Originated (p q : Peers) : Prop := ∀ x ∈ q.table, ∃ y ∈ p.table,
  x.id = y.id ∧ x.key = y.key ∧ x.expiry = y.expiry ∧ (y.withdrawn = true → x.withdrawn = true)

theorem Peers.Originated.of_table {p q : Peers} (h : q.table = p.table) : p.Originated q :=
  fun x hx => ⟨x, h ▸ hx, rfl, rfl, rfl, fun hw => hw⟩

theorem Peers.Originated.trans {p q r : Peers} (h : p.Originated q) (k : q.Originated r) : p.Originated r :=
  fun x hx => by
    obtain ⟨y, hy, hid, hkey, hexp, hw⟩ := k x hx
    obtain ⟨w, hmem, hid', hkey', hexp', hw'⟩ := h y hy
    exact ⟨w, hmem, hid.trans hid', hkey.trans hkey', hexp.trans hexp', fun a => hw (hw' a)⟩

theorem Peers.mem_revise {p : Peers} {id : AnnId} {f : Origination → Origination} {x : Origination}
    (h : x ∈ (p.revise id f).table) : ∃ y ∈ p.table, x = if y.id = id then f y else y := by
  obtain ⟨y, hy, hxy⟩ := List.mem_map.mp (List.mem_filter.mp h).1
  exact ⟨y, hy, hxy.symm⟩

/-- A change of an entry that keeps id, key and deadline and withdraws at most. -/
theorem Peers.Originated.revise (p : Peers) (id : AnnId) {f : Origination → Origination}
    (hf : ∀ y, (f y).id = y.id ∧ (f y).key = y.key ∧ (f y).expiry = y.expiry ∧
      (y.withdrawn = true → (f y).withdrawn = true)) : p.Originated (p.revise id f) := fun x hx => by
  obtain ⟨y, hy, rfl⟩ := Peers.mem_revise hx
  refine ⟨y, hy, ?_⟩
  split
  · exact hf y
  · exact ⟨rfl, rfl, rfl, fun hw => hw⟩

/-- An ANNOUNCE lost changes its origination in the zones, or retires it (R110). -/
theorem Peers.unsentAnnounce_originated (p : Peers) (id : AnnId) : p.Originated (p.unsentAnnounce id) := by
  have hgive : p.Originated (p.giveUp id fun o => o = .pending) := by
    unfold Peers.giveUp
    split
    · exact .of_table rfl
    · exact (Peers.Originated.revise p id (f := fun o => { o with zones := o.zones.map fun z =>
        if (decide (z.outcome = .pending)) then { z with outcome := .noResponse } else z })
        fun y => ⟨rfl, rfl, rfl, fun hw => hw⟩).trans (.of_table rfl)
  exact hgive.trans (.of_table rfl)

/-- Queueing a frame changes an origination at most in its zones, or retires it (R110, R181). -/
theorem Net.enqueue_originated (e : Env) (f : TxFrame) (n : Net) : n.pau.Originated (Net.enqueue e f n).pau := by
  rcases Net.enqueue_cases e f n with ⟨_, h⟩ | ⟨_, _, h⟩ | ⟨_, _, g, _, h⟩
  · exact .of_table (by rw [h])
  · exact .of_table (by rw [h])
  · rw [h]
    unfold Net.frameDropped
    split
    · exact Peers.unsentAnnounce_originated _ _
    · exact .of_table rfl

/-- The WITHDRAW frames of one origination, each counted (R114). -/
def Net.sendWithdraws (e : Env) (id : AnnId) (owners : List Nat) (n : Net) : Net :=
  owners.foldl (fun n a => Net.enqueue e ⟨1, a, .withdraw ⟨1, id.origin, id.seq, 0, 0, 0⟩⟩
    (n.onPau fun p => { p with counts := { p.counts with withdrawSent := bump p.counts.withdrawSent } })) n

theorem Net.sendWithdraws_frame (e : Env) (id : AnnId) (owners : List Nat) (n : Net) :
    n.pau.Originated (n.sendWithdraws e id owners).pau ∧ (n.sendWithdraws e id owners).flt = n.flt := by
  unfold Net.sendWithdraws
  induction owners generalizing n with
  | nil => exact ⟨.of_table rfl, rfl⟩
  | cons a rest ih =>
    rw [List.foldl_cons]
    have hcount : n.pau.Originated (n.onPau fun p =>
        { p with counts := { p.counts with withdrawSent := bump p.counts.withdrawSent } }).pau := .of_table rfl
    have hsent := hcount.trans (Net.enqueue_originated e ⟨1, a, .withdraw ⟨1, id.origin, id.seq, 0, 0, 0⟩⟩ _)
    obtain ⟨horig, hflt⟩ := ih _
    exact ⟨hsent.trans horig, hflt.trans (Net.enqueue_flt ..)⟩

theorem Net.withdrawEntry_of_withdrawn (e : Env) (n : Net) {o : Origination} (h : o.withdrawn = true) :
    Net.withdrawEntry e n o = n := if_pos h

theorem Net.withdrawEntry_of_open (e : Env) (n : Net) {o : Origination} (h : o.withdrawn = false) :
    Net.withdrawEntry e n o = Net.sendWithdraws e o.id (ownersOf (o.zones.filter fun z => !z.outcome.final))
      (n.onPau fun p => p.revise o.id fun o => { o with withdrawn := true }) := by
  unfold Net.withdrawEntry
  rw [if_neg (by simp [h])]
  rfl

/-- Withdrawing one origination withdraws every entry of its id, and leaves the Fault Log (R114). -/
theorem Net.withdrawEntry_frame (e : Env) (n : Net) (o : Origination) :
    n.pau.Originated (Net.withdrawEntry e n o).pau ∧ (Net.withdrawEntry e n o).flt = n.flt ∧
    (o.withdrawn = false → ∀ x ∈ (Net.withdrawEntry e n o).pau.table, x.id = o.id → x.withdrawn = true) := by
  cases h : o.withdrawn with
  | true =>
    rw [Net.withdrawEntry_of_withdrawn e n h]
    exact ⟨.of_table rfl, rfl, fun hf => nomatch hf⟩
  | false =>
    rw [Net.withdrawEntry_of_open e n h]
    obtain ⟨horig, hflt⟩ := Net.sendWithdraws_frame e o.id (ownersOf (o.zones.filter fun z => !z.outcome.final))
      (n.onPau fun p => p.revise o.id fun o => { o with withdrawn := true })
    refine ⟨(Peers.Originated.revise n.pau o.id (f := fun o => { o with withdrawn := true })
        fun y => ⟨rfl, rfl, rfl, fun _ => rfl⟩).trans horig, hflt,
      fun _ x hx hid => ?_⟩
    obtain ⟨y, hy, hyid, _, _, hw⟩ := horig x hx
    obtain ⟨w, _, rfl⟩ := Peers.mem_revise hy
    apply hw
    split at hyid
    · rw [if_pos (by assumption)]
    · next hne => exact absurd (hyid.symm.trans hid) hne

theorem Net.withdrawEntry_foldl_frame (e : Env) (l : List Origination) (n : Net) :
    n.pau.Originated (l.foldl (Net.withdrawEntry e) n).pau ∧ (l.foldl (Net.withdrawEntry e) n).flt = n.flt ∧
    ∀ o ∈ l, o.withdrawn = false → ∀ x ∈ (l.foldl (Net.withdrawEntry e) n).pau.table, x.id = o.id →
      x.withdrawn = true := by
  induction l generalizing n with
  | nil => exact ⟨.of_table rfl, rfl, fun o ho => nomatch ho⟩
  | cons o rest ih =>
    obtain ⟨horig, hflt, hdone⟩ := Net.withdrawEntry_frame e n o
    obtain ⟨horig', hflt', hdone'⟩ := ih (Net.withdrawEntry e n o)
    refine ⟨horig.trans horig', hflt'.trans hflt, fun y hy hopen x hx hid => ?_⟩
    rcases List.mem_cons.mp hy with rfl | hy
    · obtain ⟨w, hw, hwid, _, _, hkeeps⟩ := horig' x hx
      exact hkeeps (hdone hopen w hw (hwid.symm.trans hid))
    · exact hdone' y hy hopen x hx hid

/-- After a withdrawal of what carries a service key every such origination is withdrawn; each that is left was there,
under the same id and deadline, and the Fault Log stands (R114). -/
theorem Net.withdrawAll_keyed (e : Env) (n : Net) :
    n.pau.Originated (Net.withdrawAll e (fun x => x.key.isSome) n).pau ∧
    (Net.withdrawAll e (fun x => x.key.isSome) n).flt = n.flt ∧
    ∀ x ∈ (Net.withdrawAll e (fun x => x.key.isSome) n).pau.table, x.key.isSome = true → x.withdrawn = true := by
  obtain ⟨horig, hflt, hdone⟩ := Net.withdrawEntry_foldl_frame e (n.pau.table.filter fun x => x.key.isSome) n
  refine ⟨horig, hflt, fun x hx hkey => ?_⟩
  obtain ⟨y, hy, hid, hkey', _, hw⟩ := horig x hx
  cases hopen : y.withdrawn with
  | true => exact hw hopen
  | false => exact hdone y (List.mem_filter.mpr ⟨hy, hkey' ▸ hkey⟩) hopen x hx hid

/-- A withdrawal reads the load state alone. -/
theorem Net.withdrawAll_congr {e d : Env} (h : e.load = d.load) (sel : Origination → Bool) (n : Net) :
    Net.withdrawAll e sel n = Net.withdrawAll d sel n := by
  have hentry : Net.withdrawEntry e = Net.withdrawEntry d := by
    funext n o
    simp only [Net.withdrawEntry, Net.enqueue_congr h]
  unfold Net.withdrawAll
  rw [hentry]

/-! ### The signals (R35, R37, R163) -/

/-- What is sent, what the zones count and every queue stand. -/
def Play.SameQueues (p q : Play) : Prop :=
  q.net = p.net ∧ q.zpc.counts = p.zpc.counts ∧ ∀ o, (q.zone o).queue = (p.zone o).queue

theorem Play.SameQueues.refl (p : Play) : p.SameQueues p := ⟨rfl, rfl, fun _ => rfl⟩

theorem Play.SameQueues.trans {p q r : Play} (h : p.SameQueues q) (k : q.SameQueues r) : p.SameQueues r := by
  obtain ⟨hnet, hcounts, hqueue⟩ := h
  obtain ⟨hnet', hcounts', hqueue'⟩ := k
  exact ⟨hnet'.trans hnet, hcounts'.trans hcounts, fun o => (hqueue' o).trans (hqueue o)⟩

theorem Play.SameQueues.foldl {α : Type} {act : Play → α → Play} (h : ∀ (p : Play) a, p.SameQueues (act p a))
    (l : List α) (p : Play) : p.SameQueues (l.foldl act p) := by
  induction l generalizing p with
  | nil => exact .refl p
  | cons a rest ih => exact (h p a).trans (ih _)

theorem Play.refuseAuto_sameQueues (p : Play) (o : Out) : p.SameQueues (p.refuseAuto o) := by
  unfold Play.refuseAuto
  split
  · exact ⟨rfl, rfl, fun _ => rfl⟩
  · exact .refl p

/-- A survey that begins leaves what is queued (R163). -/
theorem Play.attemptAuto_sameQueues (e : Env) (o : Out) (p : Play) : p.SameQueues (p.attemptAuto e o) := by
  unfold Play.attemptAuto
  split
  · unfold Play.beginSurvey
    refine ⟨rfl, rfl, fun k => ?_⟩
    change (((p.onSurvey o _).onZone o _).zone k).queue = _
    rw [Play.onZone_zone]
    split
    · rfl
    · rfl
  · exact ⟨rfl, rfl, fun _ => rfl⟩

theorem Play.surveySecond_sameQueues (e : Env) (p : Play) : p.SameQueues (p.surveySecond e) := by
  unfold Play.surveySecond
  refine Play.SameQueues.trans (Play.SameQueues.foldl (fun q o => ?_) allOuts p) ⟨rfl, rfl, fun _ => rfl⟩
  split
  · exact Play.attemptAuto_sameQueues e o q
  · exact .refl q

theorem State.settleQuiet_frame (s : State) :
    s.play.SameQueues s.settleQuiet.play ∧ s.settleQuiet.cfl = s.cfl ∧ s.settleQuiet.elapsed = s.elapsed ∧
    ∃ quiet, s.settleQuiet.sck = { s.sck with quiet := quiet } := by
  unfold State.settleQuiet
  dsimp only
  split
  · exact ⟨.refl _, rfl, rfl, s.sck.quiet, rfl⟩
  · split
    · exact ⟨.refl _, rfl, rfl, _, rfl⟩
    · rw [State.onPlay_play, State.onPlay_cfl, State.onPlay_elapsed, State.onPlay_sck, State.onSck_play]
      exact ⟨Play.SameQueues.foldl Play.refuseAuto_sameQueues allOuts s.play, rfl, rfl, _, rfl⟩

/-- Taking a time locks the clock, and leaves the table and the queues (R30 to R32). -/
theorem State.setTime_frame (day : Day) (time : Nat) (s : State) :
    s.play.SameQueues (s.setTime day time).play ∧ (s.setTime day time).cfl = s.cfl ∧
    (s.setTime day time).elapsed = s.elapsed ∧ (s.setTime day time).sck.time = time ∧
    (s.setTime day time).sck.day = day ∧ (s.setTime day time).sck.state = .locked ∧
    (s.setTime day time).sck.pendingStep = none := by
  obtain ⟨hplay, hcfl, helapsed, quiet, hsck⟩ := State.settleQuiet_frame (s.onSck fun c => { c with
    state := .locked, day := day, time := time, pendingStep := none, dayEndDue := false })
  unfold State.setTime
  rw [hsck]
  exact ⟨hplay, hcfl, helapsed, rfl, rfl, rfl, rfl⟩

/-- With no trigger configured an evaluation asks for nothing (R45). -/
theorem State.evaluate_play_of_no_triggers {s : State} (h : s.triggers = []) (i : Fin 96) :
    (s.evaluate i).play = s.play := by
  unfold State.evaluate
  split
  · split
    · rfl
    · rw [h]
      rfl
  · rfl

theorem State.evaluateAll_play_of_no_triggers {s : State} (h : s.triggers = []) : s.evaluateAll.play = s.play := by
  unfold State.evaluateAll
  induction List.finRange 96 generalizing s with
  | nil => rfl
  | cons i rest ih =>
    have hnone : (s.evaluate i).triggers = [] := by
      obtain ⟨_, hcfl, _⟩ := (State.evaluate_frame s i).1
      unfold State.triggers at h ⊢
      rw [hcfl, h]
    exact (ih hnone).trans (State.evaluate_play_of_no_triggers h i)

/-- With every place free there is nothing to evaluate (R45). -/
theorem State.evaluateAll_of_free {s : State} (h : ∀ i, s.ctb.places.get i = .free) : s.evaluateAll = s := by
  unfold State.evaluateAll
  induction List.finRange 96 with
  | nil => rfl
  | cons i rest ih =>
    have hother : ∀ r, s.ctb.places.get i ≠ .held r := fun r hr => by rw [h i] at hr; cases hr
    rw [List.foldl_cons, State.evaluate_other hother, ih]

/-- A whole-second signal that asks for no announcement leaves what is queued. -/
theorem State.wholeSecond_sameQueues {s : State}
    (h : s.triggers = [] ∨ ∀ i, s.ctb.places.get i = .free) : s.play.SameQueues s.wholeSecond.play := by
  have heval : (s.onSck fun c => { c with secondDue := false }).evaluateAll.play = s.play := by
    rcases h with h | h
    · exact State.evaluateAll_play_of_no_triggers (s := s.onSck fun c => { c with secondDue := false }) h
    · rw [State.evaluateAll_of_free (s := s.onSck fun c => { c with secondDue := false }) h, State.onSck_play]
  unfold State.wholeSecond
  rw [State.onPlay_play, heval]
  exact Play.surveySecond_sameQueues _ _

/-- A time of another day lies in another second (R35; log entry 13). -/
theorem State.secondAfter_of_day {s : State} {old : Clock} (h : s.sck.day ≠ old.day) :
    s.secondAfter old = s.wholeSecond := by
  unfold State.secondAfter
  exact if_neg (by simp [h])

/-! ### Days (R32) -/

theorem dayDiff_eq_one_iff (a b : Day) : dayDiff a b = 1 ↔ a = b + 1 := by
  have hone : (1 : Int) = (1 : Day).toInt := by decide
  unfold dayDiff
  rw [hone, BitVec.toInt_inj, sub_eq_iff_eq_add']

theorem dayDiff_eq_neg_one_iff (a b : Day) : dayDiff a b = -1 ↔ a + 1 = b := by
  have hone : (-1 : Int) = (-1 : Day).toInt := by decide
  unfold dayDiff
  rw [hone, BitVec.toInt_inj, sub_eq_iff_eq_add', ← sub_eq_add_neg, eq_sub_iff_add_eq]

/-- A source beacon is noted before it is applied (R33). -/
def State.noteSource (src : Nat) (s : State) : State := s.onSck fun c => { c with lastSource := some ⟨s.elapsed, src⟩ }

theorem State.sourceBeacon_otherDay {s : State} {f : BeaconFrame} (src : Nat) (hset : s.sck.state ≠ .unset)
    (hday : f.day ≠ s.sck.day) :
    s.sourceBeacon src f = (s.noteSource src).otherDayBeacon src f.day f.time := by
  unfold State.sourceBeacon
  dsimp only
  rw [if_neg hset, if_neg hday]
  rfl

/-- The boundary straddle (R32). -/
theorem State.otherDayBeacon_straddle {s : State} (src : Nat) {day : Day} {time : Nat} (hday : day + 1 = s.sck.day)
    (hlow : -2000 ≤ -86400000 + (time : Int) - s.sck.time) (hhigh : -86400000 + (time : Int) - s.sck.time ≤ 0) :
    s.otherDayBeacon src day time = s.onSck fun c => { c with state := .locked, pendingStep := none } := by
  have hdiff := (dayDiff_eq_neg_one_iff day s.sck.day).mpr hday
  unfold State.otherDayBeacon
  dsimp only
  rw [hdiff]
  refine if_pos ?_
  simp only [Bool.and_eq_true, decide_eq_true_eq]
  exact ⟨⟨trivial, by omega⟩, by omega⟩

/-- The state that an advance rolls over: TIME_STEP is reported beyond ±2000 ms (R32). -/
def State.advanced (src : Nat) (day : Day) (time : Nat) (s : State) : State :=
  if (86400000 + (time : Int) - s.sck.time).natAbs ≤ 2000 then s.setTime day time
  else (s.setTime day time).reportStep src

theorem State.otherDayBeacon_advance {s : State} (src : Nat) {day : Day} {time : Nat} (hday : day = s.sck.day + 1) :
    s.otherDayBeacon src day time = (s.advanced src day time).rollOver.secondAfter s.sck := by
  have hdiff := (dayDiff_eq_one_iff day s.sck.day).mpr hday
  unfold State.otherDayBeacon State.advanced
  dsimp only
  rw [hdiff, one_mul]
  rfl

/-- The state whose table a day step clears: TIME_STEP is reported and the instants are shifted (R32, R92, R108). -/
def State.stepped (src : Nat) (day : Day) (time : Nat) (s : State) : State :=
  ((s.setTime day time).reportStep src).onPlay fun _ p => p.shiftInstants (day - s.sck.day)

theorem State.otherDayBeacon_step {s : State} (src : Nat) {day : Day} {time : Nat} (hday : day ≠ s.sck.day + 1)
    (hstraddle : day + 1 = s.sck.day →
      -86400000 + (time : Int) - s.sck.time < -2000 ∨ 0 < -86400000 + (time : Int) - s.sck.time) :
    s.otherDayBeacon src day time = (s.stepped src day time).clearTable.secondAfter s.sck := by
  have hdiff : dayDiff day s.sck.day ≠ 1 := fun h => hday ((dayDiff_eq_one_iff _ _).mp h)
  unfold State.otherDayBeacon State.stepped
  dsimp only
  rw [if_neg, if_neg hdiff]
  simp only [Bool.and_eq_true, decide_eq_true_eq, not_and]
  rintro ⟨hone, hlow⟩
  have hout := hstraddle ((dayDiff_eq_neg_one_iff _ _).mp hone)
  rw [hone] at hlow ⊢
  omega

/-! ### The advance (R24, R34) -/

theorem State.reportStep_play (src : Nat) (s : State) :
    (s.reportStep src).play = s.play.onNet (Net.report s.env .timeStep src) := by
  unfold State.reportStep
  rw [State.onPlay_play]
  rfl

/-- What TIME_STEP reads is the load state and the time taken. -/
theorem State.setTime_report (day : Day) (time : Nat) (s : State) (src : Nat) (n : Net) :
    Net.report (s.setTime day time).env .timeStep src n =
      Net.report { s.env with now := ⟨day, time⟩ } .timeStep src n := by
  obtain ⟨_, hcfl, _, htime, hday, _⟩ := State.setTime_frame day time s
  refine Net.report_congr ?_ ?_ .timeStep src n
  · exact congrArg Loader.load hcfl
  · exact congrArg₂ Instant.mk hday htime

/-- The clock, the table and what is queued where an advance rolls over. -/
theorem State.advanced_frame (src : Nat) (day : Day) (time : Nat) (s : State) :
    (s.advanced src day time).sck = (s.setTime day time).sck ∧ (s.advanced src day time).ctb = s.ctb ∧
    (s.advanced src day time).cfl = s.cfl ∧
    (∀ o, ((s.advanced src day time).play.zone o).queue = (s.play.zone o).queue) ∧
    (s.advanced src day time).play.net = (if (86400000 + (time : Int) - s.sck.time).natAbs ≤ 2000 then s.play.net
      else Net.report { s.env with now := ⟨day, time⟩ } .timeStep src s.play.net) := by
  obtain ⟨⟨hnet, _, hqueue⟩, hcfl, _⟩ := State.setTime_frame day time s
  unfold State.advanced
  split
  · exact ⟨rfl, State.setTime_ctb day time s, hcfl, hqueue, hnet⟩
  · refine ⟨State.reportStep_sck _ _, ?_, ?_, fun o => ?_, ?_⟩
    · rw [State.reportStep_ctb, State.setTime_ctb]
    · unfold State.reportStep
      rw [State.onPlay_cfl, hcfl]
    · rw [State.reportStep_play, Play.onNet_zone, hqueue]
    · rw [State.reportStep_play, Play.onNet_net, hnet, State.setTime_report]

/-! ### The day step (R25, R92, R108) -/

/-- An entry with its instants shifted (R92). -/
def Entry.shifted (by_ : Day) (en : Entry) : Entry :=
  { en with sync := en.sync.map fun i => i.shift by_, expiry := en.expiry.map fun i => i.shift by_ }

theorem Play.shiftInstants_frame (by_ : Day) (p : Play) :
    (p.shiftInstants by_).net = p.net.onPau (fun q =>
      { q with table := q.table.map fun o => { o with expiry := o.expiry.shift by_ } }) ∧
    (p.shiftInstants by_).zpc.counts = p.zpc.counts ∧
    ∀ o, ((p.shiftInstants by_).zone o).queue = (p.zone o).queue.map (Entry.shifted by_) := by
  refine ⟨rfl, rfl, fun o => ?_⟩
  unfold Play.shiftInstants
  rw [Play.onNet_zone]
  unfold Play.zone
  dsimp only
  rw [mapIdx_get]
  rfl

/-- An own entry that carries a service key. -/
def Entry.ofCall (en : Entry) : Bool := en.origin = .own && en.key.isSome

theorem Entry.Restated.ofCall {x y : Entry} (h : x.Restated y) : y.ofCall = x.ofCall := by
  obtain ⟨st, rfl, _⟩ := h
  rfl

/-- What clearing the table removes (R25, R93, R114). -/
theorem Play.removeCalls_keyed (e : Env) (p : Play) :
    (p.removeCalls e (fun k _ => k.isSome) false).net = Net.withdrawAll e (fun x => x.key.isSome) p.net ∧
    (p.removeCalls e (fun k _ => k.isSome) false).zpc.counts = { p.zpc.counts with
      callEnded := bump^[(allOuts.map fun o => ((p.zone o).queue.filter (Entry.lostTo Entry.ofCall)).length).sum]
        p.zpc.counts.callEnded } ∧
    ∀ k, List.Forall₂ (Entry.Spared · Entry.ofCall) ((p.zone k).spared Entry.ofCall)
      ((p.removeCalls e (fun k _ => k.isSome) false).zone k).queue := by
  obtain ⟨hnet, hcounts, hzones⟩ := Play.removeAll_own (sel := Entry.ofCall) (fun x y hxy => hxy.ofCall) e
    (fun en hen => by
      simp only [Entry.ofCall, Bool.and_eq_true, decide_eq_true_eq] at hen
      exact hen.1) p
  have hremove : p.removeCalls e (fun k _ => k.isSome) false = (p.removeAll e Entry.ofCall .callEnded false).onNet
      (Net.withdrawAll e fun x => x.key.isSome) := by
    unfold Play.removeCalls Entry.ofCall
    rfl
  rw [hremove, Play.onNet_net, Play.onNet_zpc, hnet]
  refine ⟨rfl, hcounts, fun k => ?_⟩
  rw [Play.onNet_zone]
  exact hzones k

theorem State.clearTable_frame (s : State) :
    s.clearTable.play = s.play.removeCalls s.env (fun k _ => k.isSome) false ∧
    ∀ i, s.clearTable.ctb.places.get i = .free := by
  unfold State.clearTable
  rw [State.onCtb_play, State.onPlay_play, State.onCtb_ctb]
  exact ⟨rfl, fun i => by simp⟩

/-- The clock and what is queued where a day step clears the table. -/
theorem State.stepped_frame (src : Nat) (day : Day) (time : Nat) (s : State) :
    (s.stepped src day time).sck = (s.setTime day time).sck ∧ (s.stepped src day time).cfl = s.cfl ∧
    (s.stepped src day time).play.net = (Net.report { s.env with now := ⟨day, time⟩ } .timeStep src s.play.net).onPau
      (fun q => { q with table := q.table.map fun o => { o with expiry := o.expiry.shift (day - s.sck.day) } }) ∧
    (s.stepped src day time).play.zpc.counts = s.play.zpc.counts ∧
    ∀ o, ((s.stepped src day time).play.zone o).queue =
      (s.play.zone o).queue.map (Entry.shifted (day - s.sck.day)) := by
  obtain ⟨⟨hnet, hcounts, hqueue⟩, hcfl, _⟩ := State.setTime_frame day time s
  obtain ⟨hnet', hcounts', hqueue'⟩ :=
    Play.shiftInstants_frame (day - s.sck.day) ((s.setTime day time).reportStep src).play
  unfold State.stepped
  rw [State.onPlay_sck, State.onPlay_cfl, State.onPlay_play, hnet', hcounts', State.reportStep_play, Play.onNet_net,
    Play.onNet_zpc, hnet, State.setTime_report, hcounts]
  refine ⟨State.reportStep_sck _ _, ?_, rfl, rfl, fun o => ?_⟩
  · unfold State.reportStep
    rw [State.onPlay_cfl, hcfl]
  · rw [← State.reportStep_play, hqueue', State.reportStep_play, Play.onNet_zone, hqueue]

/-- What a day step leaves (R25, R32, R92, R93, R108, R114). -/
theorem State.otherDayBeacon_step_frame {s : State} (src : Nat) {day : Day} {time : Nat} (hother : day ≠ s.sck.day)
    (hday : day ≠ s.sck.day + 1) (hstraddle : day + 1 = s.sck.day →
      -86400000 + (time : Int) - s.sck.time < -2000 ∨ 0 < -86400000 + (time : Int) - s.sck.time) :
    (s.otherDayBeacon src day time).sck.time = time ∧ (s.otherDayBeacon src day time).sck.day = day ∧
    (s.otherDayBeacon src day time).sck.state = .locked ∧ (s.otherDayBeacon src day time).sck.pendingStep = none ∧
    (∀ i, (s.otherDayBeacon src day time).ctb.places.get i = .free) ∧
    (s.otherDayBeacon src day time).play.net = Net.withdrawAll { s.env with now := ⟨day, time⟩ } (fun x => x.key.isSome)
      ((Net.report { s.env with now := ⟨day, time⟩ } .timeStep src s.play.net).onPau fun q =>
        { q with table := q.table.map fun o => { o with expiry := o.expiry.shift (day - s.sck.day) } }) ∧
    (s.otherDayBeacon src day time).play.zpc.counts = { s.play.zpc.counts with
      callEnded := bump^[(allOuts.map fun o => ((s.play.zone o).queue.filter (Entry.lostTo Entry.ofCall)).length).sum]
        s.play.zpc.counts.callEnded } ∧
    ∀ o, ∃ z : Zone, z.queue = (s.play.zone o).queue.map (Entry.shifted (day - s.sck.day)) ∧
      List.Forall₂ (Entry.Spared · Entry.ofCall) (z.spared Entry.ofCall)
        ((s.otherDayBeacon src day time).play.zone o).queue := by
  obtain ⟨_, _, _, htime, hdate, hlocked, hpending⟩ := State.setTime_frame day time s
  obtain ⟨hsck, hcfl, hnet, hcounts, hqueue⟩ := State.stepped_frame src day time s
  rw [State.otherDayBeacon_step src hday hstraddle]
  generalize s.stepped src day time = w at *
  obtain ⟨hplay, hfree⟩ := w.clearTable_frame
  have hclock : w.clearTable.sck = (s.setTime day time).sck := (State.clearTable_sck w).trans hsck
  rw [State.secondAfter_of_day (by rw [hclock, hdate]; exact hother)]
  obtain ⟨hsck', _, _, _, _, _, _, hnone, _⟩ := w.clearTable.wholeSecond_frame
  obtain ⟨hnet', hcounts', hqueue'⟩ := State.wholeSecond_sameQueues (.inr hfree)
  obtain ⟨hremoved, hended, hspared⟩ := Play.removeCalls_keyed w.env w.play
  rw [hsck', hclock, hnet', hcounts', hplay, hremoved, hended, hnet, hcounts]
  refine ⟨htime, hdate, hlocked, hpending, fun i => ?_, ?_, ?_, fun o => ⟨w.play.zone o, hqueue o, ?_⟩⟩
  · rw [hnone i fun r hr => by rw [hfree i] at hr; cases hr]
    exact hfree i
  · exact Net.withdrawAll_congr (congrArg Loader.load hcfl) _ _
  · have hlost : ∀ o, ((w.play.zone o).queue.filter (Entry.lostTo Entry.ofCall)).length =
        ((s.play.zone o).queue.filter (Entry.lostTo Entry.ofCall)).length := fun o => by
      rw [hqueue, List.filter_map, List.length_map]
      rfl
    simp only [hlost]
  · rw [hqueue', hplay]
    exact hspared o

/-- What an advance leaves (R24, R32, R34). -/
theorem State.otherDayBeacon_advance_frame {s : State} (src : Nat) {day : Day} {time : Nat}
    (hday : day = s.sck.day + 1) :
    (s.otherDayBeacon src day time).sck.time = time ∧ (s.otherDayBeacon src day time).sck.day = day ∧
    (s.otherDayBeacon src day time).sck.state = .locked ∧ (s.otherDayBeacon src day time).sck.pendingStep = none ∧
    (∀ i r, s.ctb.places.get i = .held r → expectedTime (r.booked - 1440) r.delay < -60 →
      (s.otherDayBeacon src day time).ctb.places.get i = .free) ∧
    (∀ i r, s.ctb.places.get i = .held r → -60 ≤ expectedTime (r.booked - 1440) r.delay →
      ∃ r', (s.otherDayBeacon src day time).ctb.places.get i = .held r' ∧ { r' with fired := r.fired } =
        { r with booked := r.booked - 1440, expected := expectedTime (r.booked - 1440) r.delay,
                 qualified := max (-1440) (r.qualified - 1440) }) ∧
    (s.triggers = [] →
      (∀ o, ((s.otherDayBeacon src day time).play.zone o).queue = (s.play.zone o).queue) ∧
      (s.otherDayBeacon src day time).play.net = (if (86400000 + (time : Int) - s.sck.time).natAbs ≤ 2000
        then s.play.net else Net.report { s.env with now := ⟨day, time⟩ } .timeStep src s.play.net)) := by
  obtain ⟨_, _, _, htime, hdate, hlocked, hpending⟩ := State.setTime_frame day time s
  obtain ⟨hsck, hctb, hcfl, hqueue, hnet⟩ := State.advanced_frame src day time s
  rw [State.otherDayBeacon_advance src hday]
  generalize s.advanced src day time = u at *
  have hnext : u.rollOver.sck.day ≠ s.sck.day := by
    rw [State.rollOver_sck, hsck, hdate, hday]
    simp
  rw [State.secondAfter_of_day hnext]
  obtain ⟨hremoved, hkept, _⟩ := u.rollOver_second_frame
  obtain ⟨hsck', _⟩ := u.rollOver.wholeSecond_frame
  rw [hctb] at hremoved hkept
  rw [hsck', State.rollOver_sck, hsck]
  refine ⟨htime, hdate, hlocked, hpending, hremoved, hkept, fun hnone => ?_⟩
  have hroll : u.rollOver.play = u.play ∧ u.rollOver.triggers = [] := by
    obtain ⟨_, hcfl', _⟩ := u.rollOver_same
    refine ⟨?_, ?_⟩
    · unfold State.rollOver
      rw [State.onCtb_play]
    · unfold State.triggers at hnone ⊢
      rw [hcfl', hcfl, hnone]
  obtain ⟨hplay, htriggers⟩ := hroll
  obtain ⟨hnet', _, hqueue'⟩ := State.wholeSecond_sameQueues (.inl htriggers)
  rw [hplay] at hnet' hqueue'
  exact ⟨fun o => (hqueue' o).trans (hqueue o), hnet'.trans hnet⟩

/-- A fault reported while a record is free has a record (R194). -/
theorem Net.report_recorded {e : Env} {k : FaultKind} {source : Nat} {n : Net}
    (hfree : ∃ i, n.flt.records.get i = none) :
    ∃ i r, (Net.report e k source n).flt.records.get i = some r ∧ r.kind = k ∧ r.source = source := by
  rcases Net.report_cases e k source n with ⟨i, r, _, _, hk, hs, h⟩ | ⟨_, i, _, m, h, _⟩ | ⟨_, hfull, _⟩
  · exact ⟨i, { r with count := min 255 (r.count + 1), last := e.now }, by rw [h]; exact upd_get_self _ _ _, hk, hs⟩
  · exact ⟨i, _, by rw [h]; exact upd_get_self _ _ _, rfl, rfl⟩
  · obtain ⟨i, hi⟩ := hfree
    unfold recordIndex at hfull
    rw [List.find?_eq_none] at hfull
    exact absurd (by simp [hi]) (hfull i (List.mem_finRange i))

theorem State.noteSource_frame (src : Nat) (s : State) :
    (s.noteSource src).sck.time = s.sck.time ∧ (s.noteSource src).sck.day = s.sck.day ∧
    (s.noteSource src).ctb = s.ctb ∧ (s.noteSource src).play = s.play ∧ (s.noteSource src).env = s.env ∧
    (s.noteSource src).triggers = s.triggers := ⟨rfl, rfl, rfl, rfl, rfl, rfl⟩

/-- An entry left by a day step was there, with its instants shifted since; one of a call sounds and is stale. -/
theorem Entry.Spared.of_shifted {z : Zone} {l m : List Entry} {by_ : Day} (hz : z.queue = l.map (Entry.shifted by_))
    (h : List.Forall₂ (Entry.Spared · Entry.ofCall) (z.spared Entry.ofCall) m) {y : Entry} (hy : y ∈ m) :
    ∃ x ∈ l, x.id = y.id ∧ y.expiry = x.expiry.map (fun i => ⟨i.day + by_, i.time⟩) ∧
      y.sync = x.sync.map (fun i => ⟨i.day + by_, i.time⟩) ∧
      (y.origin = .own → y.key.isSome = true → y.sounding = true ∧ y.stale = true) := by
  obtain ⟨x', hx', hspared, hsounds⟩ := Entry.Spared.of_mem h hy
  rw [hz] at hx'
  obtain ⟨x, hx, rfl⟩ := List.mem_map.mp hx'
  obtain ⟨st, rfl, hsound⟩ := hspared
  refine ⟨x, hx, rfl, rfl, rfl, fun hown hkey => ?_⟩
  have hcall : (x.shifted by_).ofCall = true := by
    rw [Entry.ofCall, Bool.and_eq_true, decide_eq_true_eq]
    exact ⟨hown, hkey⟩
  have hsounding := hsounds hcall
  exact ⟨hsound.trans hsounding, by simp [hcall, hsounding]⟩

/-- Where no two entries of a queue have one id, a day step leaves the ids of the entries not lost. -/
theorem Entry.Spared.ids_of_shifted {z : Zone} {l m : List Entry} {by_ : Day} (hz : z.queue = l.map (Entry.shifted by_))
    (h : List.Forall₂ (Entry.Spared · Entry.ofCall) (z.spared Entry.ofCall) m) (hl : (l.map (·.id)).Nodup) :
    m.map (·.id) = (l.filter fun en => !en.lostTo Entry.ofCall).map (·.id) := by
  have hids : z.queue.map (·.id) = l.map (·.id) := by
    rw [hz, List.map_map]
    rfl
  rw [Entry.Spared.ids h, Zone.spared_of_nodup (hids ▸ hl), hz, List.filter_map, List.map_map]
  rfl

/-- A fault report changes an origination at most in its zones, by a frame lost from a full queue (R181, R194). -/
theorem Net.report_originated (e : Env) (k : FaultKind) (source : Nat) (n : Net) :
    n.pau.Originated (Net.report e k source n).pau := by
  rcases Net.report_cases e k source n with ⟨_, _, _, _, _, _, h⟩ | ⟨_, _, _, _, _, hidle, hrun⟩ | ⟨_, _, h⟩
  · exact .of_table (by rw [h])
  · cases hr : e.running with
    | false => exact .of_table (by rw [hidle hr])
    | true =>
      rw [hrun hr]
      exact Net.enqueue_originated e _ _
  · exact .of_table (by rw [h])

/-- Settles O21: the straddle, the advance and the day step, each from what its beacon leaves. -/
theorem otherDayBeacon : Obligations.OtherDayBeacon := by
  refine ⟨fun s src f offset hset => ?_, fun s src f offset e reported shifted lost hset hother hday hoffset hout he
    hreported hshifted hlost => ?_⟩
  · obtain ⟨htime, hdate, hctb, hplay, henv, htriggers⟩ := s.noteSource_frame src
    refine ⟨fun hday hoffset hlow hhigh => ?_, fun hday hoffset => ?_, fun hother hday hoffset hout => ?_⟩
    · have hother : f.day ≠ s.sck.day := fun h => by simp [h] at hday
      rw [State.sourceBeacon_otherDay src hset hother, State.otherDayBeacon_straddle]
      · rfl
      · exact hday
      · rw [htime]; omega
      · rw [htime]; omega
    · have hother : f.day ≠ s.sck.day := fun h => by simp [h] at hday
      have hframe := State.otherDayBeacon_advance_frame (s := s.noteSource src) src (time := f.time) (hdate ▸ hday)
      rw [htime, hctb, hplay, henv, htriggers] at hframe
      rw [State.sourceBeacon_otherDay src hset hother, hoffset]
      exact hframe
    · obtain ⟨htime', hdate', hlocked, hpending, hfree, hnet, _, hzones⟩ := State.otherDayBeacon_step_frame
        (s := s.noteSource src) src (time := f.time) (hdate ▸ hother) (hdate ▸ hday)
        fun h => by have hfar := hout (h.trans hdate); rw [htime]; omega
      rw [hplay, henv, hdate] at hnet
      simp only [hplay, hdate] at hzones
      rw [State.sourceBeacon_otherDay src hset hother]
      obtain ⟨horig, hflt, _⟩ := Net.withdrawAll_keyed { s.env with now := ⟨f.day, f.time⟩ }
        ((Net.report { s.env with now := ⟨f.day, f.time⟩ } .timeStep src s.play.net).onPau fun q =>
          { q with table := q.table.map fun o => { o with expiry := o.expiry.shift (f.day - s.sck.day) } })
      refine ⟨htime', hdate', hlocked, hpending, hfree, fun o en hen => ?_, fun x hx => ?_, fun hnone => ?_⟩
      · obtain ⟨z, hz, hspared⟩ := hzones o
        obtain ⟨x, hx, hid, hexpiry, hsync, _⟩ := Entry.Spared.of_shifted hz hspared hen
        exact ⟨x, hx, hid, hexpiry, hsync⟩
      · rw [hnet] at hx
        obtain ⟨y, hy, hid, _, hexpiry, _⟩ := horig x hx
        obtain ⟨w, hw, rfl⟩ := List.mem_map.mp hy
        obtain ⟨v, hv, hid', _, hexpiry', _⟩ := Net.report_originated _ _ _ _ w hw
        exact ⟨v, hv, (hid.trans hid').symm, hexpiry.trans (congrArg (Instant.shift · _) hexpiry')⟩
      · rw [hnet, hflt]
        exact Net.report_recorded hnone
  · obtain ⟨htime, hdate, _, hplay, henv, _⟩ := s.noteSource_frame src
    obtain ⟨_, _, _, _, _, hnet, hcounts, hzones⟩ := State.otherDayBeacon_step_frame
      (s := s.noteSource src) src (time := f.time) (hdate ▸ hother) (hdate ▸ hday)
      fun h => by have hfar := hout (h.trans hdate); rw [htime]; omega
    rw [hplay, henv, hdate] at hnet
    rw [hplay] at hcounts
    simp only [hplay, hdate] at hzones
    have hshift : shifted = (Net.report { s.env with now := ⟨f.day, f.time⟩ } .timeStep src s.play.net).onPau fun q =>
        { q with table := q.table.map fun o => { o with expiry := o.expiry.shift (f.day - s.sck.day) } } := by
      rw [hshifted, hreported, he]
      rfl
    have hlost' : lost = Entry.lostTo Entry.ofCall := funext fun en => (hlost en).trans rfl
    rw [State.sourceBeacon_otherDay src hset hother, hshift, hlost', he]
    refine ⟨hnet, fun x hx => ?_, fun o en hen => ?_, fun hids hle => ⟨fun o => ?_, ?_⟩⟩
    · rw [hnet] at hx
      obtain ⟨_, _, hwithdrawn⟩ := Net.withdrawAll_keyed { s.env with now := ⟨f.day, f.time⟩ } _
      exact hwithdrawn x hx
    · obtain ⟨z, hz, hspared⟩ := hzones o
      obtain ⟨_, _, _, _, _, hcall⟩ := Entry.Spared.of_shifted hz hspared hen
      exact hcall
    · obtain ⟨z, hz, hspared⟩ := hzones o
      exact Entry.Spared.ids_of_shifted hz hspared (hids o)
    · rw [hcounts, bump_iterate hle]

end Sys2Proof.Machine
end

section
/-! PROOFS. Two refutations (O46, O47). The statements take a queue as it comes; where two of its entries carry one id,
an announcement that the call event itself composes puts the second back among the waiting and, by its id, the first
with it, which a removal had just left because it sounded. -/
namespace Sys2Proof.Machine

/-! ### The station of the counterexamples -/

/-- A trigger entry of an event that asks for one ALERT announcement in zone 22. -/
def alertOn (ev : CallEvent) : Trigger :=
  { enabled := true, kind := .state, event := some ev, lead := 0, stale := 30, select := .any, platValue := 0,
    platMask := 0, catValue := 0, catMask := 0, opValue := 0, opMask := 0, minDelay := 0, template := 0,
    cls := .alert, platformZones := false, extra := 1#64 <<< 22, expiry := 600, additive := false, sync := false }

/-- The zone of output 2. -/
def alertZone : ZoneCfg :=
  { output := 2, zone := 22, base := 0, gmin := 60, gmax := 200, qcap := 120, fallback := none, noise := 160,
    limits := ⟨40, 900, 200⟩, preset := 0, params := ⟨0, 1, 8, 10, 10, 300, 100, 40, true, 0⟩, candidates := [] }

/-- An image of one zone and one covered platform that announces an event at once. -/
def alertImage (ev : CallEvent) : Image :=
  { format := 1, check := 0, address := 9, dayStart := 0, requalify := 2, quietStart := 1320, quietEnd := 360,
    marginEvac := 40, marginAlert := 30, marginService := 20, marginInfo := 10, fevac := 150, slew := 10,
    bases := ⟨1000, 1100, 1130, 1200, 1330⟩, routing := ⟨true, true, true, true, true⟩, lock := false,
    zones := [alertZone], platforms := [⟨12, 4, 0, 0⟩], templates := [[⟨.phrase 7, false, none⟩]],
    triggers := [alertOn ev], evacList := [⟨.phrase 4033, false, none⟩] }

/-- A departure from platform 12, BOOKED. -/
def bookedCall : CallRec :=
  { code := 0x314132330000, kind := .dep, platform := 12, booked := 610, delay := 0, expected := 610,
    qualified := 610, category := 2, operator := 3, place := 2400, points := [2101], coaches := some 8, forms := none,
    state := .booked, entered := ⟨5, 0⟩, hold := none, alteredIn := false, epoch := 0, fired := 0 }

/-- An item of the call that sounds. -/
def soundingItem : Entry :=
  { newEntry ⟨9, 5⟩ .info .own (some bookedCall.key) (some 0) none false none 22 with state := .rendering }

/-- An item of another station that is starting, under the id of `soundingItem`. -/
def twinItem : Entry :=
  { newEntry ⟨9, 5⟩ .info (.remote 3) none none none false none 22 with state := .starting }

/-- RUNNING with the clock set, and both items queued in zone 22 behind no channel. -/
def twinState (ev : CallEvent) (c : CallTable) : State :=
  { State.reset with
    cfl := { State.reset.cfl with load := .running, image := some (alertImage ev), headerDone := true }
    sck := { State.reset.sck with state := .locked, day := 5, time := 36000000 }
    elapsed := 4096
    ctb := c
    play := (State.reset.play.onZone 2 fun z => { z with id := some 22, queue := [soundingItem, twinItem] }).onCfu
      fun c => { c with port := none } }

/-! ### The cancelled call -/

/-- The station that announces a cancellation, with the call at place 0. -/
def twinBooked : State := twinState .cancelled (State.reset.ctb.put 0 (.held bookedCall))

/-- A CALL_SET whose key the cancellation uses, as the claim about CALL_CANCEL takes its key from one. -/
def cancelledSet : CallSetFrame := ⟨⟨0x314132330000, 1, 5⟩, false, 12, ⟨610, 0, 2, 3, 2400, 8, 0, [2101]⟩⟩

theorem twinBooked_takes_cancel : twinBooked.TakesFrame ⟨3, 31⟩ ∧ twinBooked.checkKey cancelledSet.key = some (.dep, 0) ∧
    twinBooked.ctb.find cancelledSet.key.code .dep = some (0, bookedCall) := by
  unfold State.TakesFrame; decide +kernel

/-- After the CALL_CANCEL an item of the call's earlier epoch waits in zone 22 and is not to stop. -/
theorem twinBooked_cancelled_leaves_waiting :
    (((twinBooked.tookGood.callCancel cancelledSet.key).finish.play.zone 2).queue.any fun en => en.origin = .own &&
      en.key = some bookedCall.key && en.epoch ≠ some (bookedCall.epoch + 1) && !en.isStopping) = true := by
  decide +kernel

/-- Refutes O47: a CALL_CANCEL that announces itself leaves an item of the earlier epoch waiting, where two items of one
queue carry one id. -/
theorem not_callMovesAndReturns : ¬ Obligations.CallMovesAndReturns := by
  unfold Obligations.CallMovesAndReturns
  intro h
  obtain ⟨htakes, hkey, hfind⟩ := twinBooked_takes_cancel
  obtain ⟨_, hcancel⟩ :=
    h.1 twinBooked ⟨3, 31⟩ cancelledSet .dep 0 cancelledSet.fields 0 bookedCall htakes (by decide) hkey hfind
  obtain ⟨t, ht, hstop⟩ := hcancel rfl
  rw [exec_callCancel_of_takes htakes cancelledSet.key (by decide)] at ht
  rw [← Host.Outcome.next.inj ht] at hstop
  obtain ⟨en, hmem, hen⟩ := List.any_eq_true.mp twinBooked_cancelled_leaves_waiting
  simp only [Bool.and_eq_true, decide_eq_true_eq, Bool.not_eq_true'] at hen
  obtain ⟨⟨⟨hown, hk⟩, hepoch⟩, hnot⟩ := hen
  rw [hstop 2 en hmem hown hk hepoch] at hnot
  cases hnot

/-! ### The full table -/

/-- A departed call of another service, with a retire hold. -/
def departedCall : CallRec := { bookedCall with state := .departed, hold := some 5 }

/-- The newcomer. -/
def newcomer : CallRec := { bookedCall with code := 0x324132330000 }

/-- The station that announces a new record, with every place held by the departed call. -/
def twinFull : State := twinState .created { State.reset.ctb with places := Vector.replicate 96 (.held departedCall) }

theorem twinFull_places (i : Fin 96) : twinFull.ctb.places.get i = .held departedCall := by
  simp [twinFull, twinState]

theorem twinFull_victim : twinFull.ctb.freePlace = none ∧ twinFull.ctb.victim newcomer = some (0, departedCall) := by
  decide +kernel

/-- After the eviction an item of the evicted call waits in zone 22. -/
theorem twinFull_create_leaves_waiting :
    (((twinFull.create newcomer).play.zone 2).queue.any fun en => en.origin = .own &&
      en.key = some departedCall.key && !en.sounding) = true := by
  decide +kernel

/-- Refutes O46: a new record that announces itself leaves an item of the evicted call waiting, where two items of one
queue carry one id. -/
theorem not_fullTableSettled : ¬ Obligations.FullTableSettled := by
  unfold Obligations.FullTableSettled
  intro h
  obtain ⟨⟨hfull, _⟩, _⟩ := h
  obtain ⟨hfree, hvictim⟩ := twinFull_victim
  obtain ⟨_, hevict⟩ := hfull twinFull newcomer hfree fun i old hold => by
    rw [twinFull_places] at hold
    cases hold
    decide
  obtain ⟨_, _, _, _, _, hitems, _⟩ := hevict 0 departedCall hvictim
  obtain ⟨en, hmem, hen⟩ := List.any_eq_true.mp twinFull_create_leaves_waiting
  simp only [Bool.and_eq_true, decide_eq_true_eq, Bool.not_eq_true'] at hen
  obtain ⟨⟨hown, hk⟩, hnot⟩ := hen
  rw [(hitems 2 en hmem hown hk).1] at hnot
  cases hnot

end Sys2Proof.Machine
end

section
/-! PROOFS. Every step completes, and time passes when nothing is due (R27); what holds right after reset (R188). -/
namespace Sys2Proof.Machine

/-! ### Every step completes -/

/-- Every command completes in every state. -/
theorem exec_completes (i : Instr) (s : State) : ∃ t, exec i s = .next t := by
  cases i with
  | powerOnReset | headerReadComplete | headerReadTimeout | configReadComplete | configLoadTimeout | beacon
  | stationDayEnd | wholeSecond | heardEntryExpire | holdoverTimeout | quietHoursChange | restart => exact ⟨_, rfl⟩
  | _ =>
    refine (exec_same _ s ?_).imp fun _ h => h.1
    rfl

theorem step_of_empty {s : State} (h : s.pending = []) : step s = .next s.idle := by
  simp only [step, h]

/-- No step stops. -/
theorem step_runs (s : State) : Runs s := by
  unfold Runs
  cases hs : s.pending with
  | nil => exact ⟨_, step_of_empty hs⟩
  | cons i rest =>
    obtain ⟨t, ht⟩ := exec_completes i { s with pending := rest }
    exact ⟨t, by simpa only [step, hs] using ht⟩

theorem State.idle_of_due {s : State} {i : Instr} (h : s.nextDue = some i) : s.idle = { s with pending := [i] } := by
  simp only [State.idle, h]

theorem State.idle_of_none_due {s : State} (h : s.nextDue = none) : s.idle = s.tick := by
  simp only [State.idle, h]

/-- Settles O2: the two cases of the idle step, and that each command completes. -/
theorem idleStep : Obligations.IdleStep := by
  refine ⟨fun s hempty => ⟨fun i hdue => ?_, fun hnone => ⟨?_, rfl⟩⟩, step_runs⟩
  · rw [step_of_empty hempty, State.idle_of_due hdue]
  · rw [step_of_empty hempty, State.idle_of_none_due hnone]

/-! ### Right after reset -/

@[simp] theorem State.reset_zone (o : Out) : State.reset.play.zone o = Zone.off := replicate_get _ o

@[simp] theorem State.reset_place (i : Fin 96) : State.reset.ctb.places.get i = .free := replicate_get _ i

@[simp] theorem State.reset_slot (i : Fin 32) : State.reset.play.cmu.slots.get i = none := replicate_get _ i

@[simp] theorem State.reset_record (i : Fin 16) : State.reset.play.net.flt.records.get i = none := replicate_get _ i

/-- An output with an empty queue is in order (R78). -/
theorem Zone.ordered_of_empty {z : Zone} (h : z.queue = []) : z.Ordered := by
  simp [Zone.Ordered, h]

/-- With no body held, no entry queued and no image, there is no reference to count (R69). -/
theorem State.reset_refsCounted : State.reset.RefsCounted where
  queues o := by simp [Zone.off]
  slots i j a b ha := by simp at ha
  general i b hb := by simp at hb
  bodies o en hen := by simp [Zone.off] at hen
  evac b hb := by cases hb
  noEvac _ o en hen := by simp [Zone.off] at hen
  hand := rfl
  table := Nat.zero_le _
  inForce i hi := by cases hi
  loaded i n hi := by cases hi

/-- Settles O60: at reset every queue and table is empty. -/
theorem invariantsAtReset : Obligations.InvariantsAtReset := by
  refine ⟨Clock.reset_valid, fun o => ?_, fun i j a b ha => ?_, Nat.zero_le _, fun i j a b ha => ?_,
    State.reset_refsCounted⟩
  · rw [State.reset_zone]
    exact Zone.ordered_of_empty rfl
  · simp at ha
  · simp at ha

end Sys2Proof.Machine
end

section
/-! PROOFS. The sources of the Service Clock (R29), holdover (R33), and the quiet-hours signal with the retries that it
ends (R37, R163). -/
namespace Sys2Proof.Machine

/-! ### Sources (R29) -/

@[simp] theorem heardLive_none (elapsed : Nat) : heardLive elapsed none = false := rfl

theorem heardLive_some_iff (elapsed x : Nat) : heardLive elapsed (some x) = true ↔ elapsed < x + 3000 := by
  simp [heardLive]

/-- The lowest live address has none below it that is live (R29). -/
theorem Clock.lowestLive_eq_some_iff (c : Clock) (elapsed : Nat) (a : Fin 31) :
    c.lowestLive elapsed = some a.val ↔ 1 ≤ a.val ∧ heardLive elapsed (c.heard.get a) = true ∧
      ∀ b : Fin 31, 1 ≤ b.val → b < a → heardLive elapsed (c.heard.get b) = false := by
  have hfirst := find?_eq_some_iff_of_ascending id
    (fun b : Fin 31 => decide (1 ≤ b.val) && heardLive elapsed (c.heard.get b)) (List.pairwise_lt_finRange 31) a
  have hval : c.lowestLive elapsed = some a.val ↔
      (List.finRange 31).find? (fun b => decide (1 ≤ b.val) && heardLive elapsed (c.heard.get b)) = some a := by
    unfold Clock.lowestLive
    rw [Option.map_eq_some_iff]
    constructor
    · rintro ⟨b, hb, hba⟩
      rwa [← Fin.ext hba]
    · exact fun h => ⟨a, h, rfl⟩
  rw [hval, hfirst]
  simp only [List.mem_finRange, true_and, Bool.and_eq_true, decide_eq_true_eq, Bool.and_eq_false_iff, id_eq,
    decide_eq_false_iff_not, forall_const, and_assoc]
  refine and_congr_right fun _ => and_congr_right fun _ => forall_congr' fun b => ?_
  tauto

theorem Clock.lowestLive_eq_none_iff (c : Clock) (elapsed : Nat) :
    c.lowestLive elapsed = none ↔ ∀ b : Fin 31, 1 ≤ b.val → heardLive elapsed (c.heard.get b) = false := by
  simp [Clock.lowestLive, List.find?_eq_none]

theorem State.heardDue_of_get {s : State} {a : Fin 31} {x : Nat} (h : s.sck.heard.get a = some x)
    (hx : x + 3000 ≤ s.elapsed) : s.heardDue a = true := by
  simp [State.heardDue, h, hx]

/-! ### Holdover (R33) -/

/-- Entry to HOLDOVER: the report reads the load state and the time, which stand (R33, R194). -/
theorem State.holdover_eq {s : State} {m : SourceMark} (h : s.sck.lastSource = some m) :
    s.holdover = { s with
      sck := { s.sck with state := .holdover, pendingStep := none }
      play := { s.play with net := Net.report s.env .timeHoldover m.address s.play.net } } := by
  have hreport : Net.report (s.onSck fun c => { c with state := .holdover, pendingStep := none }).env .timeHoldover
      m.address s.play.net = Net.report s.env .timeHoldover m.address s.play.net := Net.report_congr rfl rfl _ _ _
  unfold State.holdover
  rw [h, ← hreport]
  rfl

theorem State.holdoverDue_of_source {s : State} {m : SourceMark} (hlocked : s.sck.state = .locked)
    (h : s.sck.lastSource = some m) (hm : m.elapsed + 5000 ≤ s.elapsed) : s.holdoverDue = true := by
  simp [State.holdoverDue, hlocked, h, hm]

/-! ### Pending retries (R163) -/

/-- The survey state of an output once a retry that was pending has ended refused (R163). -/
def Survey.refused (v : Survey) : Survey :=
  if v.retryAt.isSome then { v with retryAt := none, record := { SurveyRecord.never with outcome := .refused } } else v

theorem Survey.refused_of_none {v : Survey} (h : v.retryAt = none) : v.refused = v := by
  simp [Survey.refused, h]

theorem Survey.refused_of_pending {v : Survey} (h : v.retryAt.isSome = true) :
    v.refused = { v with retryAt := none, record := { SurveyRecord.never with outcome := .refused } } := by
  simp [Survey.refused, h]

@[simp] theorem Survey.refused_retryAt (v : Survey) : v.refused.retryAt = none := by
  cases h : v.retryAt with
  | none => rw [Survey.refused_of_none h, h]
  | some x => rw [Survey.refused_of_pending (by rw [h]; rfl)]

theorem Play.refuseAuto_surveyAt (p : Play) (o k : Out) :
    (p.refuseAuto o).surveyAt k = if k = o then (p.surveyAt k).refused else p.surveyAt k := by
  unfold Play.refuseAuto
  split
  · next h =>
    change (p.onSurvey o _).surveyAt k = _
    rw [Play.onSurvey_surveyAt]
    split
    · next e => rw [e, Survey.refused_of_pending h]
    · rfl
  · next h =>
    split
    · next e => rw [e, Survey.refused_of_none (by simpa using h)]
    · rfl

/-- A refused retry changes the Voicing Survey Unit alone. -/
theorem Play.refuseAuto_frame (p : Play) (o : Out) : ∃ v, p.refuseAuto o = { p with vsu := v } := by
  unfold Play.refuseAuto
  split
  · exact ⟨_, rfl⟩
  · exact ⟨p.vsu, rfl⟩

theorem Play.refuseAll_frame (l : List Out) (p : Play) : ∃ v, l.foldl Play.refuseAuto p = { p with vsu := v } := by
  induction l generalizing p with
  | nil => exact ⟨p.vsu, rfl⟩
  | cons o rest ih =>
    obtain ⟨v, hv⟩ := p.refuseAuto_frame o
    rw [List.foldl_cons, hv]
    exact ih { p with vsu := v }

theorem Play.refuseAll_surveyAt (l : List Out) (p : Play) (k : Out) :
    (l.foldl Play.refuseAuto p).surveyAt k = if k ∈ l then (p.surveyAt k).refused else p.surveyAt k := by
  induction l generalizing p with
  | nil => simp
  | cons o rest ih =>
    rw [List.foldl_cons, ih, Play.refuseAuto_surveyAt]
    by_cases hko : k = o
    · simp [hko, Survey.refused_of_none]
    · simp [hko]

/-! ### The quiet-hours signal (R37) -/

/-- The quiet-hours signal takes its level, and as it clears it ends the pending retries (R37, R163). -/
theorem State.settleQuiet_eq (s : State) : s.settleQuiet = { s with
    sck := { s.sck with quiet := s.quietNow }
    play := if s.quietNow = false ∧ s.sck.quiet = true then allOuts.foldl Play.refuseAuto s.play else s.play } := by
  unfold State.settleQuiet
  dsimp only
  split
  · next hsame =>
    rw [if_neg (fun ⟨hnow, hold⟩ => Bool.false_ne_true (hnow.symm.trans (hsame.trans hold))), hsame]
  · next hchange =>
    split
    · next hnow =>
      rw [if_neg (fun h => Bool.false_ne_true (h.1.symm.trans hnow))]
      rfl
    · next hnow =>
      rw [Bool.not_eq_true] at hnow
      rw [hnow] at hchange
      rw [if_pos ⟨hnow, Bool.eq_true_of_not_eq_false (Ne.symm hchange)⟩]
      rfl

theorem inWindow_eq (start stop minute : Nat) : inWindow start stop minute =
    decide (start < stop ∧ start ≤ minute ∧ minute < stop ∨ stop < start ∧ (start ≤ minute ∨ minute < stop)) := by
  rw [Bool.eq_iff_iff, decide_eq_true_eq]
  unfold inWindow
  split
  · simp only [Bool.and_eq_true, decide_eq_true_eq]; omega
  · split
    · simp only [Bool.or_eq_true, decide_eq_true_eq]; omega
    · simp only [Bool.false_eq_true, false_iff]; omega

/-- The level in RUNNING: the clock is set and its clock minute lies in the window (R37). -/
theorem State.quietNow_of_image {s : State} {m : Image} (h : s.cfl.image = some m) :
    s.quietNow = decide (s.sck.state ≠ .unset ∧
      (m.quietStart < m.quietEnd ∧ m.quietStart ≤ clockMinute m.dayStart s.sck.time ∧
          clockMinute m.dayStart s.sck.time < m.quietEnd ∨
        m.quietEnd < m.quietStart ∧ (m.quietStart ≤ clockMinute m.dayStart s.sck.time ∨
          clockMinute m.dayStart s.sck.time < m.quietEnd))) := by
  unfold State.quietNow
  rw [h, Bool.decide_and, ← inWindow_eq]

theorem exec_heardEntryExpire (a : Fin 31) (s : State) :
    exec (.heardEntryExpire a) s = .next (s.when (s.heardDue a) (State.expireHeard a)) := rfl

theorem exec_holdoverTimeout (s : State) :
    exec .holdoverTimeout s = .next (s.when s.holdoverDue State.holdover) := rfl

theorem exec_quietHoursChange (s : State) : exec .quietHoursChange s = .next s.settleQuiet := rfl

/-- Settles O35: what the selection afresh chooses, the entry to HOLDOVER, and the level with the retries that it ends. -/
theorem sourcesAndQuiet : Obligations.SourcesAndQuiet := by
  intro s
  refine ⟨fun a x hx hold => ?_, fun m hlocked hm hold => ?_, fun m hm => ?_⟩
  · rw [exec_heardEntryExpire, State.heardDue_of_get hx hold, State.when_true]
    refine ⟨(s.expireHeard a).sck, rfl, upd_get_self _ _ _, fun b hb => upd_get_of_ne _ _ _ _ hb, fun b hb => ?_,
      fun hnone => ?_, rfl, rfl, rfl, rfl, rfl, rfl⟩
    · exact (Clock.lowestLive_eq_some_iff _ _ _).mp hb
    · exact (Clock.lowestLive_eq_none_iff _ _).mp hnone
  · rw [exec_holdoverTimeout, State.holdoverDue_of_source hlocked hm hold, State.when_true, State.holdover_eq hm]
    exact ⟨_, rfl, rfl, rfl, rfl, rfl, rfl, rfl, rfl⟩
  · rw [exec_quietHoursChange, State.settleQuiet_eq, ← State.quietNow_of_image hm]
    obtain ⟨v, hv⟩ := Play.refuseAll_frame allOuts s.play
    refine ⟨_, rfl, rfl, fun hstays => if_neg ?_, fun hnow hold o => ?_, ?_, ?_, rfl, rfl, rfl⟩
    · rintro ⟨hnow, hold⟩
      rcases hstays with h | h
      · exact Bool.false_ne_true (hnow.symm.trans h)
      · exact Bool.false_ne_true (h.symm.trans hold)
    · have hrefused : (allOuts.foldl Play.refuseAuto s.play).surveyAt o = (s.play.surveyAt o).refused := by
        rw [Play.refuseAll_surveyAt, if_pos (mem_allOuts o)]
      dsimp only at hnow ⊢
      rw [if_pos ⟨hnow, hold⟩, hrefused]
      refine ⟨Survey.refused_retryAt _, fun hpending => ?_, Survey.refused_of_none⟩
      rw [Survey.refused_of_pending hpending]
      rfl
    · dsimp only
      rw [hv]
      split <;> rfl
    · dsimp only
      rw [hv]
      split <;> rfl

end Sys2Proof.Machine
end

section
/-! PROOFS. The beacon at the Service Clock (R29 to R32, R34, R35): which source is selected, what a source beacon applies,
and the whole-second signal that follows it. -/
namespace Sys2Proof.Machine

/-! ### The loader and the elapsed time, which no time taken from a beacon changes -/

/-- The loader and the elapsed time are the same. -/
def State.SameBase (s t : State) : Prop := t.cfl = s.cfl ∧ t.elapsed = s.elapsed

theorem State.SameBase.refl (s : State) : s.SameBase s := ⟨rfl, rfl⟩

theorem State.SameBase.trans {s t u : State} (h : s.SameBase t) (k : t.SameBase u) : s.SameBase u := by
  obtain ⟨hcfl, helapsed⟩ := h
  obtain ⟨hcfl', helapsed'⟩ := k
  exact ⟨hcfl'.trans hcfl, helapsed'.trans helapsed⟩

theorem State.setTime_base (day : Day) (time : Nat) (s : State) : s.SameBase (s.setTime day time) := by
  obtain ⟨_, hcfl, helapsed, _⟩ := State.setTime_frame day time s
  exact ⟨hcfl, helapsed⟩

theorem State.secondAfter_base (old : Clock) (s : State) : s.SameBase (s.secondAfter old) := by
  obtain ⟨_, hcfl, helapsed, _⟩ := s.wholeSecond_frame
  unfold State.secondAfter
  split
  · exact .refl s
  · exact ⟨hcfl, helapsed⟩

theorem State.reportStep_base (src : Nat) (s : State) : s.SameBase (s.reportStep src) := ⟨rfl, rfl⟩

theorem State.rollOver_base (s : State) : s.SameBase s.rollOver := by
  obtain ⟨_, hcfl, helapsed, _⟩ := s.rollOver_same
  exact ⟨hcfl, helapsed⟩

theorem State.clearTable_base (s : State) : s.SameBase s.clearTable := by
  unfold State.clearTable
  exact ⟨by rw [State.onCtb_cfl, State.onPlay_cfl], by rw [State.onCtb_elapsed, State.onPlay_elapsed]⟩

theorem State.sameDayBeacon_base (src time : Nat) (s : State) : s.SameBase (s.sameDayBeacon src time) := by
  have hset := s.setTime_base s.sck.day time
  have hold : ∀ q, s.SameBase (s.onSck fun c => { c with pendingStep := q }) := fun _ => ⟨rfl, rfl⟩
  unfold State.sameDayBeacon
  dsimp only
  split
  · exact hset.trans (State.secondAfter_base _ _)
  · split
    · exact hold _
    · split
      · exact (hset.trans (State.reportStep_base _ _)).trans (State.secondAfter_base _ _)
      · exact hold _

theorem State.otherDayBeacon_base (src : Nat) (day : Day) (time : Nat) (s : State) :
    s.SameBase (s.otherDayBeacon src day time) := by
  have hset := s.setTime_base day time
  unfold State.otherDayBeacon
  dsimp only
  split
  · exact ⟨rfl, rfl⟩
  · split
    · refine State.SameBase.trans ?_ ((State.rollOver_base _).trans (State.secondAfter_base _ _))
      split
      · exact hset
      · exact hset.trans (State.reportStep_base _ _)
    · refine State.SameBase.trans ?_ ((State.clearTable_base _).trans (State.secondAfter_base _ _))
      exact hset.trans ⟨rfl, rfl⟩

theorem State.sourceBeacon_base (src : Nat) (f : BeaconFrame) (s : State) : s.SameBase (s.sourceBeacon src f) := by
  have hnote : s.SameBase (s.noteSource src) := ⟨rfl, rfl⟩
  unfold State.sourceBeacon
  dsimp only
  split
  · exact hnote.trans ((State.setTime_base _ _ _).trans (State.secondAfter_base _ _))
  · split
    · exact hnote.trans (State.sameDayBeacon_base _ _ _)
    · exact hnote.trans (State.otherDayBeacon_base _ _ _ _)

/-! ### The end of a command (R117, R172) -/

@[simp] theorem State.finish_tgu (s : State) : s.finish.tgu = s.tgu := by
  unfold State.finish
  rw [State.onPlay_tgu]

@[simp] theorem State.finish_zpc (s : State) : s.finish.play.zpc = s.play.zpc := by
  obtain ⟨hzpc, _⟩ := s.finish_frame
  exact hzpc

@[simp] theorem State.finish_cmu (s : State) : s.finish.play.cmu = s.play.cmu := by
  obtain ⟨_, hcmu, _⟩ := s.finish_frame
  exact hcmu

/-! ### The whole-second signal after a beacon (R35) -/

/-- The whole-second signal follows where station time lies in another whole second than before, and else nothing. -/
theorem State.secondAfter_eq (old : Clock) (s : State) : s.secondAfter old =
    if s.sck.day = old.day ∧ s.sck.time / 1000 = old.time / 1000 then s else s.wholeSecond := by
  unfold State.secondAfter
  simp only [Bool.and_eq_true, decide_eq_true_eq]

theorem State.secondAfter_cases (old : Clock) (s : State) :
    s.secondAfter old = s ∨ s.secondAfter old = s.wholeSecond := by
  rw [State.secondAfter_eq]
  split
  · exact .inl rfl
  · exact .inr rfl

theorem State.secondAfter_clock (old : Clock) (s : State) :
    ∃ due, (s.secondAfter old).sck = { s.sck with secondDue := due } := by
  rcases State.secondAfter_cases old s with h | h
  · exact ⟨s.sck.secondDue, by rw [h]⟩
  · obtain ⟨hsck, _⟩ := s.wholeSecond_frame
    exact ⟨false, by rw [h, hsck]⟩

/-- The whole-second signal leaves every record in its place, with its service code (R45). -/
theorem State.wholeSecond_code (s : State) (i : Fin 96) :
    (s.wholeSecond.ctb.places.get i).rec?.map (·.code) = (s.ctb.places.get i).rec?.map (·.code) := by
  obtain ⟨_, _, _, _, _, _, hheld, hnone, _⟩ := s.wholeSecond_frame
  by_cases h : ∃ r, s.ctb.places.get i = .held r
  · obtain ⟨r, hr⟩ := h
    rw [hheld i r hr, hr]
    rfl
  · rw [hnone i fun r hr => h ⟨r, hr⟩]

theorem State.secondAfter_code (old : Clock) (s : State) (i : Fin 96) :
    ((s.secondAfter old).ctb.places.get i).rec?.map (·.code) = (s.ctb.places.get i).rec?.map (·.code) := by
  rcases State.secondAfter_cases old s with h | h <;> rw [h]
  exact s.wholeSecond_code i

/-! ### A source beacon (R30 to R32) -/

/-- The state that has noted a source beacon and taken its time and day (R30). -/
def State.timed (src : Nat) (f : BeaconFrame) (s : State) : State := (s.noteSource src).setTime f.day f.time

/-- A source beacon that is applied locks the clock at its day and time, with no pending step, and is the last one. -/
theorem State.timed_clock (src : Nat) (f : BeaconFrame) (s : State) : ∃ quiet, (s.timed src f).sck = { s.sck with
    lastSource := some ⟨s.elapsed, src⟩, state := .locked, day := f.day, time := f.time, pendingStep := none
    dayEndDue := false, quiet := quiet } := by
  obtain ⟨_, _, _, quiet, hsck⟩ := State.settleQuiet_frame ((s.noteSource src).onSck fun c => { c with
    state := .locked, day := f.day, time := f.time, pendingStep := none, dayEndDue := false })
  exact ⟨quiet, hsck⟩

theorem State.timed_ctb (src : Nat) (f : BeaconFrame) (s : State) : (s.timed src f).ctb = s.ctb :=
  State.setTime_ctb _ _ _

theorem State.timed_date (src : Nat) (f : BeaconFrame) (s : State) :
    (s.timed src f).sck.day = f.day ∧ (s.timed src f).sck.time = f.time := by
  obtain ⟨quiet, hsck⟩ := s.timed_clock src f
  rw [hsck]
  exact ⟨rfl, rfl⟩

/-- The first source beacon is adopted (R30). -/
theorem State.sourceBeacon_unset {s : State} (src : Nat) (f : BeaconFrame) (h : s.sck.state = .unset) :
    s.sourceBeacon src f = (s.timed src f).secondAfter s.sck := by
  unfold State.sourceBeacon
  dsimp only
  rw [if_pos h]
  rfl

theorem State.sourceBeacon_sameDay {s : State} {f : BeaconFrame} (src : Nat) (hset : s.sck.state ≠ .unset)
    (hday : f.day = s.sck.day) : s.sourceBeacon src f = (s.noteSource src).sameDayBeacon src f.time := by
  unfold State.sourceBeacon
  dsimp only
  rw [if_neg hset, if_pos hday]
  rfl

/-- An offset within ±2000 ms is taken (R31). -/
theorem State.sameDayBeacon_near {s : State} (src : Nat) {time : Nat}
    (hnear : ((time : Int) - s.sck.time).natAbs ≤ 2000) :
    s.sameDayBeacon src time = (s.setTime s.sck.day time).secondAfter s.sck := by
  unfold State.sameDayBeacon
  exact if_pos hnear

/-- A large offset confirmed by this sender's pending step is taken and reported (R31). -/
theorem State.sameDayBeacon_confirmed {s : State} {src time : Nat} {q : PendingStep}
    (hfar : 2000 < ((time : Int) - s.sck.time).natAbs) (hpending : s.sck.pendingStep = some q) (hsrc : q.address = src)
    (hconfirms : ((time : Int) - s.sck.time - q.offset).natAbs ≤ 100) :
    s.sameDayBeacon src time = ((s.setTime s.sck.day time).reportStep src).secondAfter s.sck := by
  unfold State.sameDayBeacon
  dsimp only
  rw [if_neg (Nat.not_le.mpr hfar), hpending]
  refine if_pos ?_
  rw [Bool.and_eq_true, decide_eq_true_eq, decide_eq_true_eq]
  exact ⟨hsrc, hconfirms⟩

/-- A large offset that nothing confirms becomes the pending step (R31). -/
theorem State.sameDayBeacon_unconfirmed {s : State} {src time : Nat}
    (hfar : 2000 < ((time : Int) - s.sck.time).natAbs)
    (hnone : ∀ q, s.sck.pendingStep = some q → q.address = src →
      100 < ((time : Int) - s.sck.time - q.offset).natAbs) :
    s.sameDayBeacon src time =
      s.onSck fun c => { c with pendingStep := some ⟨src, (time : Int) - s.sck.time⟩ } := by
  unfold State.sameDayBeacon
  dsimp only
  rw [if_neg (Nat.not_le.mpr hfar)]
  split
  · rfl
  · next q hq =>
    refine if_neg ?_
    rw [Bool.and_eq_true, decide_eq_true_eq, decide_eq_true_eq]
    rintro ⟨hsrc, hconfirms⟩
    exact absurd (hnone q hq hsrc) (Nat.not_lt.mpr hconfirms)

theorem State.sourceBeacon_near {s : State} {f : BeaconFrame} (src : Nat) (hset : s.sck.state ≠ .unset)
    (hday : f.day = s.sck.day) (hnear : ((f.time : Int) - s.sck.time).natAbs ≤ 2000) :
    s.sourceBeacon src f = (s.timed src f).secondAfter s.sck := by
  rw [State.sourceBeacon_sameDay src hset hday, State.sameDayBeacon_near (s := s.noteSource src) src hnear, State.timed,
    hday]
  rfl

theorem State.sourceBeacon_confirmed {s : State} {f : BeaconFrame} {src : Nat} {q : PendingStep}
    (hset : s.sck.state ≠ .unset) (hday : f.day = s.sck.day) (hfar : 2000 < ((f.time : Int) - s.sck.time).natAbs)
    (hpending : s.sck.pendingStep = some q) (hsrc : q.address = src)
    (hconfirms : ((f.time : Int) - s.sck.time - q.offset).natAbs ≤ 100) :
    s.sourceBeacon src f = ((s.timed src f).reportStep src).secondAfter s.sck := by
  rw [State.sourceBeacon_sameDay src hset hday,
    State.sameDayBeacon_confirmed (s := s.noteSource src) hfar hpending hsrc hconfirms, State.timed, hday]
  rfl

theorem State.sourceBeacon_unconfirmed {s : State} {f : BeaconFrame} {src : Nat} (hset : s.sck.state ≠ .unset)
    (hday : f.day = s.sck.day) (hfar : 2000 < ((f.time : Int) - s.sck.time).natAbs)
    (hnone : ∀ q, s.sck.pendingStep = some q → q.address = src →
      100 < ((f.time : Int) - s.sck.time - q.offset).natAbs) :
    s.sourceBeacon src f = s.onSck fun c =>
      { c with lastSource := some ⟨s.elapsed, src⟩, pendingStep := some ⟨src, (f.time : Int) - s.sck.time⟩ } := by
  rw [State.sourceBeacon_sameDay src hset hday, State.sameDayBeacon_unconfirmed (s := s.noteSource src) hfar hnone]
  rfl

/-- An advance by one day takes the time, reports a step beyond ±2000 ms and rolls the table over (R32, R34). -/
theorem State.sourceBeacon_advance {s : State} {f : BeaconFrame} (src : Nat) (hset : s.sck.state ≠ .unset)
    (hday : f.day = s.sck.day + 1) :
    s.sourceBeacon src f = (if (86400000 + ((f.time : Int) - s.sck.time)).natAbs ≤ 2000 then s.timed src f
      else (s.timed src f).reportStep src).rollOver.secondAfter s.sck := by
  have hother : f.day ≠ s.sck.day := fun h => by simp [h] at hday
  rw [State.sourceBeacon_otherDay src hset hother, State.otherDayBeacon_advance (s := s.noteSource src) src hday,
    ← Int.add_sub_assoc]
  rfl

/-- A day step takes the time, reports, shifts the held instants and clears the table (R32). -/
theorem State.sourceBeacon_dayStep {s : State} {f : BeaconFrame} (src : Nat) (hset : s.sck.state ≠ .unset)
    (hother : f.day ≠ s.sck.day) (hday : f.day ≠ s.sck.day + 1)
    (hstraddle : f.day + 1 = s.sck.day → -86400000 + ((f.time : Int) - s.sck.time) < -2000 ∨
      0 < -86400000 + ((f.time : Int) - s.sck.time)) :
    s.sourceBeacon src f = (((s.timed src f).reportStep src).onPlay fun _ p =>
      p.shiftInstants (f.day - s.sck.day)).clearTable.secondAfter s.sck := by
  rw [State.sourceBeacon_otherDay src hset hother, State.otherDayBeacon_step (s := s.noteSource src) src hday]
  · rfl
  · intro h
    obtain ⟨htime, _⟩ := s.noteSource_frame src
    have hout := hstraddle h
    rw [htime]
    omega

/-! ### Sources (R29) -/

/-- The beacon of a station is noted in the heard list and the source selected afresh (R29). -/
def State.hear (a : Fin 31) (s : State) : State :=
  s.onSck fun c => Clock.reselect { c with heard := upd c.heard a fun _ => some s.elapsed } s.elapsed

/-- The state that has heard one address and selected another, a change of source discarding the pending step (R29). -/
def State.hearing (src a : Fin 31) (s : State) : State :=
  s.onSck fun c => { c with
    heard := upd c.heard src fun _ => some s.elapsed, selected := some a.val
    pendingStep := if c.selected = some a.val then c.pendingStep else none }

section selection
variable {s : State} {src a : Fin 31} (hpos : 1 ≤ a.val)
  (hbelow : ∀ b : Fin 31, 1 ≤ b.val → b < a → b ≠ src ∧ heardLive s.elapsed (s.sck.heard.get b) = false)
  (ha : a = src ∨ heardLive s.elapsed (s.sck.heard.get a) = true)
include hpos hbelow ha

/-- The address selected as a beacon is heard: its sender or a live one, with none live below (R29). -/
theorem State.hear_eq_hearing : s.hear src = s.hearing src a := by
  have hlowest : Clock.lowestLive { s.sck with heard := upd s.sck.heard src fun _ => some s.elapsed } s.elapsed =
      some a.val := by
    rw [Clock.lowestLive_eq_some_iff]
    refine ⟨hpos, ?_, fun b hb hlt => ?_⟩
    · rw [upd_get]
      split
      · rw [heardLive_some_iff]
        omega
      · next hne => exact ha.resolve_left hne
    · obtain ⟨hne, hdead⟩ := hbelow b hb hlt
      rwa [upd_get_of_ne _ _ _ _ hne]
  unfold State.hear State.hearing Clock.reselect State.onSck
  dsimp only
  simp only [hlowest, eq_comm]

/-- A beacon that is used for time is applied when it comes from the source then selected (R29). -/
theorem State.timeBeacon_hearing {f : BeaconFrame} (hsrc : 1 ≤ src.val) (hcapable : f.timeCapable = true)
    (htime : f.time < 86400000) :
    s.timeBeacon src.val f = if a = src then (s.hearing src a).sourceBeacon src.val f else s.hearing src a := by
  have hhear := State.hear_eq_hearing hpos hbelow ha
  have hselected : (s.hearing src a).sck.selected = some src.val ↔ a = src := by
    rw [State.hearing, State.onSck_sck, Option.some.injEq, Fin.ext_iff]
  unfold State.timeBeacon
  rw [dif_pos ⟨hcapable, htime, hsrc, src.isLt⟩]
  change (if (s.hear src).sck.selected = some src.val then (s.hear src).sourceBeacon src.val f else s.hear src) = _
  simp only [hhear, hselected]

end selection

theorem heardLive_eq_false_iff (elapsed : Nat) (t : Option Nat) :
    heardLive elapsed t = false ↔ ∀ x, t = some x → x + 3000 ≤ elapsed := by
  cases t <;> simp [heardLive]

/-- A good beacon acts at the Service Clock, and then in RUNNING at the owner map (R29, R107; log entry 54). -/
theorem exec_beacon_good {s : State} {env : Envelope} {f : BeaconFrame} (hdst : destOk s.cfl.own env.dst = true)
    (hload : f.loadState = 1) : exec (.beacon env f) s = .next
      (((s.tookGood.timeBeacon env.src f).whenRunning fun u => u.onNet fun e n => n.ownerBeacon e env.src f).finish) := by
  simp only [exec, execBeacon, hload, decide_true, State.receive_good _ hdst]

theorem State.timeBeacon_base (src : Nat) (f : BeaconFrame) (s : State) : s.SameBase (s.timeBeacon src f) := by
  unfold State.timeBeacon
  split
  · extract_lets u
    have hu : s.SameBase u := ⟨rfl, rfl⟩
    split
    · exact hu.trans (State.sourceBeacon_base src f u)
    · exact hu
  · exact .refl s

/-- Whether or not the owner map takes the beacon, the clock and the Call Table are as the Service Clock left them. -/
theorem exec_beacon_tables {s : State} {env : Envelope} {f : BeaconFrame} (hdst : destOk s.cfl.own env.dst = true)
    (hload : f.loadState = 1) : ∃ t, exec (.beacon env f) s = .next t ∧ t.sck = (s.tookGood.timeBeacon env.src f).sck ∧
      t.ctb = (s.tookGood.timeBeacon env.src f).ctb := by
  refine ⟨_, exec_beacon_good hdst hload, ?_, ?_⟩
  · rw [State.finish_sck]
    exact State.whenRunning_keeps (P := fun u => u.sck = (s.tookGood.timeBeacon env.src f).sck) rfl rfl
  · rw [State.finish_ctb]
    exact State.whenRunning_keeps (P := fun u => u.ctb = (s.tookGood.timeBeacon env.src f).ctb) rfl rfl

theorem exec_beacon_running {s : State} {env : Envelope} {f : BeaconFrame} (h : s.TakesFrame env)
    (hload : f.loadState = 1) : exec (.beacon env f) s =
      .next ((s.tookGood.timeBeacon env.src f).onNet fun e n => n.ownerBeacon e env.src f).finish := by
  obtain ⟨hrunning, hdst⟩ := h
  obtain ⟨hcfl, _⟩ := State.timeBeacon_base env.src f s.tookGood
  rw [exec_beacon_good hdst hload, State.whenRunning_running]
  rw [hcfl]
  exact hrunning

/-- A beacon that RUNNING takes from a station, with the source selected as it is heard: the lowest address heard within
3 s (R29). -/
theorem exec_beacon_hearing {s : State} {env : Envelope} {f : BeaconFrame} {a : Fin 31} {h : env.src < 31}
    (htakes : s.TakesFrame env) (hload : f.loadState = 1) (hcapable : f.timeCapable = true) (htime : f.time < 86400000)
    (hpos : 1 ≤ env.src) (hposa : 1 ≤ a.val)
    (hbelow : ∀ b : Fin 31, 1 ≤ b.val → b < a → b.val ≠ env.src ∧
      ∀ x, s.sck.heard.get b = some x → x + 3000 ≤ s.elapsed)
    (ha : a.val = env.src ∨ ∃ x, s.sck.heard.get a = some x ∧ s.elapsed < x + 3000) :
    exec (.beacon env f) s = .next ((if a = ⟨env.src, h⟩ then
      (s.tookGood.hearing ⟨env.src, h⟩ a).sourceBeacon env.src f else s.tookGood.hearing ⟨env.src, h⟩ a).onNet
        fun e n => n.ownerBeacon e env.src f).finish := by
  have hused := State.timeBeacon_hearing (s := s.tookGood) (src := ⟨env.src, h⟩) (a := a) hposa
    (fun b hb hlt => by
      obtain ⟨hne, hold⟩ := hbelow b hb hlt
      exact ⟨fun e => hne (congrArg Fin.val e), (heardLive_eq_false_iff _ _).mpr hold⟩)
    (ha.imp (Fin.ext (b := ⟨env.src, h⟩)) fun ⟨x, hx, hlive⟩ => by
      rw [State.tookGood_sck, hx, heardLive_some_iff]
      exact hlive) hpos hcapable htime
  rw [exec_beacon_running htakes hload, hused]

/-! ### What an applied beacon leaves -/

section applied
variable {s applied : State} {src : Nat} {f : BeaconFrame} (h : applied.sck = (s.timed src f).sck)
include h

/-- The whole-second signal depends on the beacon's day and second, and on those before it (R35; log entry 13). -/
theorem State.secondAfter_applied : applied.secondAfter s.sck =
    if f.day = s.sck.day ∧ f.time / 1000 = s.sck.time / 1000 then applied else applied.wholeSecond := by
  obtain ⟨hday, htime⟩ := s.timed_date src f
  rw [State.secondAfter_eq, h, hday, htime]

theorem State.secondAfter_applied_clock : (applied.secondAfter s.sck).sck.time = f.time ∧
    (applied.secondAfter s.sck).sck.day = f.day ∧ (applied.secondAfter s.sck).sck.state = .locked ∧
    (applied.secondAfter s.sck).sck.pendingStep = none := by
  obtain ⟨due, hsck⟩ := State.secondAfter_clock s.sck applied
  obtain ⟨quiet, htimed⟩ := s.timed_clock src f
  rw [hsck, h, htimed]
  exact ⟨rfl, rfl, rfl, rfl⟩

end applied

/-- The first source beacon is adopted whole, and every record stays in its place (R29, R30). -/
theorem State.timeBeacon_adopts {s : State} {src : Nat} {f : BeaconFrame} (hsrc : src < 31)
    (hcapable : f.timeCapable = true) (htime : f.time < 86400000) (hpos : 1 ≤ src) (hunset : s.sck.state = .unset)
    (hbelow : ∀ a : Fin 31, 1 ≤ a.val → a.val < src → heardLive s.elapsed (s.sck.heard.get a) = false) :
    (∃ quiet due, (s.timeBeacon src f).sck = { s.sck with
      heard := upd s.sck.heard ⟨src, hsrc⟩ fun _ => some s.elapsed, selected := some src
      lastSource := some ⟨s.elapsed, src⟩, state := .locked, day := f.day, time := f.time, pendingStep := none
      dayEndDue := false, quiet := quiet, secondDue := due }) ∧
    ∀ i, ((s.timeBeacon src f).ctb.places.get i).rec?.map (·.code) = (s.ctb.places.get i).rec?.map (·.code) := by
  have hused := State.timeBeacon_hearing (src := ⟨src, hsrc⟩) hpos
    (fun b hb hlt => ⟨ne_of_lt hlt, hbelow b hb hlt⟩) (.inl rfl) hpos hcapable htime
  rw [hused, if_pos rfl, State.sourceBeacon_unset (s := s.hearing _ _) src f hunset]
  refine ⟨?_, fun i => ?_⟩
  · obtain ⟨due, hsck⟩ := State.secondAfter_clock _ (State.timed src f _)
    obtain ⟨quiet, htimed⟩ := State.timed_clock src f _
    rw [hsck, htimed]
    exact ⟨quiet, due, rfl⟩
  · rw [State.secondAfter_code, State.timed_ctb, State.hearing, State.onSck_ctb]

/-- A source beacon of the own day, by its offset and the pending step (R31). -/
theorem State.sourceBeacon_sameDay_frame {s : State} (src : Nat) {f : BeaconFrame} (hset : s.sck.state ≠ .unset)
    (hday : f.day = s.sck.day) :
    (((f.time : Int) - s.sck.time).natAbs ≤ 2000 →
      (s.sourceBeacon src f).sck.time = f.time ∧ (s.sourceBeacon src f).sck.day = s.sck.day ∧
      (s.sourceBeacon src f).sck.state = .locked ∧ (s.sourceBeacon src f).sck.pendingStep = none) ∧
    (2000 < ((f.time : Int) - s.sck.time).natAbs →
      (∃ q, s.sck.pendingStep = some q ∧ q.address = src ∧ ((f.time : Int) - s.sck.time - q.offset).natAbs ≤ 100) →
      (s.sourceBeacon src f).sck.time = f.time ∧ (s.sourceBeacon src f).sck.state = .locked ∧
      (s.sourceBeacon src f).sck.pendingStep = none) := by
  refine ⟨fun hnear => ?_, fun hfar ⟨q, hq, hsrc, hconfirms⟩ => ?_⟩
  · rw [State.sourceBeacon_near src hset hday hnear, ← hday]
    exact State.secondAfter_applied_clock (src := src) rfl
  · rw [State.sourceBeacon_confirmed hset hday hfar hq hsrc hconfirms]
    obtain ⟨htime, _, hlocked, hpending⟩ :=
      State.secondAfter_applied_clock (src := src) (State.reportStep_sck src (s.timed src f))
    exact ⟨htime, hlocked, hpending⟩

/-- Settles O20: the adoption, the own day, the selected source and another, and what an applied beacon brings about. -/
theorem beaconTime : Obligations.BeaconTime := by
  refine ⟨⟨⟨fun s env f h hdst hload hcapable htime hpos hunset hbelow => ?_, fun s src f hset hday => ?_⟩,
    fun s env f h heard a htakes hload hcapable htime hpos hposa hbelow ha hheard => ?_⟩,
    fun s src f offset set applied step hoffset hset hstep happlied => ?_, fun u => ⟨rfl, rfl⟩⟩
  · obtain ⟨t, ht, hsck, hctb⟩ := exec_beacon_tables (f := f) hdst hload
    obtain ⟨⟨quiet, due, hclock⟩, hcode⟩ := State.timeBeacon_adopts (s := s.tookGood) h hcapable htime hpos hunset hbelow
    refine ⟨t, ht, ?_⟩
    rw [hsck, hctb, hclock]
    refine ⟨rfl, rfl, rfl, rfl, upd_get_self _ _ _, rfl, rfl, vector_ext fun i => ?_⟩
    rw [Vector.get_map, Vector.get_map]
    exact hcode i
  · obtain ⟨hnear, hconfirmed⟩ := State.sourceBeacon_sameDay_frame src hset hday
    exact ⟨hnear, State.sourceBeacon_unconfirmed hset hday, hconfirmed⟩
  · have hexec := exec_beacon_hearing (h := h) htakes hload hcapable htime hpos hposa hbelow ha
    rw [show s.tookGood.hearing ⟨env.src, h⟩ a = heard from hheard.symm] at hexec
    rw [hexec]
    refine ⟨fun hsame => ?_, fun hother => ?_⟩
    · have hbase : s.SameBase heard := hheard ▸ ⟨rfl, rfl⟩
      obtain ⟨hcfl, helapsed⟩ := hbase.trans (heard.sourceBeacon_base env.src f)
      rw [if_pos (Fin.ext hsame)]
      refine ⟨_, rfl, rfl, ?_⟩
      simp [hcfl, helapsed]
    · rw [if_neg fun e => hother (congrArg Fin.val e)]
      refine ⟨_, rfl, rfl, ?_⟩
      simp [hheard, State.tookGood_play]
  · have hset' : set = s.timed src f := hset
    have hstep' : step = State.reportStep src := funext hstep
    subst hset' hstep' hoffset
    rcases happlied with ⟨hunset, rfl⟩ | ⟨hlive, hcase⟩
    · rw [State.sourceBeacon_unset src f hunset]
      exact State.secondAfter_applied (src := src) rfl
    · rcases hcase with ⟨hday, hnear, rfl⟩ | ⟨hday, hfar, ⟨q, hq, hsrc, hconfirms⟩, rfl⟩ | ⟨hday, rfl⟩ |
        ⟨hother, hday, hstraddle, rfl⟩
      · rw [State.sourceBeacon_near src hlive hday hnear]
        exact State.secondAfter_applied (src := src) rfl
      · rw [State.sourceBeacon_confirmed hlive hday hfar hq hsrc hconfirms]
        exact State.secondAfter_applied (State.reportStep_sck src _)
      · rw [State.sourceBeacon_advance src hlive hday]
        refine State.secondAfter_applied (src := src) ?_
        rw [State.rollOver_sck]
        split
        · rfl
        · rw [State.reportStep_sck]
      · rw [State.sourceBeacon_dayStep src hlive hother hday hstraddle]
        refine State.secondAfter_applied (src := src) ?_
        rw [State.clearTable_sck, State.onPlay_sck, State.reportStep_sck]

end Sys2Proof.Machine
end

section
/-! PROOFS. The Trigger Unit: what an entry accepts (R41), the zones of a request (R51), the hits, requests and withheld
requests of STATE matching (R42, R50, R53, R54), and the firing and re-arming of LEAD pairs (R44 to R48). -/
namespace Sys2Proof.Machine

/-! ### Matching (R41) -/

/-- A value matches under a mask when it agrees with the field at the mask's bits. -/
theorem maskMatch_iff {w : Nat} (value mask field : BitVec w) :
    maskMatch value mask field = true ↔
      ∀ b : Nat, b < w → mask.getLsbD b = true → value.getLsbD b = field.getLsbD b := by
  simp only [maskMatch, decide_eq_true_eq]
  constructor
  · intro h b _ hmask
    have hbit := congrArg (fun x : BitVec w => x.getLsbD b) h
    simpa [hmask] using hbit
  · intro h
    refine BitVec.eq_of_getLsbD_eq fun b hb => ?_
    cases hmask : mask.getLsbD b with
    | false => simp [hmask]
    | true => simp [hmask, h b hb hmask]

theorem maskMatch_ofNat_iff {w : Nat} (value mask : BitVec w) (n : Nat) :
    maskMatch value mask (BitVec.ofNat w n) = true ↔
      ∀ b : Nat, b < w → mask.getLsbD b = true → value.getLsbD b = n.testBit b := by
  rw [maskMatch_iff]
  refine forall₂_congr fun b hb => ?_
  rw [BitVec.getLsbD_ofNat, decide_eq_true hb, Bool.true_and]

theorem KindSelect.accepts_iff (select : KindSelect) (kind : CallKind) :
    select.accepts kind = true ↔
      (select = .any ∨ select = .arr ∧ kind = .arr ∨ select = .dep ∧ kind = .dep) := by
  cases select <;> simp [KindSelect.accepts]

/-- What an entry accepts: the kind, the masked bits of platform, category and operator, and the least delay (R41). -/
theorem Trigger.accepts_iff (t : Trigger) (r : CallRec) (n : Nat) :
    t.accepts r n = true ↔
      ((t.select = .any ∨ t.select = .arr ∧ r.kind = .arr ∨ t.select = .dep ∧ r.kind = .dep) ∧
        (∀ b : Nat, b < 6 → t.platMask.getLsbD b = true → t.platValue.getLsbD b = n.testBit b) ∧
        (∀ b : Nat, b < 3 → t.catMask.getLsbD b = true → t.catValue.getLsbD b = r.category.testBit b) ∧
        (∀ b : Nat, b < 4 → t.opMask.getLsbD b = true → t.opValue.getLsbD b = r.operator.testBit b) ∧
        (t.minDelay = 0 ∨ (t.minDelay : Int) ≤ r.delay)) := by
  simp only [Trigger.accepts, Bool.and_eq_true, Bool.or_eq_true, decide_eq_true_eq, KindSelect.accepts_iff,
    maskMatch_ofNat_iff, and_assoc]

/-! ### Bits set and cleared along a list -/

/-- A bit after a run of steps each of which may set it. -/
theorem getLsbD_foldl_of_sets {α : Type} {w : Nat} {f : BitVec w → α → BitVec w} {k : Nat} {on : α → Bool}
    (hf : ∀ v a, (f v a).getLsbD k = (v.getLsbD k || on a)) (l : List α) (v : BitVec w) :
    (l.foldl f v).getLsbD k = (v.getLsbD k || l.any on) := by
  induction l generalizing v with
  | nil => simp
  | cons a rest ih => rw [List.foldl_cons, ih, hf, List.any_cons, Bool.or_assoc]

/-- A bit after a run of steps each of which may clear it. -/
theorem getLsbD_foldl_of_clears {α : Type} {w : Nat} {f : BitVec w → α → BitVec w} {k : Nat} {off : α → Bool}
    (hf : ∀ v a, (f v a).getLsbD k = (v.getLsbD k && !off a)) (l : List α) (v : BitVec w) :
    (l.foldl f v).getLsbD k = (v.getLsbD k && !l.any off) := by
  induction l generalizing v with
  | nil => simp
  | cons a rest ih => rw [List.foldl_cons, ih, hf, List.any_cons, Bool.not_or, Bool.and_assoc]

/-- The bits of a set that holds one number alone. -/
theorem getLsbD_one_shiftLeft {w k : Nat} (hk : k < w) (i : Nat) :
    (1#w <<< i).getLsbD k = decide (i = k) := by
  rw [← BitVec.twoPow_eq, BitVec.getLsbD_twoPow]
  by_cases h : i = k
  · simp [h, hk]
  · simp [h]

/-! ### The zones of a request (R51) -/

theorem addZone_has {k : Nat} (hk : k < 64) (z : ZoneSet) (i : Nat) :
    (addZone z i).getLsbD k = (z.getLsbD k || decide (i = k)) := by
  rw [addZone, BitVec.getLsbD_or, getLsbD_one_shiftLeft hk]

/-- The zones of a platform are those of the outputs configured for it. -/
theorem Env.platformZones_has_iff (e : Env) (p : Nat) {k : Nat} (hk : k < 64) :
    (e.platformZones p).getLsbD k = true ↔ ∃ c, e.platformCfg p = some c ∧
      ∃ (o : Out) (z : ZoneCfg), c.zones.getLsbD o.val = true ∧ e.zoneCfg o = some z ∧ z.zone = k := by
  unfold Env.platformZones
  cases e.platformCfg p with
  | none => simp
  | some c =>
    refine (Bool.eq_iff_iff.mp (getLsbD_foldl_of_sets (on := fun o => (e.zoneCfg o).any fun z => z.zone = k)
      (fun acc o => ?_) _ _)).trans ?_
    · cases e.zoneCfg o with
      | none => simp
      | some z => simp [addZone_has hk]
    · simp only [BitVec.ofNat_eq_ofNat, BitVec.getLsbD_zero, Bool.false_or, List.any_eq_true, mem_outsOf,
        Option.any_eq_true, decide_eq_true_eq, Option.some.injEq, exists_eq_left', exists_and_left]

/-- A request asks for the extra zones and, under its flag, for those of its zone platforms. -/
theorem Env.requestZones_has_iff (e : Env) (t : Trigger) (platforms : List Nat) {k : Nat} (hk : k < 64) :
    (e.requestZones t platforms).getLsbD k = true ↔
      t.extra.getLsbD k = true ∨ t.platformZones = true ∧ ∃ n ∈ platforms, ∃ c, e.platformCfg n = some c ∧
        ∃ (o : Out) (z : ZoneCfg), c.zones.getLsbD o.val = true ∧ e.zoneCfg o = some z ∧ z.zone = k := by
  have hfold : (platforms.foldl (fun z p => z ||| e.platformZones p) (0 : ZoneSet)).getLsbD k =
      platforms.any fun p => (e.platformZones p).getLsbD k := by
    refine (getLsbD_foldl_of_sets (on := fun p => (e.platformZones p).getLsbD k)
      (fun _ _ => BitVec.getLsbD_or) _ _).trans ?_
    rw [BitVec.ofNat_eq_ofNat, BitVec.getLsbD_zero, Bool.false_or]
  simp only [Env.requestZones, BitVec.getLsbD_or, Bool.or_eq_true, or_comm (b := t.extra.getLsbD k = true)]
  refine or_congr_right ?_
  cases t.platformZones with
  | false => simp
  | true => simp only [if_true, hfold, List.any_eq_true, Env.platformZones_has_iff e _ hk, true_and]

/-! ### The entries in force and their counters (R39, R42, R46) -/

theorem State.triggers_eq {s : State} {m : Image} (h : s.cfl.image = some m) :
    s.triggers = (List.finRange 32).filterMap fun k => m.triggers[k.val]?.map fun t => (k, t) := by
  simp only [State.triggers, h]

theorem State.mem_triggers {s : State} {m : Image} (h : s.cfl.image = some m) {k : Fin 32} {t : Trigger} :
    (k, t) ∈ s.triggers ↔ m.triggers[k.val]? = some t := by
  simp [State.triggers_eq h]

/-- The entries stand by ascending number. -/
theorem State.triggers_ascending (s : State) : s.triggers.Pairwise fun a b => a.1 < b.1 := by
  unfold State.triggers
  cases s.cfl.image with
  | none => exact List.Pairwise.nil
  | some m =>
    refine List.Pairwise.filterMap _ (fun i j hij a ha b hb => ?_) (List.pairwise_lt_finRange 32)
    obtain ⟨_, _, rfl⟩ := Option.map_eq_some_iff.mp ha
    obtain ⟨_, _, rfl⟩ := Option.map_eq_some_iff.mp hb
    exact hij

/-- A question about the entry of one number, asked of the list of entries, is one about the image. -/
theorem State.triggers_any {s : State} {m : Image} (h : s.cfl.image = some m) (k : Fin 32)
    (test : Fin 32 × Trigger → Bool) :
    (s.triggers.any fun t => decide (t.1 = k) && test t) = (m.triggers[k.val]?).any fun t => test (k, t) := by
  rw [Bool.eq_iff_iff]
  simp only [List.any_eq_true, Option.any_eq_true, Bool.and_eq_true, decide_eq_true_eq]
  constructor
  · rintro ⟨⟨j, t⟩, hmem, rfl, ht⟩
    exact ⟨t, (State.mem_triggers h).mp hmem, ht⟩
  · rintro ⟨t, hmem, ht⟩
    exact ⟨(k, t), (State.mem_triggers h).mpr hmem, rfl, ht⟩

/-- The entry of one number is among those that pass a test when the image's entry of that number passes it. -/
theorem State.triggers_filter_any {s : State} {m : Image} (h : s.cfl.image = some m) (k : Fin 32)
    (test : Fin 32 × Trigger → Bool) :
    ((s.triggers.filter test).any fun t => decide (t.1 = k)) = (m.triggers[k.val]?).any fun t => test (k, t) := by
  rw [List.any_filter, ← State.triggers_any h]
  simp only [Bool.and_comm]

/-- Elements changed once for each of a list of distinct places, read anywhere. -/
theorem foldl_upd_get {α β : Type} {n : Nat} (f : α → α) {l : List (Fin n × β)}
    (hl : l.Pairwise fun a b => a.1 < b.1) (v : Vector α n) (k : Fin n) :
    (l.foldl (fun v t => upd v t.1 f) v).get k =
      if l.any (fun t => decide (t.1 = k)) = true then f (v.get k) else v.get k := by
  induction l generalizing v with
  | nil => rfl
  | cons a rest ih =>
    obtain ⟨ha, hrest⟩ := List.pairwise_cons.mp hl
    rw [List.foldl_cons, ih hrest, List.any_cons]
    by_cases hak : a.1 = k
    · subst hak
      have hout : rest.any (fun t => decide (t.1 = a.1)) = false := by
        simp only [List.any_eq_false, decide_eq_true_eq]
        exact fun t ht => (ha t ht).ne'
      simp [hout]
    · rw [upd_get_of_ne _ _ _ _ (Ne.symm hak), decide_eq_false hak, Bool.false_or]

/-- The hit counters after the hits of the entries that pass a test. -/
theorem Triggers.hit_get {s : State} {m : Image} (h : s.cfl.image = some m) (test : Fin 32 × Trigger → Bool)
    (g : Triggers) (k : Fin 32) :
    (g.hit (s.triggers.filter test)).hits.get k =
      if (m.triggers[k.val]?).any (fun t => test (k, t)) = true then bump (g.hits.get k) else g.hits.get k := by
  rw [← State.triggers_filter_any h]
  exact foldl_upd_get bump (s.triggers_ascending.filter _) _ _

/-- The skip counters after the skips of the entries that pass a test. -/
theorem Triggers.skip_get {s : State} {m : Image} (h : s.cfl.image = some m) (test : Fin 32 × Trigger → Bool)
    (g : Triggers) (k : Fin 32) :
    (g.skip (s.triggers.filter test)).skips.get k =
      if (m.triggers[k.val]?).any (fun t => test (k, t)) = true then bump (g.skips.get k) else g.skips.get k := by
  rw [← State.triggers_filter_any h]
  exact foldl_upd_get bump (s.triggers_ascending.filter _) _ _

/-! ### Requests issued and withheld (R42, R50, R53, R54) -/

theorem requesters_eq (l : List (Fin 32 × Trigger)) :
    requesters l = l.take 1 ++ (l.drop 1).filter fun t => t.2.additive := by
  cases l <;> rfl

/-- The request that an entry issues at a state, for a call and its zone platforms (R50). -/
def State.requestOf (s : State) (snap : CallRec) (platforms : List Nat) (t : Fin 32 × Trigger) : Request :=
  { trigger := t.1, template := t.2.template, cls := t.2.cls, snap := snap
    zones := s.env.requestZones t.2 platforms, issued := ⟨s.sck.day, s.sck.time⟩, expiryMs := t.2.expiry * 1000
    sync := t.2.sync }

theorem State.issue_of_unset {s : State} (hunset : s.sck.state = .unset) (snap : CallRec) (platforms : List Nat)
    (t : Fin 32 × Trigger) :
    s.issue snap platforms t = s.onTgu fun g => { g with unsetHeld := bump g.unsetHeld } := by
  unfold State.issue
  exact if_pos hunset

theorem State.issue_of_noZone {s : State} (hset : s.sck.state ≠ .unset) {snap : CallRec} {platforms : List Nat}
    {t : Fin 32 × Trigger} (hzones : s.env.requestZones t.2 platforms = 0) :
    s.issue snap platforms t = s.onTgu fun g => { g with noZone := bump g.noZone } := by
  unfold State.issue
  exact (if_neg hset).trans (if_pos hzones)

theorem State.issue_of_zones {s : State} (hset : s.sck.state ≠ .unset) {snap : CallRec} {platforms : List Nat}
    {t : Fin 32 × Trigger} (hzones : s.env.requestZones t.2 platforms ≠ 0) :
    s.issue snap platforms t = (s.onTgu fun g => { g with issued := bump g.issued }).onPlay fun e p =>
      p.compose e (s.requestOf snap platforms t) := by
  unfold State.issue
  exact (if_neg hset).trans (if_neg hzones)

/-- While the clock is UNSET requests are withheld and counted, and nothing else changes (R53). -/
theorem State.issueAll_of_unset (snap : CallRec) (platforms : List Nat) (l : List (Fin 32 × Trigger)) {s : State}
    (hunset : s.sck.state = .unset) :
    l.foldl (State.issue snap platforms) s =
      s.onTgu fun g => { g with unsetHeld := bump^[l.length] g.unsetHeld } := by
  induction l generalizing s with
  | nil => rfl
  | cons t rest ih =>
    rw [List.foldl_cons, State.issue_of_unset hunset, ih (by exact hunset)]
    rfl

/-- With the clock set each request with a zone is counted as issued and each without as such (R53, R54). -/
theorem State.issueAll_tgu_of_set (snap : CallRec) (platforms : List Nat) (l : List (Fin 32 × Trigger)) {s : State}
    (hset : s.sck.state ≠ .unset) :
    (l.foldl (State.issue snap platforms) s).tgu = { s.tgu with
      issued := bump^[(l.filter fun t => s.env.requestZones t.2 platforms ≠ 0).length] s.tgu.issued
      noZone := bump^[(l.filter fun t => s.env.requestZones t.2 platforms = 0).length] s.tgu.noZone } := by
  induction l generalizing s with
  | nil => rfl
  | cons t rest ih =>
    obtain ⟨_, hsame⟩ := State.issue_frame snap platforms s t
    have hset' : (s.issue snap platforms t).sck.state ≠ .unset := by rw [hsame.1]; exact hset
    rw [List.foldl_cons, ih hset', hsame.env]
    by_cases hzones : s.env.requestZones t.2 platforms = 0
    · rw [State.issue_of_noZone hset hzones, List.filter_cons_of_neg (by simpa using hzones),
        List.filter_cons_of_pos (by simpa using hzones)]
      rfl
    · rw [State.issue_of_zones hset hzones, List.filter_cons_of_pos (by simpa using hzones),
        List.filter_cons_of_neg (by simpa using hzones)]
      rfl

/-- Requests count no hit and no skip. -/
theorem State.issueAll_counters (snap : CallRec) (platforms : List Nat) (l : List (Fin 32 × Trigger)) (s : State) :
    (l.foldl (State.issue snap platforms) s).tgu.hits = s.tgu.hits ∧
      (l.foldl (State.issue snap platforms) s).tgu.skips = s.tgu.skips := by
  by_cases hunset : s.sck.state = .unset
  · rw [State.issueAll_of_unset snap platforms l hunset]
    exact ⟨rfl, rfl⟩
  · rw [State.issueAll_tgu_of_set snap platforms l hunset]
    exact ⟨rfl, rfl⟩

/-! ### STATE matching (R42) -/

/-- The STATE entries of a call event that accept the call. -/
def State.stateFound (s : State) (ev : CallEvent) (r : CallRec) (platform : Nat) : List (Fin 32 × Trigger) :=
  s.triggers.filter fun t => t.2.enabled && t.2.kind = .state && t.2.event = some ev && t.2.accepts r platform

/-- A call event counts a hit for each entry found, and issues the requests of the requesters among them. -/
theorem State.stateMatch_eq (ev : CallEvent) (r : CallRec) (platform : Nat) (platforms : List Nat) (s : State) :
    s.stateMatch ev r platform platforms =
      (requesters (s.stateFound ev r platform)).foldl (State.issue r platforms)
        (s.onTgu fun g => g.hit (s.stateFound ev r platform)) := rfl

theorem State.stateMatch_counters {s : State} {m : Image} (hm : s.cfl.image = some m) (ev : CallEvent) (r : CallRec)
    (platform : Nat) (platforms : List Nat) :
    (∀ k : Fin 32, (s.stateMatch ev r platform platforms).tgu.hits.get k =
      if (m.triggers[k.val]?).any (fun t => t.enabled && t.kind = .state && t.event = some ev && t.accepts r platform)
        = true then bump (s.tgu.hits.get k) else s.tgu.hits.get k) ∧
      (s.stateMatch ev r platform platforms).tgu.skips = s.tgu.skips := by
  obtain ⟨hhits, hskips⟩ := State.issueAll_counters r platforms (requesters (s.stateFound ev r platform))
    (s.onTgu fun g => g.hit (s.stateFound ev r platform))
  rw [State.stateMatch_eq, hhits, hskips]
  exact ⟨fun k => Triggers.hit_get hm _ s.tgu k, rfl⟩

theorem State.stateMatch_unset {s : State} (hunset : s.sck.state = .unset) (ev : CallEvent) (r : CallRec)
    (platform : Nat) (platforms : List Nat) :
    s.stateMatch ev r platform platforms = s.onTgu fun g =>
      { g.hit (s.stateFound ev r platform) with
        unsetHeld := bump^[(requesters (s.stateFound ev r platform)).length] g.unsetHeld } := by
  rw [State.stateMatch_eq, State.issueAll_of_unset _ _ _ (by exact hunset)]
  rfl

theorem State.stateMatch_tgu_of_set {s : State} (hset : s.sck.state ≠ .unset) (ev : CallEvent) (r : CallRec)
    (platform : Nat) (platforms : List Nat) :
    (s.stateMatch ev r platform platforms).tgu = { s.tgu.hit (s.stateFound ev r platform) with
      issued := bump^[((requesters (s.stateFound ev r platform)).filter fun t =>
        s.env.requestZones t.2 platforms ≠ 0).length] s.tgu.issued
      noZone := bump^[((requesters (s.stateFound ev r platform)).filter fun t =>
        s.env.requestZones t.2 platforms = 0).length] s.tgu.noZone } := by
  rw [State.stateMatch_eq, State.issueAll_tgu_of_set _ _ _ (by exact hset)]
  rfl

/-- Where one entry alone requests, its request is composed (R50). -/
theorem State.stateMatch_play_of_one {s : State} (hset : s.sck.state ≠ .unset) {ev : CallEvent} {r : CallRec}
    {platform : Nat} {platforms : List Nat} {t : Fin 32 × Trigger}
    (hone : requesters (s.stateFound ev r platform) = [t]) (hzones : s.env.requestZones t.2 platforms ≠ 0) :
    (s.stateMatch ev r platform platforms).play = s.play.compose s.env (s.requestOf r platforms t) := by
  rw [State.stateMatch_eq, hone, List.foldl_cons, List.foldl_nil,
    State.issue_of_zones (by exact hset) (by exact hzones)]
  rfl

/-- Settles O48: what a trigger accepts, the zones of a request, and the counters and the request of a call event. -/
theorem requestsMatch : Obligations.RequestsMatch := by
  refine ⟨Trigger.accepts_iff, fun e t l z hz => e.requestZones_has_iff t l hz, ?_⟩
  intro s ev r n l m found asking hm hfound hasking hissued hnoZone hunsetHeld
  have hrequesters : requesters (s.stateFound ev r n) = asking := by
    rw [hasking, hfound, requesters_eq]
    rfl
  obtain ⟨hhits, hskips⟩ := State.stateMatch_counters hm ev r n l
  obtain ⟨hctb, hsame⟩ := State.stateMatch_frame ev r n l s
  refine ⟨hhits, hskips, hctb, hsame, fun hunset => ?_, fun hset => ?_, fun k t hone hset hzones => ?_⟩
  · rw [State.stateMatch_unset hunset, hrequesters]
    exact ⟨rfl, bump_iterate hunsetHeld _, rfl, rfl⟩
  · rw [State.stateMatch_tgu_of_set hset, hrequesters, bump_iterate hissued, bump_iterate hnoZone]
    exact ⟨rfl, rfl, rfl⟩
  · exact State.stateMatch_play_of_one hset (hrequesters.trans hone) hzones

/-! ### Due pairs (R44, R46) -/

/-- The fired set holds what it held and the numbers of the entries set. -/
theorem setFired_has (fired : BitVec 32) (l : List (Fin 32 × Trigger)) (k : Fin 32) :
    (setFired fired l).getLsbD k.val = (fired.getLsbD k.val || l.any fun t => decide (t.1 = k)) := by
  refine getLsbD_foldl_of_sets (fun v t => ?_) l fired
  rw [BitVec.getLsbD_or, getLsbD_one_shiftLeft k.isLt]
  simp only [Fin.ext_iff]

/-- The due pairs of a record that are not stale (R46). -/
def State.freshLeads (s : State) (r : CallRec) : List (Fin 32 × Trigger) :=
  s.triggers.filter fun t => leadDue s.sck.time r t && !leadStale s.sck.time r t

/-- The due pairs of a record that are stale (R46). -/
def State.staleLeads (s : State) (r : CallRec) : List (Fin 32 × Trigger) :=
  s.triggers.filter fun t => leadDue s.sck.time r t && leadStale s.sck.time r t

theorem State.evaluate_idle {s : State} {i : Fin 96} {r : CallRec} (h : s.ctb.places.get i = .held r)
    (hidle : s.sck.state = .unset ∨ r.state.live = false) : s.evaluate i = s := by
  have htest : (decide (s.sck.state = .unset) || !r.state.live) = true := by simpa using hidle
  simp only [State.evaluate, h]
  exact if_pos htest

/-- An evaluation of a live record counts its stale pairs as skips and its fresh ones as hits, sets the flags of both,
and issues the requests of the requesters among the fresh. -/
theorem State.evaluate_live {s : State} {i : Fin 96} {r : CallRec} (h : s.ctb.places.get i = .held r)
    (hset : s.sck.state ≠ .unset) (hlive : r.state.live = true) :
    s.evaluate i = (requesters (s.freshLeads r)).foldl (State.issue r [r.platform])
      ((s.onTgu fun g => (g.skip (s.staleLeads r)).hit (s.freshLeads r)).onCtb fun c =>
        c.onRec i fun x => { x with fired := setFired x.fired (s.triggers.filter (leadDue s.sck.time r)) }) := by
  have htest : ¬ (decide (s.sck.state = .unset) || !r.state.live) = true := by simp [hset, hlive]
  have hfresh : s.freshLeads r =
      (s.triggers.filter (leadDue s.sck.time r)).filter fun t => !leadStale s.sck.time r t := by
    simp only [State.freshLeads, List.filter_filter, Bool.and_comm]
  have hstale : s.staleLeads r =
      (s.triggers.filter (leadDue s.sck.time r)).filter (leadStale s.sck.time r) := by
    simp only [State.staleLeads, List.filter_filter, Bool.and_comm]
  rw [hfresh, hstale]
  simp only [State.evaluate, h]
  exact if_neg htest

/-- The flags of the due pairs are set (R46). -/
theorem State.firedAfter_has {s : State} {r : CallRec} {m : Image} (hset : s.sck.state ≠ .unset)
    (hlive : r.state.live = true) (hm : s.cfl.image = some m) (k : Fin 32) :
    (s.firedAfter r).getLsbD k.val =
      (r.fired.getLsbD k.val || (m.triggers[k.val]?).any fun t => leadDue s.sck.time r (k, t)) := by
  have hbusy : ¬ (s.sck.state = .unset ∨ r.state.live = false) := by simp [hset, hlive]
  rw [State.firedAfter, if_neg hbusy, setFired_has, State.triggers_filter_any hm]

section live
variable {s : State} {i : Fin 96} {r : CallRec} (h : s.ctb.places.get i = .held r)
  (hset : s.sck.state ≠ .unset) (hlive : r.state.live = true)
include h hset hlive

/-- The counters after an evaluation: hits for the fresh pairs, skips for the stale ones (R46). -/
theorem State.evaluate_counters {m : Image} (hm : s.cfl.image = some m) (k : Fin 32) :
    (s.evaluate i).tgu.hits.get k =
      (if (m.triggers[k.val]?).any (fun t => leadDue s.sck.time r (k, t) && !leadStale s.sck.time r (k, t)) = true
        then bump (s.tgu.hits.get k) else s.tgu.hits.get k) ∧
    (s.evaluate i).tgu.skips.get k =
      (if (m.triggers[k.val]?).any (fun t => leadDue s.sck.time r (k, t) && leadStale s.sck.time r (k, t)) = true
        then bump (s.tgu.skips.get k) else s.tgu.skips.get k) := by
  obtain ⟨hhits, hskips⟩ := State.issueAll_counters r [r.platform] (requesters (s.freshLeads r))
    ((s.onTgu fun g => (g.skip (s.staleLeads r)).hit (s.freshLeads r)).onCtb fun c =>
      c.onRec i fun x => { x with fired := setFired x.fired (s.triggers.filter (leadDue s.sck.time r)) })
  rw [State.evaluate_live h hset hlive, hhits, hskips]
  exact ⟨Triggers.hit_get hm _ _ k, Triggers.skip_get hm _ s.tgu k⟩

/-- The requests of an evaluation that are counted as issued (R46, R54). -/
theorem State.evaluate_issued :
    (s.evaluate i).tgu.issued = bump^[((requesters (s.freshLeads r)).filter fun t =>
      s.env.requestZones t.2 [r.platform] ≠ 0).length] s.tgu.issued := by
  rw [State.evaluate_live h hset hlive, State.issueAll_tgu_of_set _ _ _ (by exact hset)]
  rfl

theorem State.evaluate_play_of_no_fresh (hnone : s.freshLeads r = []) : (s.evaluate i).play = s.play := by
  rw [State.evaluate_live h hset hlive, hnone]
  rfl

end live

/-! ### Re-arming (R48) -/

/-- A re-arm clears the flags of the LEAD entries whose instants lie ahead. -/
theorem rearmed_has {s : State} {m : Image} (hm : s.cfl.image = some m) (time : Int) (r : CallRec) (k : Fin 32) :
    (rearmed s.triggers time r).getLsbD k.val = (r.fired.getLsbD k.val &&
      !(m.triggers[k.val]?).any fun t => t.kind = .lead && time < leadInstant t r) := by
  rw [← State.triggers_any hm k fun t => decide (t.2.kind = .lead) && decide (time < leadInstant t.2 r)]
  refine getLsbD_foldl_of_clears (fun v t => ?_) s.triggers r.fired
  split
  · next hahead =>
    rw [hahead, BitVec.getLsbD_and, BitVec.getLsbD_not, getLsbD_one_shiftLeft k.isLt]
    simp [Fin.ext_iff]
  · next hpast =>
    rw [Bool.eq_false_of_not_eq_true hpast]
    simp

theorem State.rearm_held {s : State} {i : Fin 96} {r : CallRec} (h : s.ctb.places.get i = .held r) :
    (s.rearm i).ctb.places.get i = .held { r with fired := rearmed s.triggers s.sck.time r } := by
  simp [State.rearm_eq, CallTable.onRec, h]

/-- Settles O49: what an evaluation of a held record does, and what a re-arm clears. -/
theorem leadsFire : Obligations.LeadsFire := by
  refine ⟨?_, fun s i r m hr hm => ⟨_, State.rearm_held hr, rfl, fun k => rearmed_has hm s.sck.time r k⟩⟩
  intro s i r m due late hr hm
  refine ⟨State.evaluate_idle hr, fun hset hlive hissued hlate hdue => ?_⟩
  have hstalePair : ∀ t, leadStale s.sck.time r t = late t.2 := fun t => (hlate t.2).symm
  have hduePair : ∀ t, leadDue s.sck.time r t = (due t.2 && !r.fired.getLsbD t.1.val) := fun t => by
    rw [hdue]
    rfl
  obtain ⟨hctb, hsame⟩ := State.evaluate_held hr
  obtain ⟨-, -, -, hothers⟩ := State.evaluate_frame s i
  refine ⟨fun k => ?_, ⟨{ r with fired := s.firedAfter r }, ?_, rfl, fun k => ?_⟩, hothers, hsame, ?_⟩
  · obtain ⟨hhits, hskips⟩ := State.evaluate_counters hr hset hlive hm k
    simp only [hhits, hskips, hduePair, hstalePair]
    cases r.fired.getLsbD k.val <;> simp
  · rw [hctb]
    exact upd_get_self _ _ _
  · simp only [State.firedAfter_has hset hlive hm, hduePair]
    cases r.fired.getLsbD k.val <;> simp
  · rintro fresh rfl
    have hfresh : s.freshLeads r =
        s.triggers.filter fun t => due t.2 && !late t.2 && !r.fired.getLsbD t.1.val := by
      simp only [State.freshLeads, hduePair, hstalePair, Bool.and_right_comm]
    rw [← hfresh, ← requesters_eq]
    refine ⟨?_, State.evaluate_play_of_no_fresh hr hset hlive⟩
    rw [State.evaluate_issued hr hset hlive, bump_iterate hissued]

end Sys2Proof.Machine
end

section
/-! PROOFS. A refutation (O29). The counts of the bodies (R69) leave it open that an EVAC entry, which refers to the
evacuation slot, carries the id of a general body; the displacement of that body selects its entries by id, and takes
the EVAC entry with them. -/
namespace Sys2Proof.Machine

/-! ### The store of the counterexample -/

/-- The body of each slot: that of slot 0 is of class INFO and has one entry, the others are of class SERVICE. -/
def crowdedBody (i : Fin 32) : Body :=
  ⟨⟨9, i.val + 100⟩, if i = 0 then .info else .service, .own, none, none, [.phrase 7], if i = 0 then 1 else 0⟩

/-- The evacuation body, with one entry. -/
def crowdedEvac : Body := ⟨⟨9, 0⟩, .evac, .evac, none, none, [.phrase 4033], 1⟩

/-- An entry that waits under the id of the body of slot 0. -/
def crowdedItem (cls : AnnClass) (origin : Origin) (zone : Nat) : Entry :=
  newEntry ⟨9, 100⟩ cls origin none none none false none zone

/-- Every slot held; the entry of the body of slot 0 waits in zone 22, and the EVAC entry in zone 23 under its id. -/
def crowdedState : State :=
  State.reset.onPlay fun _ p =>
    (({ p with cmu := { p.cmu with
        slots := Vector.ofFn fun i => some (crowdedBody i)
        evacSlot := some crowdedEvac
        order := List.finRange 32 } }).onZone 2 fun z =>
      { z with id := some 22, queue := [crowdedItem .info .own 22] }).onZone 3 fun z =>
      { z with id := some 23, queue := [crowdedItem .evac .evac 23] }

theorem crowdedState_slot (i : Fin 32) : crowdedState.play.cmu.slots.get i = some (crowdedBody i) := by
  revert i
  decide +kernel

theorem crowdedState_refsCounted : crowdedState.RefsCounted where
  queues := by decide +kernel
  slots i j a b ha hb hab := by
    have hdistinct : ∀ i j : Fin 32, (crowdedBody i).id = (crowdedBody j).id → i = j := by decide +kernel
    rw [crowdedState_slot] at ha hb
    cases ha
    cases hb
    exact hdistinct i j hab
  general i b hb := by
    rw [crowdedState_slot] at hb
    cases hb
    revert i
    decide +kernel
  bodies o en hen hcls := by
    have hbody : ∀ o : Out, ∀ en ∈ (crowdedState.play.zone o).queue, en.id = (crowdedBody 0).id := by decide +kernel
    exact ⟨0, crowdedBody 0, crowdedState_slot 0, (hbody o en hen).symm⟩
  evac b hb := by
    cases hb
    decide +kernel
  noEvac h := nomatch h
  hand := rfl
  table := Nat.zero_le _
  inForce i hi := nomatch hi
  loaded i n hi := nomatch hi

theorem crowdedState_victim : crowdedState.play.cmu.freeSlot = none ∧
    crowdedState.play.displacementVictim .alert = some (crowdedBody 0) := by
  decide +kernel

/-- The displacement of the body with one entry counts two. -/
theorem crowdedState_displaces_two :
    (crowdedState.play.obtainSlot crowdedState.env .alert).2.zpc.counts.displaced = 2 := by
  decide +kernel

/-- Refutes O29: the displacement of a body counts more entries than refer to it, where the EVAC entry carries its id. -/
theorem not_compositionSettles : ¬ Obligations.CompositionSettles := by
  unfold Obligations.CompositionSettles
  intro h
  obtain ⟨⟨_, _, hdisplaced⟩, _⟩ := h
  obtain ⟨hfull, hvictim⟩ := crowdedState_victim
  obtain ⟨_, _, _, _, hcounts, _⟩ := hdisplaced crowdedState .alert (crowdedBody 0) 0 crowdedState_refsCounted hfull
    hvictim (crowdedState_slot 0) (by decide) (by decide +kernel)
  have htwo := crowdedState_displaces_two
  rw [hcounts] at htwo
  exact absurd htwo (by decide +kernel)

end Sys2Proof.Machine
end

section
/-! PROOFS. The references to the bodies (R66, R69) as a multiset, and what the operations of the body store keep of the
counts: a reference added, given up, a body held, and the operation that held it ended. -/
namespace Sys2Proof.Machine

/-! ### References -/

/-- What of an entry its reference to a body depends on: the id names the general body, and an EVAC entry refers to the
evacuation slot (R69). -/
def Entry.tag (en : Entry) : AnnId × AnnClass := (en.id, en.cls)

/-- A general slot holds a body of the id (R66). -/
def Composition.Holds (c : Composition) (id : AnnId) : Prop :=
  ∃ (i : Fin 32) (b : Body), c.slots.get i = some b ∧ b.id = id

/-- The body that a reference refers to is held. -/
def Composition.Serves (c : Composition) (t : AnnId × AnnClass) : Prop :=
  (t.2 ≠ .evac → c.Holds t.1) ∧ (t.2 = .evac → c.evacSlot ≠ none)

/-- The number of references to the general body of an id. -/
def refCount (refs : Multiset (AnnId × AnnClass)) (id : AnnId) : Nat := refs.countP fun t => t.2 ≠ .evac ∧ t.1 = id

/-- The number of references to the evacuation slot. -/
def evacCount (refs : Multiset (AnnId × AnnClass)) : Nat := refs.countP fun t => t.2 = .evac

/-- The body store counts a multiset of references, while a command is carried out: as `State.RefsCounted` between
commands, but that a body may be in hand, which is then held. `ids` bounds the ids of the general bodies. -/
structure Composition.Counts (ids : AnnId → Prop) (hand : Option AnnId) (refs : Multiset (AnnId × AnnClass))
    (c : Composition) : Prop where
  distinct : ∀ (i j : Fin 32) (a b : Body), c.slots.get i = some a → c.slots.get j = some b → a.id = b.id → i = j
  general : ∀ (i : Fin 32) (b : Body), c.slots.get i = some b → b.cls ≠ .evac ∧ b.refs = refCount refs b.id
  evac : ∀ b : Body, c.evacSlot = some b → b.refs = evacCount refs
  serves : ∀ t ∈ refs, c.Serves t
  inHand : c.inHand = hand
  handHeld : ∀ id, hand = some id → c.Holds id
  within : ∀ (i : Fin 32) (b : Body), c.slots.get i = some b → ids b.id

theorem refCount_cons_general {t : AnnId × AnnClass} (h : t.2 ≠ .evac) (refs : Multiset (AnnId × AnnClass))
    (id : AnnId) : refCount (t ::ₘ refs) id = refCount refs id + if t.1 = id then 1 else 0 := by
  simp [refCount, Multiset.countP_cons, h]

theorem refCount_cons_evac {t : AnnId × AnnClass} (h : t.2 = .evac) (refs : Multiset (AnnId × AnnClass))
    (id : AnnId) : refCount (t ::ₘ refs) id = refCount refs id := by
  simp [refCount, h]

theorem evacCount_cons_general {t : AnnId × AnnClass} (h : t.2 ≠ .evac) (refs : Multiset (AnnId × AnnClass)) :
    evacCount (t ::ₘ refs) = evacCount refs := by
  simp [evacCount, h]

theorem evacCount_cons_evac {t : AnnId × AnnClass} (h : t.2 = .evac) (refs : Multiset (AnnId × AnnClass)) :
    evacCount (t ::ₘ refs) = evacCount refs + 1 := by
  simp [evacCount, h]

theorem refCount_pos_of_mem {refs : Multiset (AnnId × AnnClass)} {t : AnnId × AnnClass} (h : t ∈ refs)
    (ht : t.2 ≠ .evac) : 0 < refCount refs t.1 := Multiset.countP_pos.mpr ⟨t, h, ht, rfl⟩

theorem evacCount_pos_of_mem {refs : Multiset (AnnId × AnnClass)} {t : AnnId × AnnClass} (h : t ∈ refs)
    (ht : t.2 = .evac) : 0 < evacCount refs := Multiset.countP_pos.mpr ⟨t, h, ht⟩

/-! ### The store -/

@[simp] theorem Composition.onBody_evacSlot (c : Composition) (id : AnnId) (f : Body → Body) :
    (c.onBody id f).evacSlot = c.evacSlot := by
  simp only [Composition.onBody]

@[simp] theorem Composition.onBody_inHand (c : Composition) (id : AnnId) (f : Body → Body) :
    (c.onBody id f).inHand = c.inHand := by
  simp only [Composition.onBody]

@[simp] theorem Composition.sweep_evacSlot (c : Composition) : c.sweep.evacSlot = c.evacSlot := by
  simp only [Composition.sweep]

@[simp] theorem Composition.sweep_inHand (c : Composition) : c.sweep.inHand = c.inHand := by
  simp only [Composition.sweep]

@[simp] theorem Composition.hold_evacSlot (c : Composition) (i : Fin 32) (b : Body) :
    (c.hold i b).evacSlot = c.evacSlot := by
  simp only [Composition.hold]

@[simp] theorem Composition.hold_inHand (c : Composition) (i : Fin 32) (b : Body) :
    (c.hold i b).inHand = some b.id := by
  simp only [Composition.hold]

/-- What a slot holds after the body of an id was changed. -/
theorem Composition.onBody_get (c : Composition) (id : AnnId) (f : Body → Body) (i : Fin 32) :
    (c.onBody id f).slots.get i = (c.slots.get i).map fun b => if b.id = id then f b else b := by
  simp [Composition.onBody]

theorem Composition.onBody_get_eq_some {c : Composition} {id : AnnId} {f : Body → Body} {i : Fin 32} {b : Body} :
    (c.onBody id f).slots.get i = some b ↔ ∃ a, c.slots.get i = some a ∧ b = if a.id = id then f a else a := by
  rw [Composition.onBody_get, Option.map_eq_some_iff]
  exact exists_congr fun a => and_congr_right fun _ => eq_comm

/-- What a slot holds after a sweep: its body unless that has count 0 and is not in hand (R69). -/
theorem Composition.sweep_get (c : Composition) (i : Fin 32) :
    c.sweep.slots.get i = (c.slots.get i).filter fun b => !(b.refs = 0 && c.inHand ≠ some b.id) := by
  simp [Composition.sweep]

theorem Composition.sweep_get_eq_some {c : Composition} {i : Fin 32} {b : Body} :
    c.sweep.slots.get i = some b ↔ c.slots.get i = some b ∧ (b.refs ≠ 0 ∨ c.inHand = some b.id) := by
  rw [Composition.sweep_get, Option.filter_eq_some_iff]
  simp only [Bool.not_eq_true', Bool.and_eq_false_iff, decide_eq_false_iff_not, not_not]

/-- A change of the body of an id that keeps its id keeps the ids held. -/
theorem Composition.Holds.onBody {c : Composition} {k : AnnId} (h : c.Holds k) (id : AnnId) {f : Body → Body}
    (hf : ∀ b, (f b).id = b.id) : (c.onBody id f).Holds k := by
  obtain ⟨i, b, hb, hk⟩ := h
  refine ⟨i, _, Composition.onBody_get_eq_some.mpr ⟨b, hb, rfl⟩, ?_⟩
  split
  · rw [hf, hk]
  · exact hk

/-- What the counts read of the store. -/
theorem Composition.Counts.congr {ids : AnnId → Prop} {hand : Option AnnId} {refs : Multiset (AnnId × AnnClass)}
    {c d : Composition} (h : c.Counts ids hand refs) (hslots : d.slots = c.slots) (hevac : d.evacSlot = c.evacSlot)
    (hhand : d.inHand = c.inHand) : d.Counts ids hand refs := by
  have hholds : ∀ k, c.Holds k → d.Holds k := fun k ⟨i, b, hb, hk⟩ => ⟨i, b, by rw [hslots]; exact hb, hk⟩
  refine ⟨?_, ?_, ?_, fun t ht => ?_, hhand.trans h.inHand, fun id hid => hholds _ (h.handHeld id hid), ?_⟩
  · rw [hslots]
    exact h.distinct
  · rw [hslots]
    exact h.general
  · rw [hevac]
    exact h.evac
  · obtain ⟨hgeneral, hslot⟩ := h.serves t ht
    refine ⟨fun k => hholds _ (hgeneral k), ?_⟩
    rw [hevac]
    exact hslot
  · rw [hslots]
    exact h.within

section counts
variable {ids : AnnId → Prop} {hand : Option AnnId} {refs : Multiset (AnnId × AnnClass)} {t : AnnId × AnnClass}
  {c : Composition}

/-- The general body of an id, changed in its count alone as its references change (R69). -/
theorem Composition.Counts.onBody {more : Multiset (AnnId × AnnClass)} (h : c.Counts ids hand refs) {id : AnnId}
    {f : Nat → Nat} (hcount : ∀ k, refCount more k = if k = id then f (refCount refs k) else refCount refs k)
    (hevac : evacCount more = evacCount refs) (hserves : ∀ t ∈ more, c.Serves t) :
    (c.onBody id fun b => { b with refs := f b.refs }).Counts ids hand more := by
  have hkeep : ∀ (i : Fin 32) (b : Body),
      (c.onBody id fun b => { b with refs := f b.refs }).slots.get i = some b →
      ∃ a, c.slots.get i = some a ∧ b.id = a.id ∧ b.cls = a.cls ∧ b.refs = if a.id = id then f a.refs else a.refs := by
    intro i b hb
    obtain ⟨a, ha, rfl⟩ := Composition.onBody_get_eq_some.mp hb
    refine ⟨a, ha, ?_⟩
    split <;> exact ⟨rfl, rfl, rfl⟩
  have hholds : ∀ k, c.Holds k → (c.onBody id fun b => { b with refs := f b.refs }).Holds k :=
    fun k hk => hk.onBody id fun _ => rfl
  constructor
  · intro i j a b ha hb hab
    obtain ⟨a', ha', hida, _⟩ := hkeep i a ha
    obtain ⟨b', hb', hidb, _⟩ := hkeep j b hb
    exact h.distinct i j a' b' ha' hb' (by rw [← hida, ← hidb, hab])
  · intro i b hb
    obtain ⟨a, ha, hid, hcls, hrefs⟩ := hkeep i b hb
    obtain ⟨hne, hcnt⟩ := h.general i a ha
    refine ⟨by rw [hcls]; exact hne, ?_⟩
    rw [hrefs, hcnt, hcount, hid]
  · rw [Composition.onBody_evacSlot, hevac]
    exact h.evac
  · intro t ht
    obtain ⟨hgeneral, hslot⟩ := hserves t ht
    refine ⟨fun k => hholds _ (hgeneral k), ?_⟩
    rw [Composition.onBody_evacSlot]
    exact hslot
  · rw [Composition.onBody_inHand]
    exact h.inHand
  · exact fun k hk => hholds k (h.handHeld k hk)
  · intro i b hb
    obtain ⟨a, ha, hid, _⟩ := hkeep i b hb
    rw [hid]
    exact h.within i a ha

/-- A sweep frees no body that is referred to or in hand (R69). -/
theorem Composition.Counts.sweep (h : c.Counts ids hand refs) : c.sweep.Counts ids hand refs := by
  have hof : ∀ (i : Fin 32) (b : Body), c.sweep.slots.get i = some b → c.slots.get i = some b :=
    fun i b hb => (Composition.sweep_get_eq_some.mp hb).1
  refine ⟨fun i j a b ha hb => h.distinct i j a b (hof i a ha) (hof j b hb), fun i b hb => h.general i b (hof i b hb),
    ?_, fun t ht => ⟨fun hne => ?_, ?_⟩, ?_, fun id hid => ?_, fun i b hb => h.within i b (hof i b hb)⟩
  · rw [Composition.sweep_evacSlot]
    exact h.evac
  · obtain ⟨i, b, hb, hid⟩ := (h.serves t ht).1 hne
    have hpos := refCount_pos_of_mem ht hne
    refine ⟨i, b, Composition.sweep_get_eq_some.mpr ⟨hb, Or.inl ?_⟩, hid⟩
    rw [(h.general i b hb).2, hid]
    exact Nat.pos_iff_ne_zero.mp hpos
  · rw [Composition.sweep_evacSlot]
    exact (h.serves t ht).2
  · rw [Composition.sweep_inHand]
    exact h.inHand
  · obtain ⟨i, b, hb, hbid⟩ := h.handHeld id hid
    exact ⟨i, b, Composition.sweep_get_eq_some.mpr ⟨hb, Or.inr (by rw [h.inHand, hid, hbid])⟩, hbid⟩

/-- The evacuation slot, changed in its count alone as its references change (R69, R73). -/
theorem Composition.Counts.onEvacSlot {more : Multiset (AnnId × AnnClass)} (h : c.Counts ids hand refs) {f : Nat → Nat}
    (hcount : ∀ k, refCount more k = refCount refs k) (hevac : evacCount more = f (evacCount refs))
    (hserves : ∀ t ∈ more, c.Serves t) :
    Composition.Counts ids hand more
      { c with evacSlot := c.evacSlot.map fun b => { b with refs := f b.refs } } := by
  refine ⟨h.distinct, fun i b hb => ?_, fun b hb => ?_, fun t ht => ⟨(hserves t ht).1, fun k => ?_⟩, h.inHand,
    h.handHeld, h.within⟩
  · rw [hcount]
    exact h.general i b hb
  · obtain ⟨a, ha, rfl⟩ := Option.map_eq_some_iff.mp hb
    rw [hevac, ← h.evac a ha]
  · simpa using (hserves t ht).2 k

/-- An evacuation slot that no entry refers to may be emptied (R73). -/
theorem Composition.Counts.emptyEvac (h : c.Counts ids hand refs) {b : Body} (hb : c.evacSlot = some b)
    (h0 : b.refs = 0) : Composition.Counts ids hand refs { c with evacSlot := none } := by
  refine ⟨h.distinct, h.general, fun b hb => (nomatch hb), fun t ht => ⟨(h.serves t ht).1, fun k => ?_⟩, h.inHand,
    h.handHeld, h.within⟩
  have hpos := evacCount_pos_of_mem ht k
  rw [← h.evac b hb, h0] at hpos
  exact absurd hpos (Nat.lt_irrefl 0)

/-- An empty evacuation slot takes a body of count 0: no entry refers to it (R73). -/
theorem Composition.Counts.fillEvac (h : c.Counts ids hand refs) (hnone : c.evacSlot = none) {b : Body}
    (h0 : b.refs = 0) : Composition.Counts ids hand refs { c with evacSlot := some b } := by
  refine ⟨h.distinct, h.general, fun a ha => ?_, fun t ht => ⟨(h.serves t ht).1, fun _ => nofun⟩, h.inHand,
    h.handHeld, h.within⟩
  cases ha
  rw [h0]
  exact (Multiset.countP_eq_zero.mpr fun t ht k => (h.serves t ht).2 k hnone).symm

/-- A body of an id not held and of count 0, held in a free slot, is in hand (R66, R69). -/
theorem Composition.Counts.hold (h : c.Counts ids none refs) {i : Fin 32} (hfree : c.slots.get i = none) {b : Body}
    (hcls : b.cls ≠ .evac) (h0 : b.refs = 0) (hnew : ¬ c.Holds b.id) (hid : ids b.id) :
    (c.hold i b).Counts ids (some b.id) refs := by
  have hget : ∀ j, (c.hold i b).slots.get j = if j = i then some b else c.slots.get j :=
    fun j => upd_get c.slots i j fun _ => some b
  have hcases : ∀ (j : Fin 32) (a : Body), (c.hold i b).slots.get j = some a →
      j = i ∧ a = b ∨ j ≠ i ∧ c.slots.get j = some a := by
    intro j a ha
    rw [hget] at ha
    split at ha
    · next hj => exact Or.inl ⟨hj, (Option.some.inj ha).symm⟩
    · next hj => exact Or.inr ⟨hj, ha⟩
  have hother : ∀ (j : Fin 32) (a : Body), c.slots.get j = some a → a.id ≠ b.id :=
    fun j a ha hab => hnew ⟨j, a, ha, hab⟩
  have hkeep : ∀ k, c.Holds k → (c.hold i b).Holds k := by
    rintro k ⟨j, a, ha, hk⟩
    have hj : j ≠ i := fun hj => by rw [hj, hfree] at ha; cases ha
    exact ⟨j, a, by rw [hget, if_neg hj]; exact ha, hk⟩
  refine ⟨fun j k a d ha hd had => ?_, fun j a ha => ?_, ?_, fun t ht => ⟨fun k => hkeep _ ((h.serves t ht).1 k), ?_⟩,
    Composition.hold_inHand c i b, fun k hk => ?_, fun j a ha => ?_⟩
  · rcases hcases j a ha with ⟨hj, hab⟩ | ⟨_, ha⟩ <;> rcases hcases k d hd with ⟨hk, hdb⟩ | ⟨_, hd⟩
    · rw [hj, hk]
    · exact absurd (had.symm.trans (by rw [hab])) (hother k d hd)
    · exact absurd (had.trans (by rw [hdb])) (hother j a ha)
    · exact h.distinct j k a d ha hd had
  · rcases hcases j a ha with ⟨_, rfl⟩ | ⟨_, ha⟩
    · refine ⟨hcls, ?_⟩
      rw [h0]
      exact (Multiset.countP_eq_zero.mpr fun t ht ⟨hne, hid⟩ => hnew (hid ▸ (h.serves t ht).1 hne)).symm
    · exact h.general j a ha
  · rw [Composition.hold_evacSlot]
    exact h.evac
  · rw [Composition.hold_evacSlot]
    exact (h.serves t ht).2
  · cases hk
    exact ⟨i, b, by rw [hget, if_pos rfl], rfl⟩
  · rcases hcases j a ha with ⟨_, rfl⟩ | ⟨_, ha⟩
    · exact hid
    · exact h.within j a ha

/-- A held body is taken in hand (R72). -/
theorem Composition.Counts.takeInHand (h : c.Counts ids none refs) {id : AnnId} (hid : c.Holds id) :
    Composition.Counts ids (some id) refs { c with inHand := some id } :=
  ⟨h.distinct, h.general, h.evac, h.serves, rfl, fun k hk => by cases hk; exact hid, h.within⟩

/-- The operation that held a body in hand ends (R68, R72). -/
theorem Composition.Counts.release (h : c.Counts ids hand refs) : c.release.Counts ids none refs :=
  Composition.Counts.sweep
    (c := { c with inHand := none }) ⟨h.distinct, h.general, h.evac, h.serves, rfl, fun _ => nofun, h.within⟩

/-- The bound on the ids of the bodies may be given up. -/
theorem Composition.Counts.forget (h : c.Counts ids hand refs) : c.Counts (fun _ => True) hand refs :=
  ⟨h.distinct, h.general, h.evac, h.serves, h.inHand, h.handHeld, fun _ _ _ => trivial⟩

end counts

end Sys2Proof.Machine
end

section
/-! PROOFS. The references of the queues (R69), the counts of the body store against them, and the operations that change
neither: the channels, the starts, the surveys, the levels, and what is told, reported and counted. -/
namespace Sys2Proof.Machine

/-! ### The references of the queues -/

/-- The references of one queue. -/
def Play.tags (p : Play) (o : Out) : List (AnnId × AnnClass) := (p.zone o).queue.map Entry.tag

/-- The references of all queues. -/
def Play.refs (p : Play) : Multiset (AnnId × AnnClass) := ∑ o : Out, (p.tags o : Multiset (AnnId × AnnClass))

/-- The bodies count the references of the queues and those of the entries that stand in no queue while a command moves
them; the ids of each queue are distinct, and at most 16 originations are held (R69, R108). -/
structure Play.Counted (ids : AnnId → Prop) (hand : Option AnnId) (moving : Multiset (AnnId × AnnClass))
    (p : Play) : Prop where
  queues : ∀ o : Out, ((p.tags o).map Prod.fst).Nodup
  counts : p.cmu.Counts ids hand (p.refs + moving)
  table : p.net.pau.table.length ≤ 16

/-- Two states hold the same references: the same bodies and evacuation body, the same ids and classes queued, no more
originations, and the same zones FAULTED. -/
structure Play.SameRefs (p q : Play) : Prop where
  slots : q.cmu.slots = p.cmu.slots
  evacSlot : q.cmu.evacSlot = p.cmu.evacSlot
  inHand : q.cmu.inHand = p.cmu.inHand
  tags : ∀ o, q.tags o = p.tags o
  table : q.net.pau.table.length ≤ p.net.pau.table.length
  faulted : ∀ o, (q.zone o).faulted = (p.zone o).faulted

theorem Play.SameRefs.refl (p : Play) : p.SameRefs p := ⟨rfl, rfl, rfl, fun _ => rfl, le_rfl, fun _ => rfl⟩

theorem Play.SameRefs.trans {p q r : Play} (h : p.SameRefs q) (k : q.SameRefs r) : p.SameRefs r :=
  ⟨k.slots.trans h.slots, k.evacSlot.trans h.evacSlot, k.inHand.trans h.inHand, fun o => (k.tags o).trans (h.tags o),
    k.table.trans h.table, fun o => (k.faulted o).trans (h.faulted o)⟩

theorem Play.SameRefs.foldl {α : Type} {f : Play → α → Play} (h : ∀ (p : Play) a, p.SameRefs (f p a)) (l : List α)
    (p : Play) : p.SameRefs (l.foldl f p) := by
  induction l generalizing p with
  | nil => exact .refl p
  | cons a rest ih => exact (h p a).trans (ih _)

/-- The queues and the store are the same, and no origination is added. -/
theorem Play.SameRefs.of_eq {p q : Play} (hcmu : q.cmu = p.cmu) (hzone : ∀ o, q.zone o = p.zone o)
    (htable : q.net.pau.table.length ≤ p.net.pau.table.length) : p.SameRefs q :=
  ⟨by rw [hcmu], by rw [hcmu], by rw [hcmu], fun o => by rw [Play.tags, hzone]; rfl, htable, fun o => by rw [hzone]⟩

theorem Play.refs_eq_of_tags {p q : Play} (h : ∀ o, q.tags o = p.tags o) : q.refs = p.refs := by
  simp only [Play.refs, h]

section counted
variable {ids : AnnId → Prop} {hand : Option AnnId} {moving : Multiset (AnnId × AnnClass)} {p q : Play}

/-- What holds the same references counts them alike. -/
theorem Play.Counted.same (h : p.Counted ids hand moving) (k : p.SameRefs q) : q.Counted ids hand moving := by
  refine ⟨fun o => ?_, ?_, k.table.trans h.table⟩
  · rw [k.tags]
    exact h.queues o
  · rw [Play.refs_eq_of_tags k.tags]
    exact h.counts.congr k.slots k.evacSlot k.inHand

/-- What holds the same references counts them alike, whatever is FAULTED. -/
theorem Play.Counted.of_tags (h : p.Counted ids hand moving) (hcmu : q.cmu = p.cmu) (htags : ∀ o, q.tags o = p.tags o)
    (htable : q.net.pau.table.length ≤ p.net.pau.table.length) : q.Counted ids hand moving := by
  refine ⟨fun o => ?_, ?_, htable.trans h.table⟩
  · rw [htags]
    exact h.queues o
  · rw [Play.refs_eq_of_tags htags, hcmu]
    exact h.counts

/-- The references of one queue are among those of all. -/
theorem Play.mem_refs {t : AnnId × AnnClass} {o : Out} (h : t ∈ p.tags o) : t ∈ p.refs :=
  Multiset.mem_sum.mpr ⟨o, Finset.mem_univ o, h⟩

theorem Play.mem_refs_iff {t : AnnId × AnnClass} : t ∈ p.refs ↔ ∃ o, t ∈ p.tags o := by
  simp [Play.refs, Multiset.mem_sum]

end counted

/-- The references after a zone was changed: those of its queue before give way to those of its queue after. -/
theorem Play.refs_onZone (p : Play) (o : Out) (f : Zone → Zone) :
    (p.onZone o f).refs + (p.tags o : Multiset (AnnId × AnnClass)) =
      p.refs + ((f (p.zone o)).queue.map Entry.tag : Multiset (AnnId × AnnClass)) := by
  have hself : (p.onZone o f).tags o = (f (p.zone o)).queue.map Entry.tag := by
    rw [Play.tags, Play.onZone_zone_self]
  have hothers : ∑ k ∈ Finset.univ.erase o, ((p.onZone o f).tags k : Multiset (AnnId × AnnClass)) =
      ∑ k ∈ Finset.univ.erase o, (p.tags k : Multiset (AnnId × AnnClass)) :=
    Finset.sum_congr rfl fun k hk => by
      rw [Play.tags, Play.onZone_zone_of_ne _ _ _ _ (Finset.ne_of_mem_erase hk)]
      rfl
  unfold Play.refs
  rw [← Finset.add_sum_erase _ _ (Finset.mem_univ o), ← Finset.add_sum_erase _ _ (Finset.mem_univ o), hself, hothers]
  abel

/-- An entry count is a count of references. -/
theorem Play.entryCount_eq_countP (p : Play) (test : AnnId × AnnClass → Prop) [DecidablePred test] :
    p.entryCount (fun en => decide (test en.tag)) = p.refs.countP test := by
  unfold Play.entryCount Play.refs allOuts
  rw [← Multiset.coe_countPAddMonoidHom, map_sum, ← Fin.sum_univ_def]
  refine Finset.sum_congr rfl fun o _ => ?_
  rw [Multiset.coe_countPAddMonoidHom, Multiset.coe_countP, Play.tags, List.countP_map, ← List.countP_eq_length_filter]
  rfl

/-! ### Between commands -/

/-- The clauses of `State.RefsCounted` about the loader: no image names a trigger of class EVAC (R187). -/
def Loader.NoEvac (c : Loader) : Prop :=
  (∀ i : Image, c.image = some i → i.NoEvacTrigger) ∧
    ∀ (i : Image) (n : Nat), c.config = some (.accepted i n) → i.NoEvacTrigger

/-- Between commands nothing is moving and no body is in hand (R69). -/
abbrev Play.Settled (p : Play) : Prop := p.Counted (fun _ => True) none 0

theorem State.refsCounted_iff (s : State) : s.RefsCounted ↔ s.play.Settled ∧ s.cfl.NoEvac := by
  have hgeneral : ∀ id, (s.play.entryCount fun en => en.cls ≠ .evac && en.id = id) = refCount (s.play.refs + 0) id := by
    intro id
    rw [add_zero, refCount, ← Play.entryCount_eq_countP]
    refine congrArg _ (funext fun en => ?_)
    rw [Bool.eq_iff_iff, decide_eq_true_iff]
    simp [Entry.tag]
  have hevac : (s.play.entryCount fun en => en.cls = .evac) = evacCount (s.play.refs + 0) := by
    rw [add_zero, evacCount, ← Play.entryCount_eq_countP]
    rfl
  have hids : ∀ o, (s.play.tags o).map Prod.fst = (s.play.zone o).queue.map (·.id) := fun o => by
    rw [Play.tags, List.map_map]
    rfl
  constructor
  · intro h
    refine ⟨⟨fun o => by rw [hids]; exact h.queues o, ⟨h.slots, fun i b hb => ?_, fun b hb => ?_, fun t ht => ?_, h.hand,
      fun _ => nofun, fun _ _ _ => trivial⟩, h.table⟩, h.inForce, h.loaded⟩
    · obtain ⟨hcls, hrefs⟩ := h.general i b hb
      exact ⟨hcls, hrefs.trans (hgeneral b.id)⟩
    · exact (h.evac b hb).trans hevac
    · rw [add_zero, Play.mem_refs_iff] at ht
      obtain ⟨o, ht⟩ := ht
      obtain ⟨en, hen, rfl⟩ := List.mem_map.mp ht
      exact ⟨h.bodies o en hen, fun hcls hnone => h.noEvac hnone o en hen hcls⟩
  · rintro ⟨⟨hqueues, hcounts, htable⟩, hforce, hloaded⟩
    have hserves : ∀ o, ∀ en ∈ (s.play.zone o).queue, s.play.cmu.Serves en.tag := fun o en hen =>
      hcounts.serves _ (by rw [add_zero]; exact Play.mem_refs (List.mem_map_of_mem hen))
    exact ⟨fun o => by rw [← hids]; exact hqueues o, hcounts.distinct,
      fun i b hb => ⟨(hcounts.general i b hb).1, (hcounts.general i b hb).2.trans (hgeneral b.id).symm⟩,
      fun o en hen => (hserves o en hen).1, fun b hb => (hcounts.evac b hb).trans hevac.symm,
      fun hnone o en hen hcls => (hserves o en hen).2 hcls hnone, hcounts.inHand, htable, hforce, hloaded⟩

end Sys2Proof.Machine
end

section
/-! PROOFS. The operations that change no reference: what is sent, reported and told, the channels and the starts, the
levels and the surveys. -/
namespace Sys2Proof.Machine

/-! ### The origination table (R108 to R114) -/

theorem Peers.revise_length (p : Peers) (id : AnnId) (f : Origination → Origination) :
    (p.revise id f).table.length ≤ p.table.length := by
  unfold Peers.revise
  exact (List.length_filter_le _ _).trans (List.length_map _).le

theorem Peers.giveUp_length (p : Peers) (id : AnnId) (sel : Outcome → Bool) :
    (p.giveUp id sel).table.length ≤ p.table.length := by
  unfold Peers.giveUp
  split
  · exact le_rfl
  · exact p.revise_length id _

/-- Telling the sender of a dropped frame adds no origination. -/
theorem Net.frameDropped_length (n : Net) (f : TxFrame) : (n.frameDropped f).pau.table.length ≤ n.pau.table.length := by
  unfold Net.frameDropped
  split
  · exact Peers.giveUp_length _ _ _
  · exact le_rfl

/-- Queuing a frame adds no origination. -/
theorem Net.enqueue_length (e : Env) (f : TxFrame) (n : Net) :
    (Net.enqueue e f n).pau.table.length ≤ n.pau.table.length := by
  rcases Net.enqueue_cases e f n with ⟨_, h⟩ | ⟨_, _, h⟩ | ⟨_, _, g, _, h⟩ <;> rw [h]
  exact Net.frameDropped_length _ g

/-- A fault report adds no origination. -/
theorem Net.report_length (e : Env) (k : FaultKind) (source : Nat) (n : Net) :
    (Net.report e k source n).pau.table.length ≤ n.pau.table.length := by
  rcases Net.report_cases e k source n with ⟨_, _, _, _, _, _, h⟩ | ⟨_, _, _, _, _, hidle, hrunning⟩ | ⟨_, _, h⟩
  · rw [h]
  · cases hr : e.running with
    | true =>
      rw [hrunning hr]
      exact Net.enqueue_length e _ _
    | false => rw [hidle hr]
  · rw [h]

theorem Net.sendReport_length (e : Env) (items : List ReportedOutcome) (n : Net) :
    (n.sendReport e items).pau.table.length ≤ n.pau.table.length := by
  unfold Net.sendReport
  split
  · exact le_rfl
  · exact Net.enqueue_length e _ _

/-- What each element of a list keeps low, the list does. -/
theorem foldl_le {α β : Type} {f : β → α → β} {measure : β → Nat} (h : ∀ b a, measure (f b a) ≤ measure b) (l : List α)
    (b : β) : measure (l.foldl f b) ≤ measure b := by
  induction l generalizing b with
  | nil => exact le_rfl
  | cons a rest ih => exact (ih (f b a)).trans (h b a)

theorem Net.reportAll_length (e : Env) (l : List ReportedOutcome) (n : Net) :
    (n.reportAll e l).pau.table.length ≤ n.pau.table.length :=
  foldl_le (measure := fun n : Net => n.pau.table.length) (fun n g => n.sendReport_length e g) _ n

theorem Net.flush_length (e : Env) (n : Net) : (n.flush e).pau.table.length ≤ n.pau.table.length :=
  Net.reportAll_length e _ _

theorem Net.flushHeld_length (e : Env) (n : Net) : (n.flushHeld e).pau.table.length ≤ n.pau.table.length :=
  Net.reportAll_length e _ _

theorem Net.withdrawAll_length (e : Env) (sel : Origination → Bool) (n : Net) :
    (n.withdrawAll e sel).pau.table.length ≤ n.pau.table.length := by
  refine foldl_le (measure := fun n : Net => n.pau.table.length) (fun n o => ?_) _ n
  unfold Net.withdrawEntry
  split
  · exact le_rfl
  · extract_lets m
    have hm : m.pau.table.length ≤ n.pau.table.length := n.pau.revise_length o.id _
    exact (foldl_le (measure := fun n : Net => n.pau.table.length)
      (fun n a => (Net.enqueue_length e _ (n.onPau _)).trans le_rfl) _ m).trans hm

/-- A request hands over at most one origination, and none where 16 are held (R110). -/
theorem Net.originate_length (e : Env) (version : Nat) (r : SendRequest) {n : Net} (h : n.pau.table.length ≤ 16) :
    (n.originate e version r).pau.table.length ≤ 16 := by
  unfold Net.originate
  extract_lets zones pending finals m
  have hm : m.pau.table.length ≤ 16 := h
  split
  · exact hm
  · split
    · exact (Net.report_length e _ _ _).trans hm
    · next hlt =>
      refine (Net.enqueue_length e _ _).trans ?_
      rw [Net.onPau_pau, List.length_append]
      exact Nat.lt_of_not_le hlt

/-! ### Blocks that hold no reference -/

/-- What leaves the store, the queues and the originations leaves the references. -/
theorem Play.SameRefs.of_blocks {p q : Play} (hcmu : q.cmu = p.cmu) (hzones : q.zpc.zones = p.zpc.zones)
    (hnet : q.net = p.net) : p.SameRefs q :=
  .of_eq hcmu (fun o => by rw [Play.zone, hzones]; rfl) (by rw [hnet])

theorem Play.SameRefs.onNet {f : Net → Net} (h : ∀ n : Net, (f n).pau.table.length ≤ n.pau.table.length) (p : Play) :
    p.SameRefs (p.onNet f) := .of_eq rfl (fun _ => rfl) (h p.net)

/-- A change of entries that keeps the ids and classes of those it changes keeps the references. -/
theorem Play.SameRefs.onEntries_of_mem (p : Play) (o : Out) (test : Entry → Bool) {f : Entry → Entry}
    (hf : ∀ x ∈ (p.zone o).queue, test x = true → (f x).tag = x.tag) :
    p.SameRefs (p.onZone o fun z => z.onEntries test f) := by
  refine ⟨rfl, rfl, rfl, fun k => ?_, le_rfl, fun k => ?_⟩
  · rw [Play.tags, Play.onZone_zone]
    split
    · next hk =>
      subst hk
      rw [Play.tags, Zone.onEntries, List.map_map]
      refine List.map_congr_left fun x hx => ?_
      rw [Function.comp_apply]
      split
      · next ht => exact hf x hx ht
      · rfl
    · rfl
  · rw [Play.onZone_zone]
    split <;> rfl

theorem Play.SameRefs.onEntries (p : Play) (o : Out) (test : Entry → Bool) {f : Entry → Entry}
    (hf : ∀ x, (f x).tag = x.tag) : p.SameRefs (p.onZone o fun z => z.onEntries test f) :=
  .onEntries_of_mem p o test fun x _ _ => hf x

/-- A change of a zone that keeps its queue and whether it is FAULTED changes no reference. -/
theorem Play.SameRefs.onZone (p : Play) (o : Out) {f : Zone → Zone} (hqueue : ∀ z, (f z).queue = z.queue)
    (hfaulted : ∀ z, (f z).faulted = z.faulted) : p.SameRefs (p.onZone o f) := by
  refine ⟨rfl, rfl, rfl, fun k => ?_, le_rfl, fun k => ?_⟩
  · rw [Play.tags, Play.onZone_zone]
    split
    · rw [hqueue]
      rfl
    · rfl
  · rw [Play.onZone_zone]
    split
    · exact hfaulted _
    · rfl

theorem Play.SameRefs.onEntry (p : Play) (o : Out) (id : AnnId) {f : Entry → Entry} (hf : ∀ x, (f x).tag = x.tag) :
    p.SameRefs (p.onEntry o id f) := .onEntries p o _ hf

@[simp] theorem Entry.addCause_tag (en : Entry) (f : StopCause → StopCause) : (en.addCause f).tag = en.tag := by
  simp [Entry.tag]

theorem Play.SameRefs.of_level {o : Out} {p q : Play} (h : p.OnlyLevel o q) : p.SameRefs q := by
  rw [h.1]
  exact .of_blocks rfl rfl rfl

theorem Play.SameRefs.onLevel (p : Play) (o : Out) (f : Level → Level) : p.SameRefs (p.onLevel o f) :=
  .of_blocks rfl rfl rfl

theorem Play.SameRefs.onSurvey (p : Play) (o : Out) (f : Survey → Survey) : p.SameRefs (p.onSurvey o f) :=
  .of_blocks rfl rfl rfl

theorem Play.SameRefs.onSurveyCounts (p : Play) (f : SurveyCounts → SurveyCounts) : p.SameRefs (p.onSurveyCounts f) :=
  .of_blocks rfl rfl rfl

theorem Play.SameRefs.onLsu (p : Play) (f : Supervision → Supervision) : p.SameRefs (p.onLsu f) := .of_blocks rfl rfl rfl

theorem Play.SameRefs.onLine (p : Play) (o : Out) (f : Line → Line) : p.SameRefs (p.onLine o f) := .of_blocks rfl rfl rfl

theorem Play.SameRefs.onEvl (p : Play) (f : Evac → Evac) : p.SameRefs (p.onEvl f) := .of_blocks rfl rfl rfl

theorem Play.SameRefs.onCfu (p : Play) (f : Clips → Clips) : p.SameRefs (p.onCfu f) := .of_blocks rfl rfl rfl

theorem Play.SameRefs.onChan (p : Play) (c : Chan) (f : Channel → Channel) : p.SameRefs (p.onChan c f) :=
  .of_blocks rfl rfl rfl

theorem Play.SameRefs.takeBoundary (e : Env) (p : Play) : p.SameRefs (p.takeBoundary e) := .of_blocks rfl rfl rfl

theorem Play.SameRefs.onCmuCounts (p : Play) (f : CmuCounts → CmuCounts) : p.SameRefs (p.onCmuCounts f) :=
  ⟨rfl, rfl, rfl, fun _ => rfl, le_rfl, fun _ => rfl⟩

/-! ### What is told, reported and counted (R94, R104, R117, R194) -/

theorem Play.SameRefs.fault (e : Env) (k : FaultKind) (source : Nat) (p : Play) : p.SameRefs (p.fault e k source) :=
  .onNet (Net.report_length e k source) p

theorem Play.SameRefs.tell (id : AnnId) (cls : AnnClass) (zone : Nat) (o : Outcome) (p : Play) :
    p.SameRefs (p.onNet (Net.tell id cls zone o)) :=
  .onNet (f := Net.tell id cls zone o) (fun _ => le_rfl) p

theorem Play.SameRefs.tellEntry (en : Entry) (o : Outcome) (p : Play) : p.SameRefs (p.tellEntry en o) := by
  rcases Play.tellEntry_cases en o p with ⟨_, h⟩ | ⟨_, h⟩ <;> rw [h]
  · exact .refl p
  · exact .tell _ _ _ _ p

theorem Play.SameRefs.noteDrop (en : Entry) (r : DropReason) (p : Play) : p.SameRefs (p.noteDrop en r) := by
  have hcount : p.SameRefs (Play.countDrop r p) := .of_blocks rfl rfl rfl
  unfold Play.noteDrop
  dsimp only
  split
  · exact hcount
  · exact hcount.trans (.tellEntry _ _ _)

theorem Play.SameRefs.noteDone (en : Entry) (p : Play) : p.SameRefs (p.noteDone en) := by
  have hcount : ∀ c, p.SameRefs { p with zpc := { p.zpc with counts := c } } := fun _ => .of_blocks rfl rfl rfl
  exact (hcount _).trans (.tellEntry en .done _)

theorem Play.SameRefs.onPauCounts (f : PauCounts → PauCounts) (p : Play) : p.SameRefs (p.onPauCounts f) :=
  .onNet (f := fun n => n.onPau fun q => { q with counts := f q.counts }) (fun _ => le_rfl) p

/-- The end of a command changes no reference (R117, R172). -/
theorem Play.SameRefs.finish (e : Env) (p : Play) : p.SameRefs (p.finish e) := by
  have hgate : ∀ q : Play, q.SameRefs q.gateCheck := fun q => by
    rw [q.gateCheck_frame.1]
    exact .of_blocks rfl rfl rfl
  have hheld : p.SameRefs (if p.boundaryDue e then p else p.onNet (Net.flushHeld e)) := by
    split
    · exact .refl p
    · exact .onNet (Net.flushHeld_length e) p
  exact (hheld.trans (.onNet (Net.flush_length e) _)).trans (hgate _)

/-- The end of a command of a block boundary changes no reference (R117, R172). -/
theorem Play.SameRefs.finishBoundary (e : Env) (p : Play) : p.SameRefs (p.finishBoundary e) := by
  have hgate : ∀ q : Play, q.SameRefs q.gateCheck := fun q => by
    rw [q.gateCheck_frame.1]
    exact .of_blocks rfl rfl rfl
  have hheld : ∀ q : Play, q.SameRefs (if q.boundaryDue e then q else q.onNet (Net.flushHeld e)) := fun q => by
    split
    · exact .refl q
    · exact .onNet (Net.flushHeld_length e) q
  have hgathered : p.SameRefs (p.onNet fun n => n.onPau fun q => { q with held := q.held ++ q.outbox, outbox := [] }) :=
    .onNet (f := fun n => n.onPau fun q => { q with held := q.held ++ q.outbox, outbox := [] }) (fun _ => le_rfl) p
  exact (hgathered.trans (hheld _)).trans (hgate _)

/-! ### Channels and starts (R82, R83, R129 to R137) -/

/-- What restates the entries and changes no block beside the channels changes no reference. -/
theorem Play.SameRefs.of_restates {p q : Play} (h : p.SameBesideChannels q) (k : p.Restates q) : p.SameRefs q := by
  obtain ⟨hnet, hcmu, _, _, _, _, _, hzones⟩ := h
  refine ⟨by rw [hcmu], by rw [hcmu], by rw [hcmu], fun o => ?_, by rw [hnet], fun o => (hzones o).2.1⟩
  have htag : List.Forall₂ (fun x y : Entry => x.tag = y.tag) (p.zone o).queue (q.zone o).queue :=
    (k o).imp fun x y ⟨st, hy, _⟩ => by rw [hy]; rfl
  exact (List.forall₂_eq_eq_eq ▸ List.forall₂_map_left_iff.mpr (List.forall₂_map_right_iff.mpr htag)).symm

theorem Play.SameRefs.pump (ch : Chan) (p : Play) : p.SameRefs (p.pump ch) :=
  .of_restates (p.pump_sameBeside ch) (.of_zpc (p.pump_zpc ch))

theorem Play.SameRefs.grantPort (p : Play) : p.SameRefs p.grantPort := by
  unfold Play.grantPort
  split
  · exact .refl p
  · split
    · exact .of_blocks rfl rfl rfl
    · exact .refl p

theorem Play.SameRefs.requestChan (o : Out) (cls : AnnClass) (s : Served) (p : Play) :
    p.SameRefs (p.requestChan o cls s) :=
  .of_restates (p.requestChan_sameBeside o cls s) (p.requestChan_restates o cls s)

theorem Play.SameRefs.leaveChan (o : Out) (ch : Chan) (p : Play) : p.SameRefs (p.leaveChan o ch) := by
  unfold Play.leaveChan
  dsimp only
  have hdrop := Play.SameRefs.onChan p ch fun c => { c with members := dropOut c.members o }
  split
  · exact hdrop.trans ((Play.SameRefs.onChan _ _ _).trans
      (.of_restates (Play.allocate_sameBeside _ _ _) (Play.allocate_restates _ _ _)))
  · exact hdrop

theorem Play.SameRefs.withdrawRequest (o : Out) (s : Served) (p : Play) : p.SameRefs (p.withdrawRequest o s) :=
  .of_restates (p.withdrawRequest_sameBeside o s) (p.withdrawRequest_restates o s)

theorem Play.SameRefs.startHead (e : Env) (o : Out) (p : Play) : p.SameRefs (p.startHead e o) :=
  .of_restates (p.startHead_sameBeside e o) (p.startHead_restates e o)

theorem Play.SameRefs.askChannel (e : Env) (o : Out) (en : Entry) (p : Play) : p.SameRefs (p.askChannel e o en) := by
  unfold Play.askChannel
  split
  · exact .requestChan _ _ _ p
  · exact .refl p

theorem Play.SameRefs.unstart (o : Out) (p : Play) : p.SameRefs (p.unstart o) := by
  unfold Play.unstart
  split
  · exact .refl p
  · exact (Play.SameRefs.onEntry p o _ (f := fun x => { x with state := .queued }) fun _ => rfl).trans
      (.withdrawRequest _ _ _)

theorem Play.SameRefs.carryAll (c : Channel) (b : Block) (p : Play) : p.SameRefs (p.carryAll c b) :=
  .foldl (fun p o => .of_level (p.carry_only o b)) _ p

theorem Play.SameRefs.underrunFaults (e : Env) (c : Channel) (p : Play) : p.SameRefs (p.underrunFaults e c) :=
  .foldl (fun p _ => .fault e _ _ p) _ p

theorem Play.SameRefs.syncStart (e : Env) (id : AnnId) (p : Play) : p.SameRefs (p.syncStart e id) := by
  refine .foldl (fun p o => ?_) _ p
  split
  · exact .askChannel e o _ p
  · exact .refl p

theorem Play.SameRefs.ite {p q r : Play} {c : Prop} [Decidable c] (h : p.SameRefs q) (k : p.SameRefs r) :
    p.SameRefs (if c then q else r) := by
  split
  · exact h
  · exact k

/-! ### Surveys (R163 to R168) -/

theorem Play.SameRefs.releaseZone (e : Env) (o : Out) (p : Play) : p.SameRefs (p.releaseZone e o) := by
  unfold Play.releaseZone
  extract_lets q r
  have hq : p.SameRefs q := .onSurvey p o _
  have hr : q.SameRefs r := .onZone q o (fun _ => rfl) fun _ => rfl
  exact ((hq.trans hr).trans (.onLevel r o _)).trans (.startHead e o _)

theorem Play.SameRefs.leaveProbe (o : Out) (p : Play) : p.SameRefs (p.leaveProbe o) := by
  unfold Play.leaveProbe
  dsimp only
  split
  · exact (Play.SameRefs.onLevel p o _).trans (.leaveChan o _ _)
  · exact .onLevel p o _

theorem Play.SameRefs.abortSurvey (e : Env) (o : Out) (reason : AbortReason) (p : Play) :
    p.SameRefs (p.abortSurvey e o reason) := by
  unfold Play.abortSurvey
  extract_lets v
  split
  · exact .refl p
  · split
    · exact .ite (.releaseZone e o p) (.ite (.refl p) (.onSurvey p o _))
    · extract_lets record q r
      have hq : p.SameRefs q := (Play.SameRefs.onSurvey p o _).trans (.onSurveyCounts _ _)
      have hr : p.SameRefs r := hq.trans (.ite (.withdrawRequest _ _ _) (.refl _))
      exact .ite (hr.trans (.onSurvey _ _ _)) (hr.trans (.releaseZone _ _ _))

theorem Play.SameRefs.beginSurvey (e : Env) (o : Out) (starter : SurveyStarter) (p : Play) :
    p.SameRefs (p.beginSurvey e o starter) := by
  unfold Play.beginSurvey
  extract_lets work q
  have hq : p.SameRefs q := .onSurvey p o _
  exact (hq.trans (.onZone q o (f := fun z => { z with survey := true }) (fun _ => rfl) fun _ => rfl)).trans
    (.onSurveyCounts _ _)

theorem Play.SameRefs.enterProbe (e : Env) (o : Out) (i : ProbeIndex) (p : Play) : p.SameRefs (p.enterProbe e o i) :=
  ((Play.SameRefs.onSurvey p o _).trans (.onSurvey _ _ _)).trans (.requestChan _ _ _ _)

theorem Play.SameRefs.completeSurvey (e : Env) (o : Out) (p : Play) : p.SameRefs (p.completeSurvey e o) := by
  unfold Play.completeSurvey
  extract_lets v
  split
  · exact .refl p
  · refine Play.SameRefs.trans ?_ (.releaseZone e o _)
    split
    · exact (Play.SameRefs.onSurvey p o _).trans (.onSurveyCounts _ _)
    · exact (Play.SameRefs.onSurvey p o _).trans (.onSurveyCounts _ _)

theorem Play.SameRefs.seekCandidate (e : Env) (o : Out) (p : Play) : p.SameRefs (p.seekCandidate e o) := by
  unfold Play.seekCandidate
  extract_lets v
  split
  · exact .refl p
  · split
    · exact (Play.SameRefs.onSurvey p o _).trans (.enterProbe e o _ _)
    · exact .completeSurvey e o p

theorem Play.SameRefs.scoreProbe (e : Env) (o : Out) (lt : Nat) (p : Play) : p.SameRefs (p.scoreProbe e o lt) := by
  unfold Play.scoreProbe
  extract_lets v
  split
  · exact .refl p
  · extract_lets nb lp score better misses q
    have hq : p.SameRefs q := .onSurvey p o _
    exact .ite (hq.trans (.completeSurvey e o _)) (hq.trans (.seekCandidate e o _))

theorem Play.SameRefs.surveyWindow (e : Env) (o : Out) (level : Nat) (p : Play) :
    p.SameRefs (p.surveyWindow e o level) := by
  unfold Play.surveyWindow
  extract_lets v
  split
  · exact .refl p
  · split
    · exact .refl p
    · extract_lets levels
      exact .ite (.ite (.onSurvey p o _) ((Play.SameRefs.onSurvey p o _).trans (.enterProbe e o _ _))) (.refl p)
    · exact .ite (.onSurvey p o _) (.refl p)
    · split
      · exact .refl p
      · exact .ite (.onSurvey p o _) (.ite (.scoreProbe e o _ p) (.refl p))

theorem Play.SameRefs.endProbe (e : Env) (o : Out) (p : Play) : p.SameRefs (p.endProbe e o) := by
  unfold Play.endProbe
  extract_lets v q
  have hq : p.SameRefs q := .leaveProbe o p
  split
  · exact .ite (hq.trans (.releaseZone e o q)) ((hq.trans (.onSurvey _ _ _)).trans (.onSurvey _ _ _))
  · exact hq

theorem Play.SameRefs.cutProbe (e : Env) (o : Out) (p : Play) : p.SameRefs (p.cutProbe e o) :=
  .ite ((Play.SameRefs.leaveProbe o p).trans (.releaseZone e o _)) (.leaveProbe o p)

theorem Play.SameRefs.attemptAuto (e : Env) (o : Out) (p : Play) : p.SameRefs (p.attemptAuto e o) :=
  .ite (.beginSurvey e o _ p) (.onSurvey p o _)

theorem Play.SameRefs.refuseAuto (p : Play) (o : Out) : p.SameRefs (p.refuseAuto o) :=
  .ite ((Play.SameRefs.onSurvey p o _).trans (.onSurveyCounts _ _)) (.refl p)

theorem Play.SameRefs.retryAuto (e : Env) (o : Out) (p : Play) : p.SameRefs (p.retryAuto e o) :=
  .ite (.attemptAuto e o p) (.refuseAuto p o)

theorem Play.SameRefs.surveySecond (e : Env) (p : Play) : p.SameRefs (p.surveySecond e) := by
  unfold Play.surveySecond
  extract_lets minute due q
  have hq : p.SameRefs q := .foldl (fun r o => .ite (.attemptAuto e o r) (.refl r)) _ p
  exact hq.trans (.of_blocks rfl rfl rfl)

theorem Play.SameRefs.windowEnd (e : Env) (sums : Vector Nat 8) (p : Play) : p.SameRefs (p.windowEnd e sums) := by
  have hstart : p.SameRefs { p.takeBoundary e with lvc := { (p.takeBoundary e).lvc with windowAt := e.elapsed } } :=
    .of_blocks rfl rfl rfl
  exact hstart.trans (.foldl (fun q o => (Play.SameRefs.onLevel q o _).trans (.surveyWindow e o _ _)) _ _)

/-! ### Reads and block advances (R127, R131 to R138) -/

theorem Play.SameRefs.readDone (ch : Chan) (p : Play) : p.SameRefs (p.readDone ch) := .of_blocks rfl rfl rfl

theorem Play.SameRefs.blockRead (e : Env) (result : Option (List Int)) (p : Play) :
    p.SameRefs (p.blockRead e result) := by
  unfold Play.blockRead
  split
  · exact .refl p
  · next ch r _ =>
    extract_lets q u b
    have hq : p.SameRefs q := (Play.SameRefs.readDone ch p).trans (.ite (.refl _) (.onCfu _ _))
    have hu : p.SameRefs u := hq.trans (.ite (.refl _) (.underrunFaults e _ _))
    exact .ite (hq.trans (.pump ch q)) ((hu.trans (.onChan _ _ _)).trans (.pump ch _))

theorem Play.SameRefs.directoryRead (e : Env) (result : Option DirEntry) (p : Play) :
    p.SameRefs (p.directoryRead e result) := by
  unfold Play.directoryRead
  split
  · exact .refl p
  · next ch r _ =>
    extract_lets q found phrase u
    have hq : p.SameRefs q := .readDone ch p
    have hu : p.SameRefs u := hq.trans (.ite ((Play.SameRefs.fault e _ _ q).trans (.onCfu _ _)) (.refl q))
    exact .ite (hq.trans (.pump ch q)) ((hu.trans (.onChan _ _ _)).trans (.pump ch _))

theorem Play.SameRefs.blockAdvance (e : Env) (ch : Chan) (p : Play) : p.SameRefs (p.blockAdvance e ch) := by
  unfold Play.blockAdvance
  extract_lets c q cut
  have hq : p.SameRefs q := .takeBoundary e p
  refine .ite (.refl p) (hq.trans ?_)
  split
  · exact .cutProbe e _ q
  · have hsilent : q.SameRefs (if c.silent then q else q.underrunFaults e c) := .ite (.refl q) (.underrunFaults e c q)
    exact ((hsilent.trans (.onCfu _ _)).trans (.onChan _ _ _)).trans (.carryAll c _ _)
  · exact (((Play.SameRefs.onChan q ch _).trans (.onChan _ _ _)).trans (.carryAll c _ _)).trans (.pump ch _)

theorem Play.SameRefs.memberStart (e : Env) (c : Channel) (p : Play) (o : Out) : p.SameRefs (p.memberStart e c o) := by
  unfold Play.memberStart
  split
  · exact .refl p
  · next en _ =>
    extract_lets q
    have hq : p.SameRefs q := .onEntry p o _ fun _ => rfl
    exact .ite ((hq.trans (.tellEntry en _ q)).trans (.of_level (Play.gainAtStart_only e o _ _ _))) (.refl p)

theorem Play.SameRefs.channelStart (e : Env) (ch : Chan) (p : Play) : p.SameRefs (p.channelStart e ch) := by
  unfold Play.channelStart
  extract_lets q c u v half
  have hq : p.SameRefs q := .takeBoundary e p
  have hu : q.SameRefs u := by
    unfold u
    split
    · unfold Play.startProbe
      extract_lets survey
      split
      · exact .refl q
      · exact (Play.SameRefs.onSurvey q _ _).trans (.of_level (Play.gainAtProbe_only e _ _ _))
    · exact .foldl (Play.SameRefs.memberStart e c) _ q
  have hv : q.SameRefs v := hu.trans (.onChan u ch _)
  exact .ite (.refl p) (hq.trans (((hv.trans (.onChan _ _ _)).trans (.carryAll _ _ _)).trans (.pump ch _)))

end Sys2Proof.Machine
end

section
/-! PROOFS. The operations that change references: an entry refers to its body, leaves its queue, enters one, is offered,
moved, and settled at its stop point (R69, R77 to R80, R86 to R89, R94, R98 to R100). -/
namespace Sys2Proof.Machine

/-! ### Queues beside the one that changes -/

/-- The queues of the other outputs hold the same references, and the same zones are FAULTED. -/
structure Play.Beside (o : Out) (p q : Play) : Prop where
  tags : ∀ k, k ≠ o → q.tags k = p.tags k
  faulted : ∀ k, (q.zone k).faulted = (p.zone k).faulted

theorem Play.Beside.refl (o : Out) (p : Play) : p.Beside o p := ⟨fun _ _ => rfl, fun _ => rfl⟩

theorem Play.Beside.trans {o : Out} {p q r : Play} (h : p.Beside o q) (k : q.Beside o r) : p.Beside o r :=
  ⟨fun x hx => (k.tags x hx).trans (h.tags x hx), fun x => (k.faulted x).trans (h.faulted x)⟩

theorem Play.SameRefs.beside {p q : Play} (h : p.SameRefs q) (o : Out) : p.Beside o q := ⟨fun k _ => h.tags k, h.faulted⟩

theorem Play.Beside.of_zpc {p q : Play} (h : q.zpc = p.zpc) (o : Out) : p.Beside o q := by
  have hzone : ∀ k, q.zone k = p.zone k := fun k => by rw [Play.zone, h]; rfl
  exact ⟨fun k _ => by rw [Play.tags, hzone]; rfl, fun k => by rw [hzone]⟩

theorem Play.onZone_tags_of_ne (p : Play) {o k : Out} (h : k ≠ o) (f : Zone → Zone) : (p.onZone o f).tags k = p.tags k := by
  rw [Play.tags, Play.onZone_zone_of_ne _ _ _ _ h]
  rfl

theorem Play.Beside.onZone (p : Play) (o : Out) {f : Zone → Zone} (hf : ∀ z, (f z).faulted = z.faulted) :
    p.Beside o (p.onZone o f) := by
  refine ⟨fun k hk => p.onZone_tags_of_ne hk f, fun k => ?_⟩
  rw [Play.onZone_zone]
  split
  · exact hf _
  · rfl

theorem Play.tags_eq_of_zpc {p q : Play} (h : q.zpc = p.zpc) (o : Out) : q.tags o = p.tags o := by
  simp only [Play.tags, Play.zone, h]

/-! ### Counts (R69) -/

theorem Play.addRef_zpc (en : Entry) (p : Play) : (p.addRef en).zpc = p.zpc := by
  unfold Play.addRef
  split <;> rfl

theorem Play.addRef_net (en : Entry) (p : Play) : (p.addRef en).net = p.net := by
  unfold Play.addRef
  split <;> rfl

theorem Play.addRef_evacSlot_ne_none {en : Entry} {p : Play} (h : p.cmu.evacSlot ≠ none) :
    (p.addRef en).cmu.evacSlot ≠ none := by
  unfold Play.addRef
  split
  · simpa using h
  · rw [Composition.onBody_evacSlot]
    exact h

/-- The evacuation slot stands where a general body's count is lowered. -/
theorem Play.releaseRef_evacSlot {en : Entry} (h : en.cls ≠ .evac) (p : Play) :
    (p.releaseRef en).cmu.evacSlot = p.cmu.evacSlot := by
  unfold Play.releaseRef
  rw [if_neg h, Composition.sweep_evacSlot, Composition.onBody_evacSlot]

section counted
variable {ids : AnnId → Prop} {hand : Option AnnId} {moving : Multiset (AnnId × AnnClass)} {p : Play} {o : Out}
  {en : Entry}

/-- What leaves the queues and the originations counts as its store does. -/
theorem Play.Counted.of_cmu {ids' : AnnId → Prop} {hand' : Option AnnId} {more : Multiset (AnnId × AnnClass)}
    {q : Play} (h : p.Counted ids hand moving) (hzpc : q.zpc = p.zpc) (hnet : q.net = p.net)
    (hcmu : q.cmu.Counts ids' hand' (p.refs + more)) : q.Counted ids' hand' more := by
  have htags : ∀ o, q.tags o = p.tags o := Play.tags_eq_of_zpc hzpc
  refine ⟨fun o => ?_, ?_, ?_⟩
  · rw [htags]
    exact h.queues o
  · rw [Play.refs_eq_of_tags htags]
    exact hcmu
  · rw [hnet]
    exact h.table

/-- A new reference to a held body is counted (R69). -/
theorem Play.Counted.addRef (h : p.Counted ids hand moving) (hserves : p.cmu.Serves en.tag) :
    (p.addRef en).Counted ids hand (en.tag ::ₘ moving) := by
  refine h.of_cmu (p.addRef_zpc en) (p.addRef_net en) ?_
  have hall : ∀ t ∈ en.tag ::ₘ (p.refs + moving), p.cmu.Serves t :=
    Multiset.forall_mem_cons.mpr ⟨hserves, h.counts.serves⟩
  rw [Multiset.add_cons]
  unfold Play.addRef
  split
  · next hcls =>
    exact h.counts.onEvacSlot (f := (· + 1)) (refCount_cons_evac hcls _) (evacCount_cons_evac hcls _) hall
  · next hcls =>
    refine h.counts.onBody (f := (· + 1)) (fun k => ?_) (evacCount_cons_general hcls _) hall
    rw [refCount_cons_general hcls]
    by_cases hk : k = en.id
    · simp [hk, Entry.tag]
    · simp [hk, Entry.tag, Ne.symm hk]

/-- An evacuation slot that no entry refers to is emptied (R73). -/
theorem Play.Counted.sweepEvac (h : p.Counted ids hand moving) : p.sweepEvac.Counted ids hand moving := by
  unfold Play.sweepEvac
  split
  · next b hb =>
    split
    · next h0 => exact h.of_cmu rfl rfl (h.counts.emptyEvac hb h0)
    · exact h
  · exact h

/-- A reference given up is counted down, and its body freed at count 0 (R69). -/
theorem Play.Counted.releaseRef (h : p.Counted ids hand (en.tag ::ₘ moving)) :
    (p.releaseRef en).Counted ids hand moving := by
  have hcounts := h.counts
  rw [Multiset.add_cons] at hcounts
  have hall : ∀ t ∈ p.refs + moving, p.cmu.Serves t := fun t ht => hcounts.serves t (Multiset.mem_cons_of_mem ht)
  unfold Play.releaseRef
  split
  · next hcls =>
    refine Play.Counted.sweepEvac (h.of_cmu rfl rfl ?_)
    exact hcounts.onEvacSlot (f := (· - 1)) (fun k => (refCount_cons_evac hcls _ k).symm)
      (by rw [evacCount_cons_evac (t := en.tag) hcls]; rfl) hall
  · next hcls =>
    refine h.of_cmu rfl rfl (Composition.Counts.sweep ?_)
    refine hcounts.onBody (f := (· - 1)) (fun k => ?_) (evacCount_cons_general hcls _).symm hall
    rw [refCount_cons_general (t := en.tag) hcls]
    by_cases hk : k = en.id
    · simp [hk, Entry.tag]
    · simp [hk, Entry.tag, Ne.symm hk]

/-! ### Leaving a queue (R77, R94) -/

/-- In a list without repeated ids, what a filter by id takes out is the one element of that id. -/
theorem coe_eq_cons_filter_of_nodup {l : List (AnnId × AnnClass)} (hl : (l.map Prod.fst).Nodup)
    {t : AnnId × AnnClass} (ht : t ∈ l) :
    (l : Multiset (AnnId × AnnClass)) = t ::ₘ ((l.filter fun x => x.1 ≠ t.1) : Multiset (AnnId × AnnClass)) := by
  induction l with
  | nil => cases ht
  | cons x rest ih =>
    rw [List.map_cons, List.nodup_cons] at hl
    obtain ⟨hx, hrest⟩ := hl
    rcases List.mem_cons.mp ht with rfl | ht
    · have hall : rest.filter (fun x => decide (x.1 ≠ t.1)) = rest :=
        List.filter_eq_self.mpr fun y hy => decide_eq_true fun hyt => hx (List.mem_map.mpr ⟨y, hy, hyt⟩)
      rw [List.filter_cons_of_neg (by simp), hall]
      rfl
    · have hne : x.1 ≠ t.1 := fun hxt => hx (List.mem_map.mpr ⟨t, ht, hxt.symm⟩)
      rw [List.filter_cons_of_pos (by simpa using hne), ← Multiset.cons_coe, ih hrest ht, Multiset.cons_swap,
        Multiset.cons_coe]

/-- The references of a queue that an id has left. -/
theorem map_tag_filter_id (l : List Entry) (id : AnnId) :
    (l.filter fun x => x.id ≠ id).map Entry.tag = (l.map Entry.tag).filter fun t => t.1 ≠ id := by
  rw [List.filter_map]
  rfl

/-- An entry taken from its queue is moving (R69, R77). -/
theorem Play.Counted.unqueue (h : p.Counted ids hand moving) (hmem : en.tag ∈ p.tags o) :
    (p.onZone o fun z => { z with queue := z.queue.filter fun x => x.id ≠ en.id }).Counted ids hand
      (en.tag ::ₘ moving) := by
  have hfiltered : ((p.onZone o fun z => { z with queue := z.queue.filter fun x => x.id ≠ en.id }).tags o) =
      (p.tags o).filter fun t => t.1 ≠ en.id := by
    rw [Play.tags, Play.onZone_zone_self]
    exact map_tag_filter_id _ _
  refine ⟨fun k => ?_, ?_, h.table⟩
  · by_cases hk : k = o
    · subst hk
      rw [hfiltered]
      exact (h.queues k).sublist (List.filter_sublist.map _)
    · rw [p.onZone_tags_of_ne hk]
      exact h.queues k
  · have hrefs := p.refs_onZone o fun z => { z with queue := z.queue.filter fun x => x.id ≠ en.id }
    rw [map_tag_filter_id, coe_eq_cons_filter_of_nodup (h.queues o) hmem, Multiset.add_cons, ← Multiset.cons_add] at hrefs
    rw [Multiset.add_cons, ← Multiset.cons_add, add_right_cancel hrefs]
    exact h.counts

/-- An entry taken out of its queue is counted no more (R69, R77). -/
theorem Play.Counted.takeOut (h : p.Counted ids hand moving) (hmem : en.tag ∈ p.tags o) :
    (p.takeOut o en).Counted ids hand moving := (h.unqueue hmem).releaseRef

theorem Play.takeOut_tags_self (p : Play) (o : Out) (en : Entry) :
    (p.takeOut o en).tags o = (p.tags o).filter fun t => t.1 ≠ en.id := by
  rw [Play.tags, Play.takeOut_zone, if_pos rfl]
  exact map_tag_filter_id _ _

theorem Play.takeOut_beside_queue (p : Play) (o : Out) (en : Entry) : p.Beside o (p.takeOut o en) := by
  refine ⟨fun k hk => ?_, fun k => ?_⟩
  · rw [Play.tags, Play.takeOut_zone, if_neg hk]
    rfl
  · rw [Play.takeOut_zone]
    split <;> rfl

/-- A note of a leaving changes no reference. -/
def KeepsRefs (note : Play → Play) : Prop := ∀ p : Play, p.SameRefs (note p)

/-- A waiting entry leaves its queue (R94). -/
theorem Play.Counted.leaveWaiting {note : Play → Play} (hnote : KeepsRefs note) (e : Env)
    (h : p.Counted ids hand moving) (hmem : en.tag ∈ p.tags o) :
    (p.leaveWaiting e o en note).Counted ids hand moving := by
  have hasked := Play.SameRefs.withdrawRequest o (.body en.id) p
  have hleft := ((h.same hasked).takeOut (by rw [hasked.tags]; exact hmem)).same (hnote _)
  unfold Play.leaveWaiting
  dsimp only
  split
  · exact hleft.same (.startHead e o _)
  · exact hleft

/-- A leaving takes its id from its queue alone. -/
theorem Play.leaveWaiting_tags_self {note : Play → Play} (hnote : KeepsRefs note) (e : Env) (p : Play) (o : Out)
    (en : Entry) : (p.leaveWaiting e o en note).tags o = (p.tags o).filter fun t => t.1 ≠ en.id := by
  have hasked := Play.SameRefs.withdrawRequest o (.body en.id) p
  have hleft : (note ((p.withdrawRequest o (.body en.id)).takeOut o en)).tags o =
      (p.tags o).filter fun t => t.1 ≠ en.id := by
    rw [(hnote _).tags, Play.takeOut_tags_self, hasked.tags]
  unfold Play.leaveWaiting
  dsimp only
  split
  · rw [(Play.SameRefs.startHead e o _).tags, hleft]
  · exact hleft

theorem Play.leaveWaiting_beside {note : Play → Play} (hnote : KeepsRefs note) (e : Env) (p : Play) (o : Out)
    (en : Entry) : p.Beside o (p.leaveWaiting e o en note) := by
  have hleft := (((Play.SameRefs.withdrawRequest o (.body en.id) p).beside o).trans
    (Play.takeOut_beside_queue _ o en)).trans ((hnote _).beside o)
  unfold Play.leaveWaiting
  dsimp only
  split
  · exact hleft.trans ((Play.SameRefs.startHead e o _).beside o)
  · exact hleft

/-- The evacuation slot stands where an entry of a general body leaves. -/
theorem Play.leaveWaiting_evacSlot {note : Play → Play} (hnote : KeepsRefs note) (e : Env) (p : Play) (o : Out)
    (hen : en.cls ≠ .evac) : (p.leaveWaiting e o en note).cmu.evacSlot = p.cmu.evacSlot := by
  have hleft : (note ((p.withdrawRequest o (.body en.id)).takeOut o en)).cmu.evacSlot = p.cmu.evacSlot := by
    rw [(hnote _).evacSlot, Play.takeOut, Play.releaseRef_evacSlot hen, Play.onZone_cmu,
      (Play.SameRefs.withdrawRequest o _ p).evacSlot]
  unfold Play.leaveWaiting
  dsimp only
  split
  · rw [(Play.SameRefs.startHead e o _).evacSlot, hleft]
  · exact hleft

theorem KeepsRefs.noteDrop (en : Entry) (r : DropReason) : KeepsRefs fun p => p.noteDrop en r :=
  fun p => .noteDrop en r p

theorem KeepsRefs.noteDone (en : Entry) : KeepsRefs fun p => p.noteDone en := fun p => .noteDone en p

/-- A waiting entry is dropped (R94). -/
theorem Play.Counted.dropWaiting (e : Env) (r : DropReason) (h : p.Counted ids hand moving)
    (hmem : en.tag ∈ p.tags o) : (p.dropWaiting e o r en).Counted ids hand moving :=
  h.leaveWaiting (.noteDrop en r) e hmem

/-- Entries of one queue, without repeated ids, leave one after the other (R94). -/
theorem Play.Counted.leaveAll (e : Env) {note : Entry → Play → Play} (hnote : ∀ en, KeepsRefs (note en))
    {l : List Entry} (hl : (l.map (·.id)).Nodup) (h : p.Counted ids hand moving) (hmem : ∀ en ∈ l, en.tag ∈ p.tags o) :
    (l.foldl (fun p en => p.leaveWaiting e o en (note en)) p).Counted ids hand moving := by
  induction l generalizing p with
  | nil => exact h
  | cons en rest ih =>
    rw [List.map_cons, List.nodup_cons] at hl
    obtain ⟨hen, hrest⟩ := hl
    refine ih hrest (h.leaveWaiting (hnote en) e (hmem en List.mem_cons_self)) fun x hx => ?_
    rw [Play.leaveWaiting_tags_self (hnote en), List.mem_filter]
    refine ⟨hmem x (List.mem_cons_of_mem _ hx), decide_eq_true fun hid => hen ?_⟩
    exact List.mem_map.mpr ⟨x, hx, hid⟩

/-- The waiting entries of a zone have distinct ids where its queue has. -/
theorem Zone.waiting_ids_nodup {z : Zone} (h : (z.queue.map (·.id)).Nodup) (sel : Entry → Bool) :
    ((z.waiting sel).map (·.id)).Nodup := by
  have hpart : ∀ test, ((z.queue.filter test).map (·.id)).Nodup := fun _ => h.sublist (List.filter_sublist.map _)
  unfold Zone.waiting
  rw [List.map_append]
  refine List.nodup_append'.mpr ⟨hpart _, hpart _, fun id hq hs => ?_⟩
  obtain ⟨x, hx, rfl⟩ := List.mem_map.mp hq
  obtain ⟨y, hy, hxy⟩ := List.mem_map.mp hs
  simp only [List.mem_filter, Bool.and_eq_true, decide_eq_true_eq] at hx hy
  obtain ⟨hxmem, _, hqueued⟩ := hx
  obtain ⟨hymem, _, hstarting⟩ := hy
  rw [List.inj_on_of_nodup_map h hymem hxmem hxy, hqueued] at hstarting
  cases hstarting

theorem Play.Counted.ids_nodup (h : p.Counted ids hand moving) (o : Out) : ((p.zone o).queue.map (·.id)).Nodup := by
  have := h.queues o
  rwa [Play.tags, List.map_map] at this

theorem Play.tag_mem {p : Play} {o : Out} {en : Entry} (h : en ∈ (p.zone o).queue) : en.tag ∈ p.tags o :=
  List.mem_map_of_mem h

theorem Zone.mem_queue_of_waiting {z : Zone} {sel : Entry → Bool} {en : Entry} (h : en ∈ z.waiting sel) :
    en ∈ z.queue := (Zone.mem_waiting.mp h).1

/-- The waiting entries selected in a zone leave it (R93, R94, R175). -/
theorem Play.Counted.leaveWaitingAll (e : Env) {note : Entry → Play → Play} (hnote : ∀ en, KeepsRefs (note en))
    (h : p.Counted ids hand moving) (o : Out) (sel : Entry → Bool) :
    (((p.zone o).waiting sel).foldl (fun p en => p.leaveWaiting e o en (note en)) p).Counted ids hand moving :=
  h.leaveAll e hnote (Zone.waiting_ids_nodup (h.ids_nodup o) sel) fun _ hen => Play.tag_mem (Zone.mem_queue_of_waiting hen)

/-- The waiting entries selected in a zone are dropped (R94). -/
theorem Play.Counted.dropAll (e : Env) (r : DropReason) (h : p.Counted ids hand moving) (o : Out)
    (sel : Entry → Bool) : (((p.zone o).waiting sel).foldl (Play.dropWaiting e o r) p).Counted ids hand moving :=
  h.leaveWaitingAll e (fun en => .noteDrop en r) o sel

/-! ### Entering a queue (R78, R79) -/

theorem insertEntry_perm (q : List Entry) (en : Entry) : (insertEntry q en).Perm (en :: q) := by
  induction q with
  | nil => exact .refl _
  | cons x rest ih =>
    unfold insertEntry
    split
    · exact .refl _
    · exact (ih.cons x).trans (.swap en x rest)

/-- An entry put in a queue, and the survey and the entries of the zone told of it. -/
theorem Play.enterZone_sameRefs (e : Env) (o : Out) (en : Entry) (p : Play) :
    Play.SameRefs (p.onZone o fun z => { z with
      queue := insertEntry z.queue { en with order := z.nextOrder, state := .queued, seg := 0, pass := 0 }
      nextOrder := z.nextOrder + 1 }) (p.enterZone e o en) := by
  have harrived : ∀ q : Play, q.SameRefs (q.headArrived e o en) := fun q => by
    unfold Play.headArrived
    split
    · exact .refl q
    · refine .ite ?_ (.refl q)
      have hpreempt : ∀ x : Entry, (x.preemptBy en.cls).tag = x.tag := fun x => by
        unfold Entry.preemptBy
        split
        · split <;> rfl
        · rfl
      have hunstarted : q.SameRefs (if ((q.zone o).queue.any fun x => x.state = .starting && moreUrgent en.cls x.cls) = true
          then q.unstart o else q) := .ite (.unstart o q) (.refl q)
      exact (hunstarted.trans (.onEntries _ o _ hpreempt)).trans (.startHead e o _)
  unfold Play.enterZone
  extract_lets q r
  have hr : q.SameRefs r := .ite (.abortSurvey e o _ q) (.refl q)
  exact hr.trans (harrived r)

theorem Play.enterZone_beside (e : Env) (o : Out) (en : Entry) (p : Play) : p.Beside o (p.enterZone e o en) := by
  refine Play.Beside.trans ?_ ((p.enterZone_sameRefs e o en).beside o)
  exact .onZone p o fun _ => rfl

/-- A moving entry enters a queue that does not hold its id (R69, R79). -/
theorem Play.Counted.enterZone (e : Env) (h : p.Counted ids hand (en.tag ::ₘ moving))
    (hnew : ∀ t ∈ p.tags o, t.1 ≠ en.id) : (p.enterZone e o en).Counted ids hand moving := by
  refine Play.Counted.same ?_ (p.enterZone_sameRefs e o en)
  have hperm : (((p.zone o).queue |> fun q => insertEntry q
      { en with order := (p.zone o).nextOrder, state := .queued, seg := 0, pass := 0 }).map Entry.tag).Perm
      (en.tag :: p.tags o) := (insertEntry_perm _ _).map _
  refine ⟨fun k => ?_, ?_, h.table⟩
  · by_cases hk : k = o
    · subst hk
      rw [Play.tags, Play.onZone_zone_self]
      refine (hperm.map Prod.fst).nodup_iff.mpr (List.nodup_cons.mpr ⟨fun hmem => ?_, h.queues k⟩)
      obtain ⟨t, ht, hid⟩ := List.mem_map.mp hmem
      exact hnew t ht hid
    · rw [p.onZone_tags_of_ne hk]
      exact h.queues k
  · have hrefs := p.refs_onZone o fun z => { z with
      queue := insertEntry z.queue { en with order := z.nextOrder, state := .queued, seg := 0, pass := 0 }
      nextOrder := z.nextOrder + 1 }
    rw [Multiset.coe_eq_coe.mpr hperm, ← Multiset.cons_coe, Multiset.add_cons, ← Multiset.cons_add] at hrefs
    have hcounts := h.counts
    rw [Multiset.add_cons, ← Multiset.cons_add, ← add_right_cancel hrefs] at hcounts
    exact hcounts

/-! ### Offers and moves (R79, R80, R98 to R100) -/

/-- What is less urgent than another class is not EVAC (R1). -/
theorem ne_evac_of_moreUrgent {a b : AnnClass} (h : moreUrgent a b = true) : b ≠ .evac := by
  rintro rfl
  cases a <;> cases h

theorem Zone.leastQueued_mem {z : Zone} {x : Entry} (h : z.leastQueued = some x) : x ∈ z.queue :=
  (List.mem_filter.mp (List.mem_of_getLast? h)).1

/-- An offer settled by tests 4 to 6 of R79: refused, or welcomed and put in the queue, which does not hold its id, in
the place of a less urgent entry where that is full. -/
theorem Play.Counted.settleOffer (e : Env) {welcome : Play → Play} {refuse : DropReason → Play → Play}
    {offered : Multiset (AnnId × AnnClass)} (h : p.Counted ids hand offered) (hnew : ∀ t ∈ p.tags o, t.1 ≠ en.id)
    (hrefuse : ∀ r, (refuse r p).Counted ids hand moving)
    (hwelcome : ∀ q : Play, q.Counted ids hand offered → q.cmu.evacSlot = p.cmu.evacSlot →
      (welcome q).Counted ids hand (en.tag ::ₘ moving) ∧ (welcome q).tags o = q.tags o) :
    (p.settleOffer e o en welcome refuse).Counted ids hand moving := by
  rcases Play.settleOffer_cases e o en welcome refuse p with
    ⟨r, _, heq⟩ | ⟨_, _, heq⟩ | ⟨x, _, _, hx, hurgent, heq⟩ <;> rw [heq]
  · exact hrefuse r
  · obtain ⟨hcounted, htags⟩ := hwelcome p h rfl
    exact hcounted.enterZone e (by rw [htags]; exact hnew)
  · have hdropped := h.dropWaiting e .displaced (Play.tag_mem (Zone.leastQueued_mem hx))
    obtain ⟨hcounted, htags⟩ := hwelcome _ hdropped
      (Play.leaveWaiting_evacSlot (.noteDrop x _) e p o (ne_evac_of_moreUrgent hurgent))
    refine hcounted.enterZone e fun t ht => ?_
    rw [htags, Play.dropWaiting, Play.leaveWaiting_tags_self (.noteDrop x _)] at ht
    exact hnew t (List.mem_of_mem_filter ht)

/-- What settling an offer changes lies in the queue of its output. -/
theorem Play.settleOffer_beside (e : Env) {welcome : Play → Play} {refuse : DropReason → Play → Play}
    (hwelcome : ∀ q : Play, q.Beside o (welcome q)) (hrefuse : ∀ r, p.Beside o (refuse r p)) :
    p.Beside o (p.settleOffer e o en welcome refuse) := by
  rcases Play.settleOffer_cases e o en welcome refuse p with
    ⟨r, _, heq⟩ | ⟨_, _, heq⟩ | ⟨x, _, _, hx, hurgent, heq⟩ <;> rw [heq]
  · exact hrefuse r
  · exact (hwelcome p).trans (Play.enterZone_beside e o en _)
  · exact ((Play.leaveWaiting_beside (.noteDrop x _) e p o x).trans (hwelcome _)).trans (Play.enterZone_beside e o en _)

/-- The evacuation slot stays held where an offer is settled. -/
theorem Play.settleOffer_evacSlot (e : Env) {welcome : Play → Play} {refuse : DropReason → Play → Play}
    (h : p.cmu.evacSlot ≠ none) (hwelcome : ∀ q : Play, q.cmu.evacSlot ≠ none → (welcome q).cmu.evacSlot ≠ none)
    (hrefuse : ∀ r, (refuse r p).cmu.evacSlot ≠ none) :
    (p.settleOffer e o en welcome refuse).cmu.evacSlot ≠ none := by
  have henter : ∀ q : Play, (q.enterZone e o en).cmu.evacSlot = q.cmu.evacSlot :=
    fun q => (q.enterZone_sameRefs e o en).evacSlot
  rcases Play.settleOffer_cases e o en welcome refuse p with
    ⟨r, _, heq⟩ | ⟨_, _, heq⟩ | ⟨x, _, _, hx, hurgent, heq⟩ <;> rw [heq]
  · exact hrefuse r
  · rw [henter]
    exact hwelcome p h
  · rw [henter]
    refine hwelcome _ ?_
    rw [Play.dropWaiting, Play.leaveWaiting_evacSlot (.noteDrop x _) e p o (ne_evac_of_moreUrgent hurgent)]
    exact h

theorem Play.tags_ne_of_queue {id : AnnId} (h : ∀ x ∈ (p.zone o).queue, x.id ≠ id) : ∀ t ∈ p.tags o, t.1 ≠ id := by
  intro t ht
  obtain ⟨x, hx, rfl⟩ := List.mem_map.mp ht
  exact h x hx

/-- The body of an offer is held: in hand for a general body, in the evacuation slot for an EVAC entry. -/
structure Play.Offered (hand : Option AnnId) (en : Entry) (p : Play) : Prop where
  general : en.cls ≠ .evac → hand = some en.id
  evac : en.cls = .evac → p.cmu.evacSlot ≠ none

theorem Play.Offered.serves (k : p.Offered hand en) {q : Play} (h : q.Counted ids hand moving)
    (hslot : q.cmu.evacSlot = p.cmu.evacSlot) : q.cmu.Serves en.tag :=
  ⟨fun hcls => h.counts.handHeld _ (k.general hcls), fun hcls => by rw [hslot]; exact k.evac hcls⟩

/-- A taken offer is a new reference, and its outcome is told (R79, R100). -/
theorem Play.Counted.settleOffered (e : Env) (told : Entry → Outcome) (refuse : DropReason → Play → Play)
    (hrefuse : ∀ r, KeepsRefs (refuse r)) {there : Entry} (hthere : there.tag = en.tag) (h : p.Counted ids hand moving)
    (k : p.Offered hand en) (hnew : ∀ x ∈ (p.zone o).queue, x.id ≠ en.id) :
    (p.settleOffer e o there (fun p => (p.addRef there).tellEntry en (told en)) refuse).Counted ids hand moving := by
  have hid : there.id = en.id := congrArg Prod.fst hthere
  refine h.settleOffer e (Play.tags_ne_of_queue (by rw [hid]; exact hnew)) (fun r => h.same (hrefuse r p))
    fun q hq hslot => ⟨?_, ?_⟩
  · exact (hq.addRef (by rw [hthere]; exact k.serves hq hslot)).same (.tellEntry en _ _)
  · rw [(Play.SameRefs.tellEntry en _ _).tags, Play.tags_eq_of_zpc (Play.addRef_zpc there q)]

/-- An offer counts what it takes (R79, R100, R105). -/
theorem Play.Counted.offer (e : Env) (o : Out) (h : p.Counted ids hand moving) (k : p.Offered hand en) :
    (p.offer e o en).Counted ids hand moving := by
  have hdrop : ∀ r, (p.noteDrop en r).Counted ids hand moving := fun r => h.same (.noteDrop en r p)
  have hnew : ¬ ((p.zone o).queue.any fun x => decide (x.id = en.id)) = true → (p.settleNew e o en).Counted ids hand moving := by
    intro hany
    refine h.settleOffered e (fun _ => .queued) _ (fun r => .noteDrop en r) rfl k fun x hx hid => hany ?_
    exact List.any_eq_true.mpr ⟨x, hx, decide_eq_true hid⟩
  have hredirect : (p.redirect e o en).Counted ids hand moving := by
    unfold Play.redirect
    dsimp only
    split
    · next f z hf =>
      obtain ⟨_, _, hfree⟩ := Play.fallback_some hf
      exact h.settleOffered e (fun _ => .redirected z) _ (fun _ => .noteDrop en _) rfl k hfree
    · exact hdrop _
  unfold Play.offer
  dsimp only
  split
  · split
    · exact hdrop _
    · split
      · exact h
      · next hany =>
        split
        · exact hdrop _
        · exact hnew hany
  · split
    · exact h
    · next hany =>
      split
      · exact hredirect
      · exact hnew hany

/-- The evacuation slot stays held where an entry is offered. -/
theorem Play.offer_evacSlot (e : Env) (o : Out) (en : Entry) (h : p.cmu.evacSlot ≠ none) :
    (p.offer e o en).cmu.evacSlot ≠ none := by
  have hdrop : ∀ r, (p.noteDrop en r).cmu.evacSlot ≠ none := fun r => by
    rw [(Play.SameRefs.noteDrop en r p).evacSlot]
    exact h
  have hwelcome : ∀ (there : Entry) (out : Outcome) (q : Play), q.cmu.evacSlot ≠ none →
      ((q.addRef there).tellEntry en out).cmu.evacSlot ≠ none := fun there out q hq => by
    rw [Play.tellEntry_cmu]
    exact Play.addRef_evacSlot_ne_none hq
  have hnew : (p.settleNew e o en).cmu.evacSlot ≠ none := Play.settleOffer_evacSlot e h (hwelcome en _) hdrop
  have hredirect : (p.redirect e o en).cmu.evacSlot ≠ none := by
    unfold Play.redirect
    dsimp only
    split
    · exact Play.settleOffer_evacSlot e h (hwelcome _ _) fun _ => hdrop _
    · exact hdrop _
  unfold Play.offer
  dsimp only
  split
  · split
    · exact hdrop _
    · split
      · exact h
      · split
        · exact hdrop _
        · exact hnew
  · split
    · exact h
    · split
      · exact hredirect
      · exact hnew

/-- A moving entry enters the queue of the fallback or is counted no more (R98, R99). -/
theorem Play.Counted.moveAway (e : Env) (o : Out) (h : p.Counted ids hand (en.tag ::ₘ moving)) :
    (p.moveAway e o en).Counted ids hand moving := by
  have hdrop : ∀ (there : Entry) (r : DropReason) (q : Play), there.tag = en.tag →
      q.Counted ids hand (en.tag ::ₘ moving) → ((q.releaseRef there).noteDrop there r).Counted ids hand moving :=
    fun there r q hthere hq => by
      rw [← hthere] at hq
      exact hq.releaseRef.same (.noteDrop there r _)
  unfold Play.moveAway
  dsimp only
  split
  · exact hdrop en _ p rfl h
  · split
    · next f z hf =>
      obtain ⟨_, _, hfree⟩ := Play.fallback_some hf
      have htold := h.same (.tellEntry en (.redirected z) p)
      refine htold.settleOffer e ?_ (fun r => hdrop _ r _ rfl htold) fun q hq _ => ⟨hq, rfl⟩
      rw [(Play.SameRefs.tellEntry en _ p).tags]
      exact Play.tags_ne_of_queue hfree
    · exact hdrop en _ p rfl h

end counted

/-- A move from a FAULTED zone leaves the queue of that zone: the fallback is another (R97, R98). -/
theorem Play.moveAway_tags {p : Play} {o : Out} (e : Env) (en : Entry) (h : (p.zone o).faulted = true) :
    (p.moveAway e o en).tags o = p.tags o ∧ ((p.moveAway e o en).zone o).faulted = true := by
  have hrelease : ∀ (there : Entry) (r : DropReason) (q : Play) (k : Out),
      q.Beside k ((q.releaseRef there).noteDrop there r) := fun there r q k => by
    obtain ⟨_, hzpc, _⟩ := Play.releaseRef_frame there q
    exact (Play.Beside.of_zpc hzpc k).trans ((Play.SameRefs.noteDrop there r _).beside k)
  have hdrop : ∀ r, ((p.releaseRef en).noteDrop en r).tags o = p.tags o ∧
      (((p.releaseRef en).noteDrop en r).zone o).faulted = true := fun r => by
    obtain ⟨_, hzpc, _⟩ := Play.releaseRef_frame en p
    refine ⟨?_, by rw [(hrelease en r p o).faulted]; exact h⟩
    rw [(Play.SameRefs.noteDrop en r _).tags, Play.tags_eq_of_zpc hzpc]
  unfold Play.moveAway
  dsimp only
  split
  · exact hdrop _
  · split
    · next f z hf =>
      obtain ⟨_, hnot, _⟩ := Play.fallback_some hf
      have hne : o ≠ f := fun hof => by rw [hof, hnot] at h; cases h
      have hbeside : p.Beside f _ := ((Play.SameRefs.tellEntry en (.redirected z) p).beside f).trans
        (Play.settleOffer_beside e (o := f) (en := { en with reported := z }) (welcome := id)
          (refuse := fun r q => (q.releaseRef { en with reported := z }).noteDrop { en with reported := z } r)
          (fun q => .refl f q) fun r => hrelease _ r _ f)
      exact ⟨hbeside.tags o hne, by rw [hbeside.faulted]; exact h⟩
    · exact hdrop _

end Sys2Proof.Machine
end

section
/-! PROOFS. What the operations of the zones keep of the counts: offers of the evacuation body, stop points and pass ends,
removals, faulted zones, entry to RUNNING and the soft restart (R85 to R101, R103, R105, R171 to R175). -/
namespace Sys2Proof.Machine

section counted
variable {ids : AnnId → Prop} {hand : Option AnnId} {moving : Multiset (AnnId × AnnClass)} {p : Play} {o : Out}
  {en : Entry}

/-- What each act of a list keeps counted, the list does. -/
theorem Play.Counted.foldl {α : Type} {f : Play → α → Play}
    (hf : ∀ (q : Play) (a : α), q.Counted ids hand moving → (f q a).Counted ids hand moving) (l : List α)
    (h : p.Counted ids hand moving) : (l.foldl f p).Counted ids hand moving :=
  List.foldlRecOn l f h fun q hq a _ => hf q a hq

theorem Play.Counted.ite {q : Play} {c : Prop} [Decidable c] (h : p.Counted ids hand moving)
    (k : q.Counted ids hand moving) : (if c then p else q).Counted ids hand moving := by
  split
  · exact h
  · exact k

/-- A change of a zone that keeps its queue keeps the counts. -/
theorem Play.Counted.onZone (h : p.Counted ids hand moving) (o : Out) {f : Zone → Zone}
    (hf : ∀ z, (f z).queue = z.queue) : (p.onZone o f).Counted ids hand moving := by
  refine h.of_tags rfl (fun k => ?_) le_rfl
  rw [Play.tags, Play.onZone_zone]
  split
  · rw [hf]
    rfl
  · rfl

/-! ### The evacuation body (R73, R171, R174, R175) -/

/-- The evacuation slot, filled where it was empty, is held and counts the EVAC entries (R73). -/
theorem Play.Counted.fillEvac (e : Env) (h : p.Counted ids hand moving) :
    (p.fillEvac e).Counted ids hand moving ∧ (p.fillEvac e).cmu.evacSlot ≠ none := by
  unfold Play.fillEvac
  split
  · next b hb => exact ⟨h, by rw [hb]; nofun⟩
  · next hnone => exact ⟨h.of_cmu rfl rfl (h.counts.fillEvac hnone rfl), nofun⟩

/-- The EVAC entry offered to the outputs of a list, with the evacuation slot held. -/
theorem Play.Counted.offerEvacAll (e : Env) (l : List Out) (h : p.Counted ids hand moving)
    (hslot : p.cmu.evacSlot ≠ none) : (l.foldl (Play.offerEvac e) p).Counted ids hand moving := by
  refine (List.foldlRecOn (motive := fun q : Play => q.Counted ids hand moving ∧ q.cmu.evacSlot ≠ none) l
    (Play.offerEvac e) ⟨h, hslot⟩ fun q ⟨hq, hqslot⟩ o _ => ?_).1
  unfold Play.offerEvac
  split
  · exact ⟨hq.offer e o ⟨fun hcls => absurd rfl hcls, fun _ => hqslot⟩, Play.offer_evacSlot e o _ hqslot⟩
  · exact ⟨hq, hqslot⟩

theorem Play.Counted.reoffer (e : Env) (o : Out) (h : p.Counted ids hand moving) :
    (p.reoffer e o).Counted ids hand moving := by
  obtain ⟨hfilled, hslot⟩ := h.fillEvac e
  exact hfilled.offerEvacAll e [o] hslot

theorem Play.Counted.offerGated (e : Env) (l : List Out) (h : p.Counted ids hand moving)
    (hslot : p.cmu.evacSlot ≠ none) : (p.offerGated e l).Counted ids hand moving := by
  unfold Play.offerGated
  extract_lets before q r
  have hr : r.Counted ids hand moving := (h.same (.onEvl p _)).offerEvacAll e l hslot
  exact hr.same (.onEvl r _)

theorem Play.Counted.reofferAll (e : Env) (h : p.Counted ids hand moving) :
    (p.reofferAll e).Counted ids hand moving := by
  obtain ⟨hfilled, hslot⟩ := h.fillEvac e
  exact .ite (hfilled.offerEvacAll e _ hslot) h

theorem Play.Counted.reofferRestart (e : Env) (h : p.Counted ids hand moving) :
    (p.reofferRestart e).Counted ids hand moving := by
  obtain ⟨hfilled, hslot⟩ := h.fillEvac e
  exact .ite (hfilled.offerGated e _ hslot) h

theorem Play.Counted.recoverZone (e : Env) (o : Out) (h : p.Counted ids hand moving) :
    (p.recoverZone e o).Counted ids hand moving := by
  unfold Play.recoverZone
  extract_lets z q r
  have hq : q.Counted ids hand moving := h.onZone o fun _ => rfl
  exact .ite ((Play.Counted.ite (hq.reoffer e o) hq).same (.startHead e o _)) h

theorem Play.SameRefs.holdZone (e : Env) (p : Play) (o : Out) : p.SameRefs (p.holdZone e o) := by
  unfold Play.holdZone
  extract_lets resume clear stop q r
  have hresume : ∀ x : Entry, (resume x).tag = x.tag := fun x => by
    unfold resume
    split
    · dsimp only
      split <;> rfl
    · rfl
  have hstop : ∀ x : Entry, (stop x).tag = x.tag := fun x => by
    unfold stop
    split <;> rfl
  have hq : p.SameRefs q := .onEntries p o _ fun x => by
    split
    · exact hresume x
    · exact hstop x
  have hr : q.SameRefs r := .ite (.unstart o q) (.refl q)
  exact (hq.trans hr).trans (.abortSurvey e o _ r)

theorem Play.Counted.assertEvac (e : Env) (h : p.Counted ids hand moving) :
    (p.assertEvac e).Counted ids hand moving := by
  unfold Play.assertEvac
  extract_lets q r u v
  have hr : r.Counted ids hand moving := (h.same (.onEvl p _)).same (.foldl (Play.SameRefs.holdZone e) _ q)
  clear_value r
  obtain ⟨hu, hslot⟩ : u.Counted ids hand moving ∧ u.cmu.evacSlot ≠ none := hr.fillEvac e
  have hv : u.SameRefs v := by
    unfold v
    split
    · exact .onEvl u _
    · exact .refl u
  have hvslot : v.cmu.evacSlot ≠ none := hv.evacSlot.trans_ne hslot
  exact (hu.same hv).offerGated e _ hvslot

theorem Play.Counted.endEvac (e : Env) (o : Out) (h : p.Counted ids hand moving) :
    (p.endEvac e o).Counted ids hand moving := by
  have hended := h.leaveWaitingAll e (fun en => .noteDone en) o fun en => en.cls = .evac
  exact hended.same (.onEntries _ o _ fun x => x.addCause_tag _)

theorem Play.Counted.releaseEvac (e : Env) (h : p.Counted ids hand moving) :
    (p.releaseEvac e).Counted ids hand moving := by
  unfold Play.releaseEvac
  extract_lets q r levels u v w
  have hr : r.Counted ids hand moving := .foldl (fun _ o hx => hx.endEvac e o) _ (h.same (.onEvl p _))
  clear_value r
  have hu : u.Counted ids hand moving := hr.same (.of_blocks rfl rfl rfl)
  have hv : v.Counted ids hand moving := hu.sweepEvac
  have hw : w.Counted ids hand moving := .ite (hv.same (.onEvl v _)) hv
  exact .foldl (fun x o hx => hx.same (.startHead e o x)) _ hw

/-! ### Stop points and pass ends (R85 to R89) -/

/-- What follows an end or a stop keeps the counts (R82, R83, R101, R174). -/
theorem Play.Counted.afterStop (e : Env) (o : Out) (en : Entry) (h : p.Counted ids hand moving) :
    (p.afterStop e o en).Counted ids hand moving := by
  unfold Play.afterStop
  extract_lets q r
  have hq : q.Counted ids hand moving :=
    (h.onZone o (f := fun z => { z with lastStop := some ⟨e.elapsed, en.order⟩ }) fun _ => rfl).same
      (.of_level (Play.fallSilent_only e o _))
  have hr : r.Counted ids hand moving := .ite (hq.recoverZone e o) (hq.same (.startHead e o q))
  exact .ite hr (.ite (.ite hr (hr.reofferRestart e)) (.ite (hr.reoffer e o) hr))

theorem Play.Counted.endDone (e : Env) (h : p.Counted ids hand moving) (hmem : en.tag ∈ p.tags o) :
    (p.endDone e o en).Counted ids hand moving := by
  have hasked := Play.SameRefs.withdrawRequest o (.body en.id) p
  exact (((h.same hasked).takeOut (by rw [hasked.tags]; exact hmem)).same (.noteDone en _)).afterStop e o en

/-- The entry of an id, put back with its id and class, keeps the references. -/
theorem Play.SameRefs.putBack (h : p.Counted ids hand moving) (hmem : en.tag ∈ p.tags o) {back : Entry}
    (hback : back.tag = en.tag) : p.SameRefs (p.onEntry o en.id fun _ => back) := by
  refine .onEntries_of_mem p o _ fun x hx hid => hback.trans ?_
  have hinj := List.inj_on_of_nodup_map (h.queues o) hmem (Play.tag_mem hx)
  exact hinj (of_decide_eq_true hid).symm

/-- An entry settled at its stop point leaves, is moved, or waits again, and its reference with it (R89). -/
theorem Play.Counted.settleStop (e : Env) (c : StopCause) (h : p.Counted ids hand moving) (hmem : en.tag ∈ p.tags o) :
    (p.settleStop e o en c).Counted ids hand moving := by
  unfold Play.settleStop
  extract_lets q drop back u r
  have hasked : p.SameRefs q := .withdrawRequest o _ p
  have hq : q.Counted ids hand moving := h.same hasked
  have hqmem : en.tag ∈ q.tags o := by rw [hasked.tags]; exact hmem
  have hdrop : ∀ reason, (drop reason).Counted ids hand moving := fun reason =>
    (hq.takeOut hqmem).same (.noteDrop en reason _)
  refine Play.Counted.afterStop e o en ?_
  unfold r
  split
  · exact hdrop _
  · refine .ite ((hq.takeOut hqmem).same (.noteDone en _)) (.ite ((hq.unqueue hqmem).moveAway e o)
      (.ite (hdrop _) (.ite ?_ (hdrop _))))
    have hback : q.SameRefs u := (Play.SameRefs.putBack (back := back) hq hqmem rfl).trans (.tellEntry back _ _)
    refine .ite ((hq.same hback).dropWaiting (en := back) e .expired ?_) (hq.same hback)
    rw [hback.tags]
    exact hqmem

theorem Play.fedEntry_mem {c : Channel} (h : p.fedEntry c o = some en) : en ∈ (p.zone o).queue := by
  unfold Play.fedEntry at h
  split at h
  · exact List.mem_of_find?_eq_some h
  · cases h

theorem Play.Counted.memberPass (e : Env) (c : Channel) (whole : Bool) (seg pass : Nat) (o : Out)
    (h : p.Counted ids hand moving) : (p.memberPass e c whole seg pass o).Counted ids hand moving := by
  unfold Play.memberPass
  split
  · exact h
  · next en hfed =>
    have hmem := Play.tag_mem (Play.fedEntry_mem hfed)
    extract_lets moved
    have hmoved : (moved p).Counted ids hand moving := h.same (.onEntry p o _ fun _ => rfl)
    split
    · exact .ite (h.endDone e hmem) (hmoved.same (.of_level (Play.computeGain_only e o _ _ _)))
    · exact .ite hmoved (.ite (h.endDone e hmem) (h.settleStop e _ hmem))
    · exact h

theorem Play.Counted.passEnd (e : Env) (ch : Chan) (h : p.Counted ids hand moving) :
    (p.passEnd e ch).Counted ids hand moving := by
  unfold Play.passEnd
  extract_lets q c next
  have hq : q.Counted ids hand moving := h.same (.takeBoundary e p)
  refine .ite h ?_
  split
  · exact hq
  · exact hq.same (.endProbe e _ q)
  · have hmembers := hq.foldl (fun x o hx => hx.memberPass e c (q.wholeAfter c) (next.getD c.seg)
      (if next.isSome = true then 0 else c.pass + 1) o) (outsOf c.members)
    exact .ite (hmembers.same (.onChan _ ch _)) hmembers

theorem Play.Counted.memberStop (e : Env) (c : Channel) (o : Out) (h : p.Counted ids hand moving) :
    (p.memberStop e c o).Counted ids hand moving := by
  unfold Play.memberStop
  split
  · exact h
  · next en hfed =>
    split
    · extract_lets q
      have hq : q.Counted ids hand moving := h.same (.onEntry p o _ fun _ => rfl)
      exact .ite (.ite (hq.same (.of_level (Play.computeGain_only e o _ _ _))) hq)
        (h.settleStop e _ (Play.tag_mem (Play.fedEntry_mem hfed)))
    · exact h

theorem Play.Counted.stopPoint (e : Env) (ch : Chan) (h : p.Counted ids hand moving) :
    (p.stopPoint e ch).Counted ids hand moving :=
  .ite h (.foldl (fun _ o hx => hx.memberStop e _ o) _ (h.same (.takeBoundary e p)))

/-! ### Removals (R91, R93, R94, R118) -/

theorem Play.Counted.removeIn (e : Env) (sel : Entry → Bool) (r : DropReason) (stop : Bool) (o : Out)
    (h : p.Counted ids hand moving) : (p.removeIn e sel r stop o).Counted ids hand moving := by
  refine (h.dropAll e r o sel).same (.onEntries _ o _ fun x => ?_)
  split
  · exact x.addCause_tag _
  · rfl

theorem Play.Counted.removeAll (e : Env) (sel : Entry → Bool) (r : DropReason) (stop : Bool)
    (h : p.Counted ids hand moving) : (p.removeAll e sel r stop).Counted ids hand moving :=
  .foldl (fun _ o hx => hx.removeIn e sel r stop o) _ h

theorem Play.Counted.dropAllWaiting (e : Env) (sel : Entry → Bool) (r : DropReason) (h : p.Counted ids hand moving) :
    (p.dropAllWaiting e sel r).Counted ids hand moving :=
  .foldl (fun _ o hx => hx.dropAll e r o sel) _ h

theorem Play.Counted.removeCalls (e : Env) (sel : Option ServiceKey → Option (BitVec 8) → Bool) (stop : Bool)
    (h : p.Counted ids hand moving) : (p.removeCalls e sel stop).Counted ids hand moving :=
  (h.removeAll e _ .callEnded stop).same (.onNet (Net.withdrawAll_length e _) _)

theorem Play.Counted.withdraw (e : Env) (env : Envelope) (f : WithdrawFrame) (h : p.Counted ids hand moving) :
    (p.withdraw e env f).Counted ids hand moving := by
  unfold Play.withdraw
  extract_lets sel removed q r
  have hr : r.Counted ids hand moving :=
    .foldl (fun _ o hx => hx.removeIn e _ _ _ o) _ (h.same (.onPauCounts _ p))
  exact .ite h (.ite hr (hr.same (.onNet (fun n => (Net.enqueue_length e _ _).trans (n.flush_length e)) r)))

/-! ### Faulted zones (R96 to R101, R155, R158) -/

/-- Entries of a FAULTED zone, without repeated ids, leave its queue and are moved, one after the other (R98). -/
theorem Play.Counted.moveAll (e : Env) {l : List Entry} (hl : (l.map (·.id)).Nodup) (h : p.Counted ids hand moving)
    (hfaulted : (p.zone o).faulted = true) (hmem : ∀ en ∈ l, en.tag ∈ p.tags o) :
    (l.foldl (fun p en =>
      ((p.withdrawRequest o (.body en.id)).onZone o fun z =>
        { z with queue := z.queue.filter fun x => x.id ≠ en.id }).moveAway e o en) p).Counted ids hand moving := by
  induction l generalizing p with
  | nil => exact h
  | cons en rest ih =>
    rw [List.map_cons, List.nodup_cons] at hl
    obtain ⟨hen, hrest⟩ := hl
    have hasked := Play.SameRefs.withdrawRequest o (.body en.id) p
    have hqueued : en.tag ∈ (p.withdrawRequest o (.body en.id)).tags o := by
      rw [hasked.tags]
      exact hmem en List.mem_cons_self
    obtain ⟨htags, hstill⟩ := Play.moveAway_tags (o := o) (p := (p.withdrawRequest o (.body en.id)).onZone o fun z =>
        { z with queue := z.queue.filter fun x => x.id ≠ en.id }) e en (by
      rw [Play.onZone_zone_self]
      exact (hasked.faulted o).trans hfaulted)
    refine ih hrest (((h.same hasked).unqueue hqueued).moveAway e o) hstill fun x hx => ?_
    rw [htags, Play.tags, Play.onZone_zone_self, map_tag_filter_id, List.mem_filter]
    refine ⟨?_, decide_eq_true fun hid => hen (List.mem_map.mpr ⟨x, hx, hid⟩)⟩
    have hqueue : x.tag ∈ (p.withdrawRequest o (.body en.id)).tags o := by
      rw [hasked.tags]
      exact hmem x (List.mem_cons_of_mem _ hx)
    exact hqueue

theorem Play.Counted.faultZone (e : Env) (o : Out) (h : p.Counted ids hand moving) :
    (p.faultZone e o).Counted ids hand moving := by
  unfold Play.faultZone
  extract_lets z dropped q r u v waiting
  split
  · exact (h.dropAll e .zoneFault o fun _ => true).same (.onEntries _ o _ fun x => x.addCause_tag _)
  · split
    · exact h
    · have hq : q.Counted ids hand moving := h.onZone o (f := fun z => { z with faulted := true }) fun _ => rfl
      have hr : q.SameRefs r := .abortSurvey e o _ q
      have hv : q.SameRefs v :=
        (hr.trans (.ite (.onLevel r o _) (.refl r))).trans
          (.onEntries u o _ fun x => x.addCause_tag _)
      have hfaulted : (v.zone o).faulted = true := by
        rw [hv.faulted, Play.onZone_zone_self]
      have hcounted := hq.same hv
      exact hcounted.moveAll e ((hcounted.ids_nodup o).sublist (List.filter_sublist.map _)) hfaulted
        fun x hx => Play.tag_mem (List.mem_of_mem_filter hx)

theorem Play.Counted.statusChanged (e : Env) (o : Out) (h : p.Counted ids hand moving) :
    (p.statusChanged e o).Counted ids hand moving := by
  have hzone : (if p.lineDown o = true then p.faultZone e o else p.recoverZone e o).Counted ids hand moving :=
    .ite (h.faultZone e o) (h.recoverZone e o)
  unfold Play.statusChanged
  dsimp only
  split
  · exact hzone.same (.fault e _ _ _)
  · exact hzone

theorem Play.Counted.supervisionWord (e : Env) (o : Out) (w : SupWord) (h : p.Counted ids hand moving) :
    (p.supervisionWord e o w).Counted ids hand moving := by
  have hword : (p.onLine o fun l => l.takeWord w).Counted ids hand moving := h.same (.onLine p o _)
  exact .ite h (.ite (h.same (.onLsu p _)) (.ite hword (hword.statusChanged e o)))

theorem Play.Counted.endCycleAt (e : Env) (o : Out) (h : p.Counted ids hand moving) :
    (p.endCycleAt e o).Counted ids hand moving := by
  unfold Play.endCycleAt
  extract_lets l q r u
  have hq : q.Counted ids hand moving := h.same (.onLine p o _)
  have hr : r.Counted ids hand moving := hq.same (.onLsu q _)
  have hu : u.Counted ids hand moving := .ite hr (hr.recoverZone e o)
  exact .ite (.ite (hu.same (.fault e _ _ u)) hr) hq

theorem Play.Counted.cycleEnd (e : Env) (h : p.Counted ids hand moving) : (p.cycleEnd e).Counted ids hand moving :=
  (Play.Counted.foldl (fun _ o hx => hx.endCycleAt e o) allOuts h).same (.onLsu _ _)

/-! ### Entry to RUNNING and the soft restart (R103, R105, R189, R191) -/

theorem Play.Counted.startZone (e : Env) (o : Out) (h : p.Counted ids hand moving) :
    (p.startZone e o).Counted ids hand moving := by
  unfold Play.startZone
  split
  · exact h.onZone o fun _ => rfl
  · exact (h.dropAll e .notOwned o fun _ => true).same (.onEntries _ o _ fun x => x.addCause_tag _)

theorem Play.SameRefs.startSurvey (e : Env) (p : Play) (o : Out) : p.SameRefs (p.startSurvey e o) := by
  unfold Play.startSurvey
  split
  · exact .onSurvey p o _
  · exact .refl p

theorem Play.SameRefs.startLevel (e : Env) (p : Play) (o : Out) : p.SameRefs (p.startLevel e o) := by
  unfold Play.startLevel
  extract_lets playing
  split
  · extract_lets q
    have hq : p.SameRefs q := .onLevel p o _
    exact hq.trans (.ite (.of_level (Play.computeGain_only e o _ _ q)) (.refl q))
  · exact .onLevel p o _

theorem Play.SameRefs.startLine (e : Env) (p : Play) (o : Out) : p.SameRefs (p.startLine e o) := .onLine p o _

theorem Play.Counted.start (e : Env) (lock : Bool) (h : p.Counted ids hand moving) :
    (p.start e lock).Counted ids hand moving := by
  unfold Play.start
  extract_lets q r u v w x
  have hq : q.Counted ids hand moving := .foldl (fun _ o hx => hx.startZone e o) _ h
  have hv : q.SameRefs v := ((Play.SameRefs.foldl (Play.SameRefs.startSurvey e) _ q).trans
    (.foldl (Play.SameRefs.startLevel e) _ r)).trans (.foldl (Play.SameRefs.startLine e) _ u)
  have hx : x.Counted ids hand moving := ((hq.same hv).same (.onLsu v _)).reofferAll e
  exact hx.same (.onNet (f := fun n => Net.enqueue e _ { n with lki := { n.lki with beaconAt := e.elapsed + 1000 } })
    (fun n => Net.enqueue_length e _ _) x)

theorem Play.Counted.restartZone (e : Env) (o : Out) (h : p.Counted ids hand moving) :
    (p.restartZone e o).Counted ids hand moving :=
  ((h.dropAll e .restart o fun _ => true).same (.onEntries _ o _ fun x => x.addCause_tag _)).same (.abortSurvey e o _ _)

theorem Play.Counted.restart (e : Env) (h : p.Counted ids hand moving) : (p.restart e).Counted ids hand moving := by
  unfold Play.restart
  extract_lets q r u levels v w
  have hr : r.Counted ids hand moving := .foldl (fun _ o hx => hx.restartZone e o) _ (h.same (.onCfu p _))
  clear_value r
  have hu : u.Counted ids hand moving := hr.sweepEvac
  have hv : v.Counted ids hand moving := hu.same (.of_blocks rfl rfl rfl)
  have hw : w.Counted ids hand moving := hv.same (.onNet (fun _ => Nat.zero_le _) v)
  exact .ite hw (hw.reofferRestart e)

/-- A shift of the held instants keeps the counts (R92, R108). -/
theorem Play.SameRefs.shiftInstants (by_ : Day) (p : Play) : p.SameRefs (p.shiftInstants by_) := by
  unfold Play.shiftInstants
  extract_lets entry playout q
  have hzone : ∀ o, q.zone o = { p.zone o with queue := (p.zone o).queue.map entry } := fun o => by
    simp only [Play.zone, q, mapIdx_get]
  have hq : p.SameRefs q := by
    refine ⟨rfl, rfl, rfl, fun o => ?_, le_rfl, fun o => by rw [hzone]⟩
    rw [Play.tags, hzone, List.map_map]
    rfl
  exact hq.trans (.onNet (fun n => (List.length_map _).le) q)

end counted

end Sys2Proof.Machine
end

section
/-! PROOFS. What the operations of the body store keep of the counts: the slots and the displacement (R66, R70), sequence
numbers (R67), local composition (R68), and the allocation and admission for another station (R72, R115). -/
namespace Sys2Proof.Machine

/-! ### The slots and the sequence numbers (R66, R67) -/

theorem Composition.mem_slots_iff {c : Composition} {b : Option Body} :
    b ∈ c.slots.toList ↔ ∃ i : Fin 32, c.slots.get i = b := by
  rw [Vector.mem_toList_iff, Vector.mem_iff_getElem]
  exact ⟨fun ⟨i, hi, h⟩ => ⟨⟨i, hi⟩, h⟩, fun ⟨i, h⟩ => ⟨i.val, i.isLt, h⟩⟩

/-- The free slot is free, and every slot before it is held (R66). -/
theorem Composition.freeSlot_eq_some_iff {c : Composition} {i : Fin 32} :
    c.freeSlot = some i ↔ c.slots.get i = none ∧ ∀ j, j < i → c.slots.get j ≠ none := by
  unfold Composition.freeSlot
  rw [List.find?_eq_some_iff_getElem]
  simp only [Option.isNone_iff_eq_none, List.getElem_finRange, List.length_finRange, Bool.not_eq_true',
    Option.isNone_eq_false_iff, Option.isSome_iff_ne_none]
  constructor
  · rintro ⟨hfree, k, hk, rfl, hbefore⟩
    exact ⟨hfree, fun j hj => hbefore j.val hj⟩
  · exact fun ⟨hfree, hbefore⟩ => ⟨hfree, i.val, i.isLt, rfl, fun j hj => hbefore ⟨j, hj.trans i.isLt⟩ hj⟩

/-- No slot is free exactly where every slot is held (R66). -/
theorem Composition.freeSlot_eq_none_iff {c : Composition} :
    c.freeSlot = none ↔ ∀ i, c.slots.get i ≠ none := by
  simp [Composition.freeSlot]

/-- A sequence number taken is that of a held body or of an origination (R67). -/
theorem Play.seqTaken_iff {e : Env} {p : Play} {n : Nat} :
    p.seqTaken e n = true ↔ p.cmu.Holds ⟨e.own, n⟩ ∨ ∃ x ∈ p.net.pau.table, x.id = ⟨e.own, n⟩ := by
  unfold Play.seqTaken
  rw [Bool.or_eq_true, List.any_eq_true, List.any_eq_true]
  simp only [Composition.mem_slots_iff, Option.any_eq_true, decide_eq_true_eq]
  refine or_congr_left ⟨?_, ?_⟩
  · rintro ⟨_, ⟨i, rfl⟩, b, hb, hid⟩
    exact ⟨i, b, hb, hid⟩
  · rintro ⟨i, b, hb, hid⟩
    exact ⟨_, ⟨i, rfl⟩, b, hb, hid⟩

/-- The ids that a sequence number may not give: those of the held bodies and of the originations (R67). -/
def Play.carriedIds (p : Play) : List AnnId :=
  (p.cmu.slots.toList.filterMap fun b => b.map (·.id)) ++ p.net.pau.table.map (·.id)

theorem Play.carriedIds_length (p : Play) : p.carriedIds.length ≤ 32 + p.net.pau.table.length := by
  unfold Play.carriedIds
  rw [List.length_append, List.length_map]
  refine Nat.add_le_add_right ((List.length_filterMap_le _ _).trans ?_) _
  rw [Vector.length_toList]

theorem Play.mem_carriedIds_of_seqTaken {e : Env} {p : Play} {n : Nat} (h : p.seqTaken e n = true) :
    ⟨e.own, n⟩ ∈ p.carriedIds := by
  rw [Play.carriedIds, List.mem_append]
  rcases Play.seqTaken_iff.mp h with ⟨i, b, hb, hid⟩ | ⟨x, hx, hid⟩
  · exact Or.inl (List.mem_filterMap.mpr ⟨_, Composition.mem_slots_iff.mpr ⟨i, hb⟩, by rw [Option.map_some, hid]⟩)
  · exact Or.inr (List.mem_map.mpr ⟨x, hx, hid⟩)

/-- The candidates for a sequence number are 2047 different ones, and at most 48 ids are carried: one is free (R67). -/
theorem Play.seqTaken_nextSequence {p : Play} (e : Env) (h : p.net.pau.table.length ≤ 16) :
    p.seqTaken e (p.nextSequence e) = false := by
  unfold Play.nextSequence
  have hfree : ∃ k < 2047, p.seqTaken e ((p.cmu.nextSeq - 1 + k) % 2047 + 1) = false := by
    by_contra hall
    have hmaps : ∀ k ∈ Finset.range 2047, (⟨e.own, (p.cmu.nextSeq - 1 + k) % 2047 + 1⟩ : AnnId) ∈ p.carriedIds.toFinset :=
      fun k hk => List.mem_toFinset.mpr (Play.mem_carriedIds_of_seqTaken (Bool.not_eq_false _ ▸ fun hfree =>
        hall ⟨k, Finset.mem_range.mp hk, hfree⟩))
    have hinj : Set.InjOn (fun k => (⟨e.own, (p.cmu.nextSeq - 1 + k) % 2047 + 1⟩ : AnnId)) (Finset.range 2047) := by
      intro j hj k hk hjk
      have hseq := congrArg AnnId.seq hjk
      simp only [Finset.coe_range, Set.mem_Iio] at hj hk hseq
      omega
    have hcard := (Finset.card_le_card_of_injOn _ hmaps hinj).trans (List.toFinset_card_le _)
    rw [Finset.card_range] at hcard
    have := p.carriedIds_length
    omega
  obtain ⟨k, hk, hfree⟩ := hfree
  have hsome : (((List.range 2047).map fun k => (p.cmu.nextSeq - 1 + k) % 2047 + 1).find? fun n =>
      !p.seqTaken e n).isSome = true :=
    List.find?_isSome.mpr ⟨_, List.mem_map_of_mem (List.mem_range.mpr hk), by rw [hfree]; rfl⟩
  obtain ⟨n, hn⟩ := Option.isSome_iff_exists.mp hsome
  rw [hn, Option.getD_some]
  have hfound := List.find?_some hn
  rwa [Bool.not_eq_true'] at hfound

section counted
variable {ids : AnnId → Prop} {hand : Option AnnId} {moving : Multiset (AnnId × AnnClass)} {p : Play}

/-- The ids of the bodies are bounded by all but one that is not held. -/
theorem Composition.Counts.excluding {refs : Multiset (AnnId × AnnClass)} {c : Composition} (h : c.Counts ids hand refs)
    {id : AnnId} (hnew : ¬ c.Holds id) : c.Counts (· ≠ id) hand refs :=
  ⟨h.distinct, h.general, h.evac, h.serves, h.inHand, h.handHeld, fun i b hb hid => hnew ⟨i, b, hb, hid⟩⟩

theorem Play.Counted.not_holds {id : AnnId} (h : p.Counted (· ≠ id) hand moving) : ¬ p.cmu.Holds id :=
  fun ⟨i, b, hb, hid⟩ => h.counts.within i b hb hid

theorem Play.Counted.forget (h : p.Counted ids hand moving) : p.Counted (fun _ => True) hand moving :=
  ⟨h.queues, h.counts.forget, h.table⟩

theorem Play.Counted.excluding (h : p.Counted ids hand moving) {id : AnnId} (hnew : ¬ p.cmu.Holds id) :
    p.Counted (· ≠ id) hand moving := ⟨h.queues, h.counts.excluding hnew, h.table⟩

/-- A slot is obtained, free or freed by displacement, and the counts are kept (R68, R70, R72). -/
theorem Play.Counted.obtainSlot (e : Env) (cls : AnnClass) (h : p.Counted ids hand moving) :
    (p.obtainSlot e cls).2.Counted ids hand moving ∧
      ∀ i, (p.obtainSlot e cls).1 = some i → (p.obtainSlot e cls).2.cmu.slots.get i = none := by
  unfold Play.obtainSlot
  split
  · next i hfree =>
    refine ⟨h, fun j hj => ?_⟩
    cases hj
    exact (Composition.freeSlot_eq_some_iff.mp hfree).1
  · split
    · exact ⟨h, nofun⟩
    · extract_lets q
      have hq : q.Counted ids hand moving := (h.removeAll e _ .displaced false).same (.onCmuCounts _ _)
      clear_value q
      exact ⟨hq, fun i hi => (Composition.freeSlot_eq_some_iff.mp hi).1⟩

/-- A body of an id not held and of count 0 is held in a free slot (R66, R69). -/
theorem Play.Counted.holdBody (h : p.Counted ids none moving) {i : Fin 32} (hfree : p.cmu.slots.get i = none)
    {b : Body} (hcls : b.cls ≠ .evac) (h0 : b.refs = 0) (hnew : ¬ p.cmu.Holds b.id) :
    (p.onCmu fun c => c.hold i b).Counted (fun _ => True) (some b.id) moving := by
  refine h.of_cmu (p.onCmu_zpc _) (p.onCmu_net _) ?_
  rw [Play.onCmu_cmu]
  exact h.forget.counts.hold hfree hcls h0 hnew trivial

/-- The operation that held a body ends (R68, R72). -/
theorem Play.Counted.releaseBody (h : p.Counted ids hand moving) :
    (p.onCmu Composition.release).Counted ids none moving := by
  refine h.of_cmu (p.onCmu_zpc _) (p.onCmu_net _) ?_
  rw [Play.onCmu_cmu]
  exact h.counts.release

/-- An announcement offered to its owned zones, with its body in hand (R68, R115). -/
theorem Play.Counted.offerZones (e : Env) (zones : ZoneSet) {entry : Nat → Entry} {id : AnnId}
    (hid : ∀ z, (entry z).id = id) (hcls : ∀ z, (entry z).cls ≠ .evac) (h : p.Counted ids (some id) moving) :
    (p.offerZones e zones entry).Counted ids (some id) moving := by
  refine h.foldl (fun q z hq => ?_) _
  split
  · exact hq.offer e _ ⟨fun _ => by rw [hid], fun hevac => absurd hevac (hcls z)⟩
  · exact hq

end counted

/-! ### Composing a local request (R68) -/

theorem Play.SameRefs.onCmuSeq (p : Play) (n : Nat) : p.SameRefs (p.onCmu fun c => { c with nextSeq := n }) :=
  ⟨rfl, rfl, rfl, fun _ => rfl, le_rfl, fun _ => rfl⟩

theorem Play.SameRefs.expandRequest (e : Env) (r : Request) (p : Play) : p.SameRefs (p.expandRequest e r).2 := by
  unfold Play.expandRequest
  extract_lets template x q u v
  have hq : p.SameRefs q := .ite (.onCmuCounts p _) (.refl p)
  have hu : q.SameRefs u := .ite (.fault e _ _ q) (.refl q)
  exact (hq.trans hu).trans (.ite (.fault e _ _ u) (.refl u))

theorem Play.Counted.originate {ids : AnnId → Prop} {hand : Option AnnId} {moving : Multiset (AnnId × AnnClass)}
    {p : Play} (e : Env) (version : Nat) (r : SendRequest) (h : p.Counted ids hand moving) :
    (p.onNet (Net.originate e version r)).Counted ids hand moving :=
  ⟨h.queues, h.counts, Net.originate_length e version r h.table⟩

/-- A request that is not of class EVAC is composed and handed out (R68). -/
theorem Play.Settled.compose {p : Play} (e : Env) {r : Request} (hcls : r.cls ≠ .evac) (h : p.Settled) :
    (p.compose e r).Settled := by
  have hexpanded := h.same (.expandRequest e r p)
  unfold Play.compose
  generalize p.expandRequest e r = expanded at hexpanded ⊢
  obtain ⟨segs, q⟩ := expanded
  dsimp only at hexpanded ⊢
  split
  · exact hexpanded.same (.onCmuCounts q _)
  · obtain ⟨hobtained, hfree⟩ := hexpanded.obtainSlot e r.cls
    generalize q.obtainSlot e r.cls = obtained at hobtained hfree ⊢
    obtain ⟨slot, got⟩ := obtained
    cases slot with
    | none => exact hobtained.same (.onCmuCounts got _)
    | some slot =>
      have hseq := got.seqTaken_nextSequence e hobtained.table
      have hnew : ¬ got.cmu.Holds ⟨e.own, got.nextSequence e⟩ := fun hheld => by
        rw [Play.seqTaken_iff.mpr (Or.inl hheld)] at hseq
        cases hseq
      dsimp only at hobtained hfree ⊢
      have hheld := hobtained.holdBody (hfree slot rfl) (b := ⟨⟨e.own, got.nextSequence e⟩, r.cls, .own, some r.snap.key,
        some r.snap.epoch, segs, 0⟩) hcls rfl hnew
      have hnumbered := hheld.same (.onCmuSeq _ (got.nextSequence e % 2047 + 1))
      have hoffered := (hnumbered.same (.onCmuCounts _ fun c => { c with composed := bump c.composed })).offerZones e r.zones
        (entry := newEntry ⟨e.own, got.nextSequence e⟩ r.cls .own (some r.snap.key) (some r.snap.epoch)
          (r.syncTime.map fun t => instantOf r.issued.day t) false (some (r.issued.plus r.expiryMs)))
        (fun _ => rfl) fun _ => hcls
      exact (Play.Counted.ite hoffered (hoffered.originate e _ _)).releaseBody

/-! ### Remote bodies (R71, R72, R115) -/

theorem classTaken_ne_evac (n : Nat) : classTaken n ≠ .evac := by
  unfold classTaken
  split
  · nofun
  · split <;> nofun

theorem Play.SameRefs.checkRemote (e : Env) (f : AnnounceFrame) (p : Play) : p.SameRefs (p.checkRemote e f).2 := by
  unfold Play.checkRemote
  extract_lets cls q segs u
  have hq : p.SameRefs q := .ite (.onCmuCounts p _) (.refl p)
  exact hq.trans (.ite (.fault e _ _ q) (.refl q))

/-- The body held under an id, by its slot (R72). -/
theorem Composition.holds_of_findSome {c : Composition} {id : AnnId} {b : Body}
    (h : (c.slots.toList.findSome? fun b => b.filter fun b => b.id = id) = some b) :
    ∃ i, c.slots.get i = some b ∧ b.id = id := by
  obtain ⟨a, ha, hab⟩ := List.exists_of_findSome?_eq_some h
  obtain ⟨i, rfl⟩ := Composition.mem_slots_iff.mp ha
  obtain ⟨hget, hid⟩ := Option.filter_eq_some_iff.mp hab
  exact ⟨i, hget, of_decide_eq_true hid⟩

theorem Composition.findSome_eq_none_iff {c : Composition} {id : AnnId} :
    (c.slots.toList.findSome? fun b => b.filter fun b => b.id = id) = none ↔ ¬ c.Holds id := by
  rw [List.findSome?_eq_none_iff]
  constructor
  · rintro h ⟨i, b, hb, hid⟩
    have hnone := h _ (Composition.mem_slots_iff.mpr ⟨i, hb⟩)
    rw [Option.filter_some, if_pos (decide_eq_true hid)] at hnone
    cases hnone
  · intro h a ha
    obtain ⟨i, rfl⟩ := Composition.mem_slots_iff.mp ha
    rw [Option.filter_eq_none_iff]
    exact fun b hb => by
      rw [decide_eq_true_eq]
      exact fun hid => h ⟨i, b, hb, hid⟩

/-- What a remote allocation gives: the counts with the body in hand, of a class that is not EVAC, or the counts as
between commands (R72). -/
def RemoteBody.Given (id : AnnId) (p : Play) : RemoteBody → Prop
  | .body cls => cls ≠ .evac ∧ p.Counted (fun _ => True) (some id) 0
  | _ => p.Settled

theorem Play.Settled.allocateRemote {p : Play} (e : Env) (f : AnnounceFrame) (h : p.Settled) :
    (p.allocateRemote e f).1.Given ⟨f.origin, f.seq⟩ (p.allocateRemote e f).2 := by
  have hchecked := h.same (.checkRemote e f p)
  unfold Play.allocateRemote
  split
  · exact h
  · generalize p.checkRemote e f = checked at hchecked ⊢
    obtain ⟨segs, q⟩ := checked
    dsimp only at hchecked ⊢
    split
    · next b hb =>
      obtain ⟨i, hget, hid⟩ := Composition.holds_of_findSome hb
      exact ⟨(hchecked.counts.general i b hget).1, hchecked.of_cmu rfl rfl (hchecked.counts.takeInHand ⟨i, b, hget, hid⟩)⟩
    · next hnone =>
      obtain ⟨hobtained, hfree⟩ :=
        (hchecked.excluding (Composition.findSome_eq_none_iff.mp hnone)).obtainSlot e (classTaken f.cls)
      generalize q.obtainSlot e (classTaken f.cls) = obtained at hobtained hfree ⊢
      obtain ⟨slot, got⟩ := obtained
      cases slot with
      | none =>
        dsimp only at hobtained ⊢
        exact hobtained.forget.same (.onCmuCounts got _)
      | some slot =>
        dsimp only at hobtained hfree ⊢
        exact ⟨classTaken_ne_evac _, hobtained.holdBody (b := ⟨⟨f.origin, f.seq⟩, classTaken f.cls, .remote f.origin,
          announceKey f, none, segs, 0⟩) (hfree slot rfl) (classTaken_ne_evac _) rfl hobtained.not_holds⟩

theorem Play.SameRefs.tellZones (f : AnnounceFrame) (zones : List Nat) (o : Outcome) (p : Play) :
    p.SameRefs (p.tellZones f zones o) := .foldl (fun p _ => .tell _ _ _ _ p) _ p

theorem Play.SameRefs.tellNotOwned (f : AnnounceFrame) (zones : List Nat) (p : Play) :
    p.SameRefs (p.tellNotOwned f zones) := (Play.SameRefs.tellZones f zones _ p).trans (.onPauCounts _ _)

theorem Play.Settled.admitRemote {p : Play} (e : Env) (src : Nat) (f : AnnounceFrame) (owned others : List Nat)
    (h : p.Settled) : (p.admitRemote e src f owned others).Settled := by
  unfold Play.admitRemote
  extract_lets cls dropAll
  have hdrop : ∀ (r : DropReason) (count : PauCounts → PauCounts) (q : Play), q.SameRefs (dropAll r count q) :=
    fun r count q => ((Play.SameRefs.tellZones f owned _ q).trans (.onPauCounts count _)).trans (.tellNotOwned f others _)
  split
  · exact h.same ((Play.SameRefs.fault e _ _ p).trans (hdrop _ _ _))
  · refine .ite (h.same (hdrop _ _ _)) (.ite (h.same (hdrop _ _ _)) ?_)
    have hgiven := Play.Settled.allocateRemote e f h
    generalize p.allocateRemote e f = allocated at hgiven ⊢
    obtain ⟨answer, q⟩ := allocated
    cases answer with
    | empty => exact Play.Counted.same hgiven (.onPauCounts _ q)
    | noBody => exact Play.Counted.same hgiven (hdrop _ _ q)
    | body held =>
      obtain ⟨hcls, hcounted⟩ := hgiven
      dsimp only
      have hoffered := hcounted.offerZones e f.zones (entry := newEntry ⟨f.origin, f.seq⟩ held (.remote src)
        (announceKey f) none (announceSync f) f.mustSync (some (instantOf f.expiryDay f.expiryTime)))
        (fun _ => rfl) fun _ => hcls
      exact hoffered.releaseBody.same (.tellNotOwned f others _)

theorem Play.Settled.announce {p : Play} (e : Env) (env : Envelope) (f : AnnounceFrame) (h : p.Settled) :
    (p.announce e env f).Settled := by
  unfold Play.announce
  extract_lets owned others
  have hcounted : (p.onPauCounts fun c => { c with announceReceived := bump c.announceReceived }).Settled :=
    h.same (.onPauCounts _ p)
  split
  · exact h
  · split
    · exact h.same (.tellNotOwned f others p)
    · exact hcounted.admitRemote e env.src f owned others

end Sys2Proof.Machine
end

section
/-! PROOFS. The counts of the bodies through the acts of a whole state: guards and frames, announcement requests, call
events and timetable frames, berth inputs, the clock, start-up and maintenance; and that every step keeps them (R39, R66,
R69, R108). -/
namespace Sys2Proof.Machine

/-! ### States -/

theorem State.RefsCounted.settled {s : State} (h : s.RefsCounted) : s.play.Settled := (s.refsCounted_iff.mp h).1

theorem State.RefsCounted.noEvacTrigger {s : State} (h : s.RefsCounted) : s.cfl.NoEvac := (s.refsCounted_iff.mp h).2

theorem Play.Settled.refsCounted {s : State} (h : s.play.Settled) (hcfl : s.cfl.NoEvac) : s.RefsCounted :=
  s.refsCounted_iff.mpr ⟨h, hcfl⟩

section state
variable {s : State}

/-- What leaves the blocks of `Play` and the loader leaves the counts. -/
theorem State.RefsCounted.of_eq (h : s.RefsCounted) {t : State} (hplay : t.play = s.play) (hcfl : t.cfl = s.cfl) :
    t.RefsCounted := by
  refine Play.Settled.refsCounted ?_ ?_
  · rw [hplay]
    exact h.settled
  · rw [hcfl]
    exact h.noEvacTrigger

theorem State.RefsCounted.onPlay (h : s.RefsCounted) {f : Env → Play → Play}
    (hf : ∀ (e : Env) (p : Play), p.Settled → (f e p).Settled) : (s.onPlay f).RefsCounted :=
  Play.Settled.refsCounted (s := s.onPlay f) (hf s.env s.play h.settled) h.noEvacTrigger

theorem State.RefsCounted.onCtb (h : s.RefsCounted) (f : CallTable → CallTable) : (s.onCtb f).RefsCounted :=
  h.of_eq rfl rfl

theorem State.RefsCounted.onTgu (h : s.RefsCounted) (f : Triggers → Triggers) : (s.onTgu f).RefsCounted :=
  h.of_eq rfl rfl

theorem State.RefsCounted.onSck (h : s.RefsCounted) (f : Clock → Clock) : (s.onSck f).RefsCounted :=
  h.of_eq rfl rfl

/-- A change of the blocks of `Net` that adds no origination keeps the counts. -/
theorem State.RefsCounted.onNet (h : s.RefsCounted) {f : Env → Net → Net}
    (hf : ∀ e n, (f e n).pau.table.length ≤ n.pau.table.length) : (s.onNet f).RefsCounted :=
  h.onPlay fun e p hp => hp.same (.onNet (hf e) p)

theorem State.RefsCounted.onLki (h : s.RefsCounted) (f : LinkUnit → LinkUnit) : (s.onLki f).RefsCounted :=
  h.onNet fun _ _ => le_rfl

theorem State.RefsCounted.ite {t : State} {c : Prop} [Decidable c] (h : s.RefsCounted) (k : t.RefsCounted) :
    (if c then s else t).RefsCounted := by
  split
  · exact h
  · exact k

theorem State.RefsCounted.finish (h : s.RefsCounted) : s.finish.RefsCounted :=
  h.onPlay fun e p hp => hp.same (.finish e p)

theorem State.RefsCounted.finishBoundary (h : s.RefsCounted) : s.finishBoundary.RefsCounted :=
  h.onPlay fun e p hp => hp.same (.finishBoundary e p)

theorem State.RefsCounted.foldl {α : Type} {f : State → α → State} {l : List α} (h : s.RefsCounted)
    (hf : ∀ (t : State), ∀ a ∈ l, t.RefsCounted → (f t a).RefsCounted) : (l.foldl f s).RefsCounted :=
  List.foldlRecOn (motive := State.RefsCounted) l f h fun t ht a ha => hf t a ha ht

theorem State.RefsCounted.when (h : s.RefsCounted) (due : Bool) {act : State → State} (hact : (act s).RefsCounted) :
    (s.when due act).RefsCounted := State.when_keeps h fun _ => hact

/-- A good frame that an act takes (R179). -/
theorem State.RefsCounted.receive (h : s.RefsCounted) (env : Envelope) (ok : Bool) {act : State → State}
    (hact : ∀ t : State, t.RefsCounted → (act t).RefsCounted) : (s.receive env ok act).RefsCounted :=
  State.receive_keeps env ok h (fun _ f hu => hu.onLki f) hact

theorem State.RefsCounted.whenRunning (h : s.RefsCounted) {act : State → State} (hact : (act s).RefsCounted) :
    (s.whenRunning act).RefsCounted := State.whenRunning_keeps h hact

theorem State.RefsCounted.fault (h : s.RefsCounted) (k : FaultKind) (source : Nat) :
    (s.onPlay fun e p => p.fault e k source).RefsCounted := h.onPlay fun e p hp => hp.same (.fault e k source p)

/-! ### Triggers (R39, R42, R46, R50) -/

/-- No trigger in force is of class EVAC (R39). -/
theorem State.RefsCounted.triggers (h : s.RefsCounted) {t : Fin 32 × Trigger} (ht : t ∈ s.triggers) :
    t.2.cls ≠ .evac := by
  unfold State.triggers at ht
  split at ht
  · next image himage =>
    obtain ⟨k, _, hk⟩ := List.mem_filterMap.mp ht
    obtain ⟨t', ht', rfl⟩ := Option.map_eq_some_iff.mp hk
    exact h.noEvacTrigger.1 image himage t' (List.mem_of_getElem? ht')
  · cases ht

theorem State.RefsCounted.issue (h : s.RefsCounted) (snap : CallRec) (platforms : List Nat) {t : Fin 32 × Trigger}
    (ht : t.2.cls ≠ .evac) : (s.issue snap platforms t).RefsCounted := by
  unfold State.issue
  extract_lets e zones r
  split
  · exact h.onTgu _
  · split
    · exact h.onTgu _
    · exact (h.onTgu _).onPlay fun e p hp => Play.Settled.compose e ht hp

theorem mem_of_mem_requesters {l : List (Fin 32 × Trigger)} {t : Fin 32 × Trigger} (h : t ∈ requesters l) : t ∈ l := by
  cases l with
  | nil => cases h
  | cons first rest =>
    rcases List.mem_cons.mp h with rfl | h
    · exact List.mem_cons_self
    · exact List.mem_cons_of_mem _ (List.mem_of_mem_filter h)

/-- Triggers in force issue their requests (R42, R46). -/
theorem State.RefsCounted.issueAll (h : s.RefsCounted) (snap : CallRec) (platforms : List Nat)
    {l : List (Fin 32 × Trigger)} (hl : ∀ t ∈ l, t.2.cls ≠ .evac) :
    ((requesters l).foldl (State.issue snap platforms) s).RefsCounted :=
  h.foldl fun _ t ht hu => hu.issue snap platforms (hl t (mem_of_mem_requesters ht))

theorem State.RefsCounted.stateMatch (h : s.RefsCounted) (ev : CallEvent) (r : CallRec) (platform : Nat)
    (platforms : List Nat) : (s.stateMatch ev r platform platforms).RefsCounted :=
  (h.onTgu _).issueAll r platforms fun _ ht => h.triggers (List.mem_of_mem_filter ht)

theorem State.RefsCounted.evaluate (h : s.RefsCounted) (i : Fin 96) : (s.evaluate i).RefsCounted := by
  unfold State.evaluate
  split
  · split
    · exact h
    · extract_lets time due stale fresh u v
      have hv : v.RefsCounted := (h.onTgu _).onCtb _
      exact hv.issueAll _ _ fun t ht => h.triggers (List.mem_of_mem_filter (List.mem_of_mem_filter ht))
  · exact h

theorem State.RefsCounted.evaluateAll (h : s.RefsCounted) : s.evaluateAll.RefsCounted :=
  h.foldl fun _ i _ hu => hu.evaluate i

/-! ### Call events and timetable frames (R4 to R17, R23) -/

theorem State.RefsCounted.removeCalls (h : s.RefsCounted)
    (sel : Option ServiceKey → Option (BitVec 8) → Bool) (stop : Bool) :
    (s.onPlay fun e p => p.removeCalls e sel stop).RefsCounted := h.onPlay fun e _ hp => hp.removeCalls e sel stop

theorem State.RefsCounted.callEvent (h : s.RefsCounted) (i : Fin 96) (ev : CallEvent) (changed : Bool) (platform : Nat)
    (platforms : List Nat) : (s.callEvent i ev changed platform platforms).RefsCounted := by
  unfold State.callEvent
  split
  · exact h
  · next r _ =>
    extract_lets u v
    have hu : u.RefsCounted := .ite (h.removeCalls _ _) h
    have hv : v.RefsCounted := hu.stateMatch ev r platform platforms
    exact .ite (hv.onCtb _) (State.RefsCounted.evaluate (.ite (hv.onCtb _) hv) i)

theorem State.RefsCounted.raise (h : s.RefsCounted) (i : Fin 96) (r : CallRec) (ev : CallEvent) (changed : Bool) :
    (s.raise i r ev changed).RefsCounted := (h.onCtb _).callEvent _ _ _ _ _

theorem State.RefsCounted.alterAway (h : s.RefsCounted) (i : Fin 96) (old new : CallRec) :
    (s.alterAway i old new).RefsCounted := (h.onCtb _).callEvent _ _ _ _ _

theorem State.RefsCounted.move (h : s.RefsCounted) (i : Fin 96) (old new : CallRec) :
    (s.move i old new).RefsCounted := (h.onCtb _).callEvent _ _ _ _ _

theorem State.RefsCounted.retime (h : s.RefsCounted) (i : Fin 96) (r : CallRec) : (s.retime i r).RefsCounted := by
  unfold State.retime
  extract_lets threshold
  exact .ite (h.raise _ _ _ _) ((h.onCtb _).evaluate i)

theorem State.RefsCounted.create (h : s.RefsCounted) (r : CallRec) : (s.create r).RefsCounted := by
  unfold State.create
  split
  · exact h.raise _ _ _ _
  · extract_lets u
    have hu : u.RefsCounted := h.fault _ _
    split
    · exact hu.onCtb _
    · exact ((hu.removeCalls _ _).onCtb _).raise _ _ _ _

theorem State.RefsCounted.ignoreFrame (h : s.RefsCounted) : s.ignoreFrame.RefsCounted :=
  h.of_eq rfl rfl

theorem State.RefsCounted.malformedCall (h : s.RefsCounted) : s.malformedCall.RefsCounted :=
  h.of_eq rfl rfl

theorem State.RefsCounted.applySet (h : s.RefsCounted) (kind : CallKind) (f : CallSetFrame) (fields : CallFields) :
    (s.applySet kind f fields).RefsCounted := by
  unfold State.applySet
  extract_lets covered
  split
  · exact .ite (h.create _) h
  · extract_lets new
    split
    · exact h.ignoreFrame
    · exact h.ignoreFrame
    · exact .ite (h.raise _ _ _ _) (h.onCtb _)
    · exact .ite (h.alterAway _ _ _) (.ite (h.move _ _ _) (.ite (h.onCtb _) (h.retime _ _)))

theorem State.RefsCounted.callSet (h : s.RefsCounted) (f : CallSetFrame) : (s.callSet f).RefsCounted := by
  unfold State.callSet
  split
  · exact h.malformedCall
  · refine .ite (h.malformedCall) ?_
    split
    · exact h.malformedCall
    · exact h.applySet _ _ _

theorem State.RefsCounted.callDelay (h : s.RefsCounted) (f : CallDelayFrame) : (s.callDelay f).RefsCounted := by
  unfold State.callDelay
  split
  · exact h.malformedCall
  · split
    · exact h
    · exact .ite h.ignoreFrame (.ite h (h.retime _ _))

theorem State.RefsCounted.applyPlatform (h : s.RefsCounted) (kind : CallKind) (f : CallPlatformFrame)
    (fields : Option CallFields) : (s.applyPlatform kind f fields).RefsCounted := by
  unfold State.applyPlatform
  extract_lets covered
  split
  · refine .ite h ?_
    split
    · exact h.create _
    · exact h.ignoreFrame
  · extract_lets new
    split
    · exact h.ignoreFrame
    · exact h.ignoreFrame
    · exact .ite (h.onCtb _) (.ite h.ignoreFrame (h.onCtb _))
    · exact .ite (h.alterAway _ _ _) (.ite h.ignoreFrame (h.move _ _ _))

theorem State.RefsCounted.callPlatform (h : s.RefsCounted) (f : CallPlatformFrame) :
    (s.callPlatform f).RefsCounted := by
  unfold State.callPlatform
  split
  · exact h.malformedCall
  · refine .ite (h.malformedCall) ?_
    split
    · exact h.applyPlatform _ _ _
    · split
      · exact h.malformedCall
      · exact h.applyPlatform _ _ _

theorem State.RefsCounted.callCancel (h : s.RefsCounted) (f : CallKeyFields) : (s.callCancel f).RefsCounted := by
  unfold State.callCancel
  split
  · exact h.malformedCall
  · split
    · exact h
    · split
      · exact h
      · exact h.ignoreFrame
      · exact h.ignoreFrame
      · exact h.raise _ _ _ _

/-! ### Berth inputs (R18 to R21) -/

theorem State.RefsCounted.takeLevel (h : s.RefsCounted) (l : BerthLine) (i : Fin 8) (level : Bool)
    {act : State → Nat → State} (hact : ∀ (t : State) (n : Nat), t.RefsCounted → (act t n).RefsCounted) :
    (s.takeLevel l i level act).RefsCounted := by
  unfold State.takeLevel
  extract_lets d u
  have hu : u.RefsCounted := h.onCtb _
  exact .ite (.ite (hu.foldl fun t n _ ht => hact t n ht) hu) h

theorem State.RefsCounted.approachPlatform (h : s.RefsCounted) (n : Nat) : (s.approachPlatform n).RefsCounted := by
  unfold State.approachPlatform
  split
  · exact h.raise _ _ _ _
  · exact h.onCtb _

theorem State.RefsCounted.occupyPlatform (h : s.RefsCounted) (n : Nat) : (s.occupyPlatform n).RefsCounted := by
  have hat : ∀ {t : State} (i : Fin 96) (r : CallRec), t.RefsCounted → (t.atPlatform i r).RefsCounted :=
    fun i r ht => ht.raise _ _ _ _
  unfold State.occupyPlatform
  split
  · next i r _ =>
    extract_lets u
    have hu : u.RefsCounted := hat i r h
    split
    · exact hu
    · split
      · exact .ite (hat _ _ hu) hu
      · exact hu
  · split
    · exact hat _ _ h
    · exact h.fault _ _

theorem State.RefsCounted.leavePlatform (h : s.RefsCounted) (n : Nat) (i : Fin 96) :
    (s.leavePlatform n i).RefsCounted := by
  unfold State.leavePlatform
  split
  · refine .ite ?_ h
    split
    · exact h.raise _ _ _ _
    · exact h.raise _ _ _ _
  · exact h

theorem State.RefsCounted.vacatePlatform (h : s.RefsCounted) (n : Nat) : (s.vacatePlatform n).RefsCounted :=
  h.foldl fun _ i _ ht => ht.leavePlatform n i

/-! ### The clock (R24, R25, R28 to R37) -/

theorem State.RefsCounted.settleQuiet (h : s.RefsCounted) : s.settleQuiet.RefsCounted := by
  unfold State.settleQuiet
  extract_lets level u
  have hu : u.RefsCounted := h.onSck _
  exact .ite h (.ite hu (hu.onPlay fun _ p hp => hp.same (.foldl (fun q o => .refuseAuto q o) _ p)))

theorem State.RefsCounted.wholeSecond (h : s.RefsCounted) : s.wholeSecond.RefsCounted :=
  (h.onSck _).evaluateAll.onPlay fun e p hp => hp.same (.surveySecond e p)

theorem State.RefsCounted.setTime (h : s.RefsCounted) (day : Day) (time : Nat) : (s.setTime day time).RefsCounted :=
  (h.onSck _).settleQuiet

theorem State.RefsCounted.secondAfter (h : s.RefsCounted) (old : Clock) : (s.secondAfter old).RefsCounted :=
  .ite h h.wholeSecond

theorem State.RefsCounted.sameDayBeacon (h : s.RefsCounted) (src time : Nat) :
    (s.sameDayBeacon src time).RefsCounted := by
  unfold State.sameDayBeacon
  extract_lets old offset hold
  have hheld : (hold s).RefsCounted := h.onSck _
  refine .ite ((h.setTime _ _).secondAfter _) ?_
  split
  · exact hheld
  · exact .ite (((h.setTime _ _).fault _ _).secondAfter _) hheld

theorem State.RefsCounted.otherDayBeacon (h : s.RefsCounted) (src : Nat) (day : Day) (time : Nat) :
    (s.otherDayBeacon src day time).RefsCounted := by
  unfold State.otherDayBeacon
  extract_lets old diff offset u v w
  have hu : u.RefsCounted := h.setTime _ _
  have hv : v.RefsCounted := .ite hu (hu.fault _ _)
  have hw : w.RefsCounted := State.RefsCounted.onPlay (hu.fault _ _) fun _ p hp => hp.same (.shiftInstants _ p)
  exact .ite (h.onSck _) (.ite (State.RefsCounted.secondAfter (hv.onCtb _) _)
    (State.RefsCounted.secondAfter ((hw.removeCalls _ _).onCtb _) _))

theorem State.RefsCounted.timeBeacon (h : s.RefsCounted) (src : Nat) (f : BeaconFrame) :
    (s.timeBeacon src f).RefsCounted := by
  unfold State.timeBeacon
  split
  · extract_lets u
    have hu : u.RefsCounted := h.onSck _
    refine .ite ?_ hu
    unfold State.sourceBeacon
    extract_lets old v
    have hv : v.RefsCounted := hu.onSck _
    exact .ite ((hv.setTime _ _).secondAfter _) (.ite (hv.sameDayBeacon _ _) (hv.otherDayBeacon _ _ _))
  · exact h

theorem State.RefsCounted.dayEnd (h : s.RefsCounted) : s.dayEnd.RefsCounted :=
  State.RefsCounted.wholeSecond ((h.onSck _).onCtb _)

theorem State.RefsCounted.holdover (h : s.RefsCounted) : s.holdover.RefsCounted := by
  unfold State.holdover
  exact (h.onSck _).fault _ _

end state

end Sys2Proof.Machine
end

section
/-! PROOFS. The counts of the bodies through the link, start-up, the maintenance requests and time, and that every step
keeps them (R39, R66, R69, R108). -/
namespace Sys2Proof.Machine

/-! ### The originations at the link (R106 to R113, R121) -/

theorem Peers.applyItem_length (id : AnnId) (src : Nat) (p : Peers) (i : ReportItem) :
    (p.applyItem id src i).table.length ≤ p.table.length := by
  unfold Peers.applyItem
  split
  · split
    · exact le_rfl
    · split
      · exact le_rfl
      · exact (List.length_map _).le
  · exact le_rfl

theorem Peers.zoneReport_length (own src : Nat) (f : ZoneReportFrame) (p : Peers) :
    (p.zoneReport own src f).table.length ≤ p.table.length := by
  unfold Peers.zoneReport
  extract_lets id
  split
  · exact le_rfl
  · split
    · exact le_rfl
    · exact (Peers.revise_length _ _ _).trans
        (foldl_le (measure := fun p : Peers => p.table.length) (Peers.applyItem_length id src) _ p)

theorem Peers.withdrawDone_length (own : Nat) (env : Envelope) (f : WithdrawDoneFrame) (p : Peers) :
    (p.withdrawDone own env f).table.length ≤ p.table.length := by
  unfold Peers.withdrawDone
  split <;> exact le_rfl

theorem Net.deadline_length (e : Env) (id : AnnId) (n : Net) :
    (n.deadline e id).pau.table.length ≤ n.pau.table.length := by
  unfold Net.deadline
  split
  · exact le_rfl
  · extract_lets owners m
    have hm : m.pau.table.length ≤ n.pau.table.length := (Peers.giveUp_length _ _ _).trans (Peers.revise_length _ _ _)
    exact (foldl_le (measure := fun n : Net => n.pau.table.length) (fun n a => n.report_length e _ a) _ m).trans hm

theorem Net.claimZone_length (e : Env) (src : Nat) (evac : Bool) (n : Net) (z : Nat) :
    (n.claimZone e src evac z).pau.table.length ≤ n.pau.table.length := by
  unfold Net.claimZone
  split
  · split
    · exact le_rfl
    · split
      · exact le_rfl
      · split
        · exact n.report_length e _ z
        · exact n.report_length e _ z
  · exact le_rfl

theorem Net.ownerBeacon_length (e : Env) (src : Nat) (f : BeaconFrame) (n : Net) :
    (n.ownerBeacon e src f).pau.table.length ≤ n.pau.table.length := by
  unfold Net.ownerBeacon
  split
  · exact le_rfl
  · extract_lets given own claimed
    have hgiven : given.pau.table.length ≤ n.pau.table.length := by
      rw [Net.onPau_pau]
    clear_value given
    have hclaimed : claimed.pau.table.length ≤ given.pau.table.length :=
      foldl_le (measure := fun n : Net => n.pau.table.length) (fun n z => n.report_length e _ z) _ given
    exact (foldl_le (measure := fun n : Net => n.pau.table.length) (Net.claimZone_length e src f.evacActive) _
      claimed).trans (hclaimed.trans hgiven)

theorem Net.frameSent_length (e : Env) (n : Net) : (n.frameSent e).pau.table.length ≤ n.pau.table.length := by
  unfold Net.frameSent
  split
  · exact le_rfl
  · extract_lets l m
    split
    · exact (List.length_map _).le
    · exact le_rfl

theorem Net.beaconDue_length (e : Env) (n : Net) : (n.beaconDue e).pau.table.length ≤ n.pau.table.length := by
  unfold Net.beaconDue
  extract_lets l m
  split
  · exact le_rfl
  · exact m.enqueue_length e _

section state
variable {s : State}

/-! ### Start-up (R75, R105, R125, R186 to R191) -/

theorem triggerClass_ne_evac (code : Nat) : (triggerClass code).1 ≠ .evac := by
  unfold triggerClass
  split
  · nofun
  · split
    · nofun
    · split <;> nofun

theorem takeImage_noEvacTrigger (l : List Nat) : (takeImage l).1.NoEvacTrigger := by
  intro t ht
  obtain ⟨x, hx, rfl⟩ := List.mem_map.mp ht
  obtain ⟨k, _, rfl⟩ := List.mem_map.mp hx
  exact triggerClass_ne_evac _

/-- An image that is accepted names no trigger of class EVAC: the class was brought into range (R187). -/
theorem loadImage_noEvacTrigger {bytes : Option (List Byte)} {image : Image} {n : Nat}
    (h : loadImage bytes = .accepted image n) : image.NoEvacTrigger := by
  unfold loadImage at h
  split at h
  · cases h
  · dsimp only at h
    split_ifs at h
    cases h
    exact takeImage_noEvacTrigger _

/-- What a configuration load settles names no trigger of class EVAC (R187). -/
def ConfigResult.NoEvac (r : ConfigResult) : Prop :=
  ∀ (i : Image) (n : Nat), r = .accepted i n → i.NoEvacTrigger

theorem State.RefsCounted.onCfl (h : s.RefsCounted) {f : Loader → Loader} (hf : (f s.cfl).NoEvac) :
    (s.onCfl f).RefsCounted := Play.Settled.refsCounted (s := s.onCfl f) h.settled hf

theorem State.RefsCounted.enterRunning (h : s.RefsCounted) {image : Image} (himage : image.NoEvacTrigger) (n : Nat) :
    (s.enterRunning image n).RefsCounted := by
  unfold State.enterRunning
  extract_lets u v w
  have hu : u.RefsCounted := h.onCfl ⟨fun i hi => by cases hi; exact himage, h.noEvacTrigger.2⟩
  have hw : w.RefsCounted := (hu.onTgu _).onPlay fun e _ hp => hp.start e image.lock
  exact hw.settleQuiet

theorem State.RefsCounted.leaveLoading (h : s.RefsCounted) : s.leaveLoading.RefsCounted := by
  rcases s.leaveLoading_cases with ⟨image, n, _, _, hconfig, e⟩ | ⟨cause, _, _, _, e⟩ | ⟨_, e⟩ <;> rw [e]
  · exact h.enterRunning (h.noEvacTrigger.2 image n hconfig) n
  · exact (h.onCfl (f := fun c => { c with load := .unconfigured }) h.noEvacTrigger).fault _ _
  · exact h

theorem State.RefsCounted.settleHeader (h : s.RefsCounted) (header : Option LibHeader) :
    (s.settleHeader header).RefsCounted := by
  unfold State.settleHeader
  split
  · refine State.RefsCounted.leaveLoading (State.RefsCounted.onPlay ?_ fun _ p hp => ?_)
    · exact h.onCfl (f := fun c => { c with headerDone := true }) h.noEvacTrigger
    · exact (hp.same (.onCfu p _)).same (.grantPort _)
  · exact h

theorem State.RefsCounted.settleConfig (h : s.RefsCounted) {r : ConfigResult} (hr : r.NoEvac) :
    (s.settleConfig r).RefsCounted := by
  unfold State.settleConfig
  refine .ite (State.RefsCounted.leaveLoading ?_) h
  exact h.onCfl (f := fun c => { c with config := some r })
    ⟨h.noEvacTrigger.1, fun i n hi => hr i n (Option.some.inj hi)⟩

/-- After a power-on reset no body is held and no entry queued (R188). -/
theorem State.powerOn_refsCounted (s : State) : s.powerOn.RefsCounted := by
  have hreset : Play.reset.Settled := State.reset_refsCounted.settled
  exact Play.Settled.refsCounted (s := s.powerOn) (hreset.same (.of_blocks rfl rfl rfl))
    State.reset_refsCounted.noEvacTrigger

theorem State.RefsCounted.restartBlocks (h : s.RefsCounted) : s.restartBlocks.RefsCounted := by
  unfold State.restartBlocks
  refine State.RefsCounted.onPlay ?_ fun e _ hp => hp.restart e
  exact State.RefsCounted.onCfl ((h.onCtb _).onTgu _) h.noEvacTrigger

/-! ### Maintenance requests (R195, R197, R198) -/

theorem Settled.reply_refsCounted {r : Settled} (h : r.state.RefsCounted) (head : MaintHead) (code : Nat) :
    (r.reply head code).RefsCounted := by
  unfold Settled.reply
  exact h.onNet fun e n => Net.enqueue_length e _ { n with flt := n.flt.countReply r.refused }

/-- A request whose settling keeps the counts keeps them. -/
theorem State.RefsCounted.maint (h : s.RefsCounted) {settle : State → Settled}
    (hsettle : ∀ t : State, t.RefsCounted → (settle t).state.RefsCounted) (head : MaintHead) (code : Nat) :
    (s.maint head code settle).RefsCounted :=
  h.receive _ _ fun t ht => ht.whenRunning (.ite ht (Settled.reply_refsCounted (hsettle t ht) head code))

/-- A query keeps the counts. -/
theorem State.RefsCounted.query (h : s.RefsCounted) {settle : State → Settled} (hsettle : ∀ t, (settle t).state = t)
    (head : MaintHead) (code : Nat) : (s.maint head code settle).RefsCounted :=
  h.maint (fun t ht => by rw [hsettle]; exact ht) head code

theorem State.RefsCounted.onFlt (h : s.RefsCounted) (f : FaultLog → FaultLog) : (s.onFlt f).RefsCounted :=
  h.onNet (f := fun _ n => { n with flt := f n.flt }) fun _ _ => le_rfl

theorem State.RefsCounted.settleClearFault (h : s.RefsCounted) (args : List Byte) :
    (settleClearFault args s).state.RefsCounted := by
  unfold Sys2Proof.Machine.settleClearFault
  split
  · split
    · next hi => exact h.onFlt fun f => f.clearOne ⟨_, hi⟩
    · split
      · exact h.onFlt FaultLog.clearAll
      · exact h
  · exact h

theorem State.RefsCounted.settleSurveyStart (h : s.RefsCounted) (args : List Byte) :
    (settleSurveyStart args s).state.RefsCounted := by
  refine withOutput_keeps args h fun o => ?_
  split
  · exact h
  · split
    · exact h.onPlay fun e p hp => hp.same (.beginSurvey e o _ p)
    · exact h.onPlay fun _ p hp => hp.same (.onSurveyCounts p _)

theorem State.RefsCounted.settleSurveyAbort (h : s.RefsCounted) (args : List Byte) :
    (settleSurveyAbort args s).state.RefsCounted :=
  withOutput_keeps args h fun o => h.onPlay fun e p hp => hp.same (.abortSurvey e o _ p)

theorem State.RefsCounted.settleLimitSet (h : s.RefsCounted) (args : List Byte) :
    (settleLimitSet args s).state.RefsCounted := by
  unfold Sys2Proof.Machine.settleLimitSet
  dsimp only
  split
  · split
    · exact h
    · split
      · exact h
      · exact h.onPlay fun _ p hp => hp.same (.onLine p _ _)
  · exact h

theorem State.RefsCounted.settleLimitLock (h : s.RefsCounted) (args : List Byte) :
    (settleLimitLock args s).state.RefsCounted :=
  withNone_keeps args h (h.onPlay fun _ p hp => hp.same (.onLsu p _))

theorem State.RefsCounted.settleRestart (h : s.RefsCounted) (args : List Byte) :
    (settleRestart args s).state.RefsCounted := by
  refine withNone_keeps args h ?_
  split
  · exact h
  · exact h.onLki fun l => { l with queue := [] }

theorem State.RefsCounted.restartRequest (h : s.RefsCounted) (head : MaintHead) (args : List Byte) :
    (s.restartRequest head args).RefsCounted := by
  refine h.receive _ _ fun t ht => ht.whenRunning (.ite ht ?_)
  have hreply := Settled.reply_refsCounted (ht.settleRestart args) head 0x40
  exact .ite hreply.restartBlocks hreply

/-! ### Frames and time (R27, R143, R179, R180) -/

theorem State.RefsCounted.gapReached (h : s.RefsCounted) (idle : Nat) : (s.gapReached idle).RefsCounted := by
  unfold State.gapReached
  refine h.onPlay fun e p hp => hp.same (.onNet (fun n => ?_) p)
  dsimp only
  split
  · exact le_rfl
  · split
    · split <;> exact le_rfl
    · exact le_rfl

theorem State.RefsCounted.discard (h : s.RefsCounted) (raw : List Byte) : (s.discard raw).RefsCounted := by
  unfold State.discard
  split
  · exact h
  · exact (h.onLki _).onLki _

theorem State.RefsCounted.tick (h : s.RefsCounted) : s.tick.RefsCounted :=
  Play.Settled.refsCounted (s := s.tick) (h.settled.same (.of_blocks rfl rfl rfl)) h.noEvacTrigger

theorem State.RefsCounted.idle (h : s.RefsCounted) : s.idle.RefsCounted := by
  unfold State.idle
  split
  · exact h.of_eq rfl rfl
  · exact h.tick

/-! ### The commands -/

/-- Every command keeps the counts. -/
theorem exec_keeps_refsCounted (i : Instr) (h : s.RefsCounted) : ∃ t, exec i s = .next t ∧ t.RefsCounted := by
  cases i with
  | powerOnReset => exact ⟨_, rfl, s.powerOn_refsCounted⟩
  | headerReadComplete r => exact ⟨_, rfl, (h.settleHeader r).finish⟩
  | headerReadTimeout => exact ⟨_, rfl, (h.when _ (h.settleHeader none)).finish⟩
  | configReadComplete r => exact ⟨_, rfl, (h.settleConfig fun _ _ => loadImage_noEvacTrigger).finish⟩
  | configLoadTimeout => exact ⟨_, rfl, (h.when _ (h.settleConfig fun _ _ hr => by cases hr)).finish⟩
  | frameDiscard raw => exact ⟨_, rfl, (h.discard raw).finish⟩
  | beacon env f =>
    refine ⟨_, rfl, (h.receive _ _ fun t ht => ?_).finish⟩
    have hbeacon := ht.timeBeacon env.src f
    exact hbeacon.whenRunning (hbeacon.onNet fun e n => n.ownerBeacon_length e env.src f)
  | callSet env f => exact ⟨_, rfl, (h.receive _ _ fun _ ht => ht.whenRunning (ht.callSet f)).finish⟩
  | callDelay env f => exact ⟨_, rfl, (h.receive _ _ fun _ ht => ht.whenRunning (ht.callDelay f)).finish⟩
  | callPlatform env f => exact ⟨_, rfl, (h.receive _ _ fun _ ht => ht.whenRunning (ht.callPlatform f)).finish⟩
  | callCancel env f => exact ⟨_, rfl, (h.receive _ _ fun _ ht => ht.whenRunning (ht.callCancel f)).finish⟩
  | announce env f =>
    exact ⟨_, rfl, (h.receive _ _ fun _ ht => ht.whenRunning
      (ht.onPlay fun e _ hp => Play.Settled.announce e env f hp)).finish⟩
  | zoneReport env f =>
    exact ⟨_, rfl, (h.receive _ _ fun _ ht => ht.whenRunning
      (ht.onNet fun e n => n.pau.zoneReport_length e.own env.src f)).finish⟩
  | withdraw env f =>
    exact ⟨_, rfl, (h.receive _ _ fun _ ht => ht.whenRunning (ht.onPlay fun e _ hp => hp.withdraw e env f)).finish⟩
  | withdrawDone env f =>
    exact ⟨_, rfl, (h.receive _ _ fun _ ht => ht.whenRunning
      (ht.onNet fun e n => n.pau.withdrawDone_length e.own env f)).finish⟩
  | faultNoticeReceived | maintReplyReceived => exact ⟨_, rfl, (h.receive _ _ fun _ ht => ht).finish⟩
  | queryCall _ args => exact ⟨_, rfl, (h.query (settleQueryCall_state args) _ _).finish⟩
  | queryZone _ args => exact ⟨_, rfl, (h.query (settleQueryZone_state args) _ _).finish⟩
  | queryFault _ args => exact ⟨_, rfl, (h.query (settleQueryFault_state args) _ _).finish⟩
  | querySurvey _ args => exact ⟨_, rfl, (h.query (settleQuerySurvey_state args) _ _).finish⟩
  | queryCounters _ args => exact ⟨_, rfl, (h.query (settleQueryCounters_state args) _ _).finish⟩
  | maintRequestUnknown => exact ⟨_, rfl, (h.query (fun _ => rfl) _ _).finish⟩
  | clearFault _ args => exact ⟨_, rfl, (h.maint (fun _ ht => ht.settleClearFault args) _ _).finish⟩
  | surveyStart _ args => exact ⟨_, rfl, (h.maint (fun _ ht => ht.settleSurveyStart args) _ _).finish⟩
  | surveyAbort _ args => exact ⟨_, rfl, (h.maint (fun _ ht => ht.settleSurveyAbort args) _ _).finish⟩
  | limitSet _ args => exact ⟨_, rfl, (h.maint (fun _ ht => ht.settleLimitSet args) _ _).finish⟩
  | limitLock _ args => exact ⟨_, rfl, (h.maint (fun _ ht => ht.settleLimitLock args) _ _).finish⟩
  | restart head args => exact ⟨_, rfl, (h.restartRequest head args).finish⟩
  | linkFrameBegin => exact ⟨_, rfl, h.onLki _⟩
  | transmitGapReached idle => exact ⟨_, rfl, h.gapReached idle⟩
  | frameSent => exact ⟨_, rfl, h.onNet Net.frameSent_length⟩
  | beaconDue => exact ⟨_, rfl, h.when _ (h.onNet Net.beaconDue_length)⟩
  | stationDayEnd => exact ⟨_, rfl, (h.when _ h.dayEnd).finish⟩
  | wholeSecond => exact ⟨_, rfl, (h.when _ h.wholeSecond).finish⟩
  | heardEntryExpire => exact ⟨_, rfl, h.when _ (h.onSck _)⟩
  | holdoverTimeout => exact ⟨_, rfl, h.when _ h.holdover⟩
  | quietHoursChange => exact ⟨_, rfl, h.settleQuiet⟩
  | ownerEntryExpire => exact ⟨_, rfl, h.onNet fun _ _ => le_rfl⟩
  | reportDeadline id => exact ⟨_, rfl, h.when _ (h.onNet fun e n => n.deadline_length e id)⟩
  | originationExpire id => exact ⟨_, rfl, h.when _ (h.onNet fun _ n => n.pau.giveUp_length id _)⟩
  | berthInputChange => exact ⟨_, rfl, h.onCtb _⟩
  | approachAssert i => exact ⟨_, rfl, (h.takeLevel _ _ _ fun _ n ht => ht.approachPlatform n).finish⟩
  | approachClear i => exact ⟨_, rfl, h.takeLevel _ _ _ fun _ _ ht => ht⟩
  | occupancyAssert i => exact ⟨_, rfl, (h.takeLevel _ _ _ fun _ n ht => ht.occupyPlatform n).finish⟩
  | occupancyClear i => exact ⟨_, rfl, (h.takeLevel _ _ _ fun _ n ht => ht.vacatePlatform n).finish⟩
  | retireSecond => exact ⟨_, rfl, h.when _ (h.onCtb _)⟩
  | syncStartReached id => exact ⟨_, rfl, (h.onPlay fun e p hp => hp.same (.syncStart e id p)).finish⟩
  | blockReadComplete r => exact ⟨_, rfl, (h.onPlay fun e p hp => hp.same (.blockRead e r p)).finish⟩
  | directoryReadComplete r => exact ⟨_, rfl, (h.onPlay fun e p hp => hp.same (.directoryRead e r p)).finish⟩
  | channelStart c => exact ⟨_, rfl, (h.onPlay fun e p hp => hp.same (.channelStart e c p)).finishBoundary⟩
  | channelBlockAdvance c => exact ⟨_, rfl, (h.onPlay fun e p hp => hp.same (.blockAdvance e c p)).finishBoundary⟩
  | passEnd c => exact ⟨_, rfl, (h.onPlay fun e _ hp => hp.passEnd e c).finishBoundary⟩
  | stopPointReached c => exact ⟨_, rfl, (h.onPlay fun e _ hp => hp.stopPoint e c).finishBoundary⟩
  | expiryReached id => exact ⟨_, rfl, (h.onPlay fun e _ hp => hp.dropAllWaiting e _ _).finish⟩
  | syncWindowClose id => exact ⟨_, rfl, (h.onPlay fun e _ hp => hp.dropAllWaiting e _ _).finish⟩
  | windowEnd sums => exact ⟨_, rfl, (h.when _ (h.onPlay fun e p hp => hp.same (.windowEnd e sums p))).finishBoundary⟩
  | supervisionWord o w => exact ⟨_, rfl, (h.onPlay fun e _ hp => hp.supervisionWord e o w).finish⟩
  | supervisionCycleEnd => exact ⟨_, rfl, (h.when _ (h.onPlay fun e _ hp => hp.cycleEnd e)).finish⟩
  | autoSurveyRetry o => exact ⟨_, rfl, (h.when _ (h.onPlay fun e p hp => hp.same (.retryAuto e o p))).finish⟩
  | probeChannelTimeout o => exact ⟨_, rfl, (h.when _ (h.onPlay fun e p hp => hp.same (.abortSurvey e o _ p))).finish⟩
  | evacInputChange => exact ⟨_, rfl, h.onPlay fun _ p hp => hp.same (.onEvl p _)⟩
  | evacAssert => exact ⟨_, rfl, (h.when _ (h.onPlay fun e _ hp => hp.assertEvac e)).finish⟩
  | evacRelease => exact ⟨_, rfl, (h.when _ (h.onPlay fun e _ hp => hp.releaseEvac e)).finish⟩

end state

/-- Settles O59: each command and each idle step keeps the counts of the bodies. -/
theorem refsStayCounted : Obligations.RefsStayCounted := by
  intro s t h hstep
  unfold step at hstep
  split at hstep
  · next i rest _ =>
    have hrest : State.RefsCounted { s with pending := rest } := h.of_eq rfl rfl
    obtain ⟨u, hu, hcounted⟩ := exec_keeps_refsCounted i hrest
    cases hu.symm.trans hstep
    exact hcounted
  · cases hstep
    exact h.idle

end Sys2Proof.Machine
end

section
/-! PROOFS. Composition: the fitting of an expansion to 24 segments (R57, R63, R64), the phrase-id checks (R65), and the
runs of the segments (R127, R128). -/
namespace Sys2Proof.Machine

/-! ### The cut form (R63) -/

/-- A cut is found where it fits and every greater one does not. -/
theorem largestCut_eq_some_iff {fits : Nat → Bool} {n k : Nat} :
    largestCut fits n = some k ↔ k < n ∧ fits k = true ∧ ∀ j, k < j → j < n → fits j = false := by
  induction n with
  | zero => simp [largestCut]
  | succ n ih =>
    unfold largestCut
    cases hn : fits n with
    | true =>
      rw [if_pos rfl, Option.some.injEq]
      constructor
      · rintro rfl
        exact ⟨Nat.lt_succ_self n, hn, fun j hj hlt => absurd (Nat.le_of_lt_succ hlt) (Nat.not_le.mpr hj)⟩
      · rintro ⟨hk, _, hgreater⟩
        by_contra hne
        have hlt : k < n := Nat.lt_of_le_of_ne (Nat.le_of_lt_succ hk) (Ne.symm hne)
        rw [hgreater n hlt (Nat.lt_succ_self n)] at hn
        cases hn
    | false =>
      rw [if_neg Bool.false_ne_true, ih]
      constructor
      · rintro ⟨hk, hfits, hgreater⟩
        refine ⟨Nat.lt_succ_of_lt hk, hfits, fun j hj hlt => ?_⟩
        rcases Nat.lt_succ_iff_lt_or_eq.mp hlt with hlt | rfl
        · exact hgreater j hj hlt
        · exact hn
      · rintro ⟨hk, hfits, hgreater⟩
        have hne : k ≠ n := fun h => by rw [h, hn] at hfits; cases hfits
        exact ⟨Nat.lt_of_le_of_ne (Nat.le_of_lt_succ hk) hne, hfits,
          fun j hj hlt => hgreater j hj (Nat.lt_succ_of_lt hlt)⟩

/-- No cut is found exactly where none fits. -/
theorem largestCut_eq_none_iff {fits : Nat → Bool} {n : Nat} :
    largestCut fits n = none ↔ ∀ k, k < n → fits k = false := by
  induction n with
  | zero => simp [largestCut]
  | succ n ih =>
    unfold largestCut
    cases hn : fits n with
    | true =>
      rw [if_pos rfl]
      exact ⟨nofun, fun h => by rw [h n (Nat.lt_succ_self n)] at hn; cases hn⟩
    | false =>
      rw [if_neg Bool.false_ne_true, ih]
      refine ⟨fun h k hk => ?_, fun h k hk => h k (Nat.lt_succ_of_lt hk)⟩
      rcases Nat.lt_succ_iff_lt_or_eq.mp hk with hk | rfl
      · exact h k hk
      · exact hn

/-- The template renders the calling points of a call (R62). -/
def listsPoints (r : CallRec) (t : List Element) : Bool :=
  (t.filter fun el => el.passes (some r)).any fun el => el.kind = .field .callingPoints

/-- Only the field of the calling points is rendered by their form (R62, R63). -/
theorem elementSegments_form {el : Element} (h : el.kind ≠ .field .callingPoints) (b : PhraseBases) (day : Nat)
    (form form' : PointsForm) (snap : Option CallRec) :
    elementSegments b day form snap el = elementSegments b day form' snap el := by
  unfold elementSegments
  cases hkind : el.kind with
  | field f =>
    cases f with
    | callingPoints => exact absurd hkind h
    | _ => rfl
  | _ => rfl

/-- A template that renders no calling points expands alike in every form. -/
theorem expandAs_of_not_listed {r : CallRec} {t : List Element} (h : listsPoints r t = false) (b : PhraseBases)
    (day : Nat) (form form' : PointsForm) : expandAs b day form (some r) t = expandAs b day form' (some r) t := by
  unfold expandAs
  simp only [List.flatMap_def]
  refine congrArg _ (List.map_congr_left fun el hel => elementSegments_form (fun hkind => ?_) b day form form' (some r))
  rw [listsPoints, List.any_eq_false] at h
  exact h el hel (decide_eq_true hkind)

/-! ### Fitting (R63, R64) -/

/-- The fitted expansion, case by case: in full, cut to the largest number of calling points that fits, or cut after its
24th segment with the calling points cut to none or without a cut form. -/
theorem fitTemplate_cases (b : PhraseBases) (day : Nat) (r : CallRec) (t : List Element) :
    ((expandAs b day .full (some r) t).length ≤ 24 ∧
      fitTemplate b day r t = ⟨expandAs b day .full (some r) t, false, false⟩) ∨
    (24 < (expandAs b day .full (some r) t).length ∧ listsPoints r t = true ∧
      ((∃ k, largestCut (fun k => (expandAs b day (.cut k) (some r) t).length ≤ 24) r.points.length = some k ∧
          fitTemplate b day r t = ⟨expandAs b day (.cut k) (some r) t, true, false⟩) ∨
        (24 < (expandAs b day (.cut 0) (some r) t).length ∧
          largestCut (fun k => (expandAs b day (.cut k) (some r) t).length ≤ 24) r.points.length = none ∧
          fitTemplate b day r t = ⟨(expandAs b day (.cut 0) (some r) t).take 24, true, true⟩))) ∨
    (24 < (expandAs b day .full (some r) t).length ∧ (listsPoints r t = false ∨ r.points = []) ∧
      fitTemplate b day r t = ⟨(expandAs b day .full (some r) t).take 24, false, true⟩) := by
  unfold fitTemplate
  extract_lets render listed
  split
  · next hfull => exact Or.inl ⟨hfull, rfl⟩
  · next hfull =>
    refine Or.inr ?_
    split
    · next hlisted =>
      rw [Bool.and_eq_true, Bool.not_eq_true'] at hlisted
      obtain ⟨hlists, hpoints⟩ := hlisted
      refine Or.inl ⟨Nat.lt_of_not_le hfull, hlists, ?_⟩
      split
      · next k hk => exact Or.inl ⟨k, hk, rfl⟩
      · next hnone =>
        have hpos : 0 < r.points.length := List.length_pos_iff.mpr fun h => by rw [h] at hpoints; cases hpoints
        have h0 := largestCut_eq_none_iff.mp hnone 0 hpos
        exact Or.inr ⟨Nat.lt_of_not_le (of_decide_eq_false h0), hnone, rfl⟩
    · next hnot =>
      refine Or.inr ⟨Nat.lt_of_not_le hfull, ?_, rfl⟩
      rw [Bool.not_eq_true, Bool.and_eq_false_iff] at hnot
      rcases hnot with hnot | hnot
      · exact Or.inl hnot
      · exact Or.inr (by simpa using hnot)

theorem fitTemplate_length_le (b : PhraseBases) (day : Nat) (r : CallRec) (t : List Element) :
    (fitTemplate b day r t).segs.length ≤ 24 := by
  rcases fitTemplate_cases b day r t with ⟨hfull, h⟩ | ⟨_, _, ⟨k, hk, h⟩ | ⟨_, _, h⟩⟩ | ⟨_, _, h⟩ <;> rw [h]
  · exact hfull
  · obtain ⟨_, hfits, _⟩ := largestCut_eq_some_iff.mp hk
    exact of_decide_eq_true hfits
  · exact List.length_take_le _ _
  · exact List.length_take_le _ _

theorem fitTemplate_of_fits {b : PhraseBases} {day : Nat} {r : CallRec} {t : List Element}
    (hfits : (expandAs b day .full (some r) t).length ≤ 24) :
    fitTemplate b day r t = ⟨expandAs b day .full (some r) t, false, false⟩ := if_pos hfits

/-- An overflow leaves exactly 24 segments (R64). -/
theorem fitTemplate_length_of_overflow {b : PhraseBases} {day : Nat} {r : CallRec} {t : List Element}
    (hover : (fitTemplate b day r t).overflow = true) : (fitTemplate b day r t).segs.length = 24 := by
  rcases fitTemplate_cases b day r t with ⟨_, h⟩ | ⟨_, _, ⟨k, _, h⟩ | ⟨hcut, _, h⟩⟩ | ⟨hfull, _, h⟩ <;>
    rw [h] at hover ⊢
  · cases hover
  · cases hover
  · exact List.length_take_of_le hcut.le
  · exact List.length_take_of_le hfull.le

/-- Where the full expansion does not fit and a cut form does, the body takes the greatest cut that fits (R63). -/
theorem fitTemplate_of_cut {b : PhraseBases} {day : Nat} {r : CallRec} {t : List Element} {k : Nat}
    (hfull : 24 < (expandAs b day .full (some r) t).length) (hk : k < r.points.length)
    (hfits : (expandAs b day (.cut k) (some r) t).length ≤ 24)
    (hgreater : ∀ j, k < j → j < r.points.length → 24 < (expandAs b day (.cut j) (some r) t).length) :
    fitTemplate b day r t = ⟨expandAs b day (.cut k) (some r) t, true, false⟩ := by
  have hlargest : largestCut (fun k => (expandAs b day (.cut k) (some r) t).length ≤ 24) r.points.length = some k :=
    largestCut_eq_some_iff.mpr ⟨hk, decide_eq_true hfits, fun j hj hlt =>
      decide_eq_false (Nat.not_le.mpr (hgreater j hj hlt))⟩
  rcases fitTemplate_cases b day r t with ⟨hle, _⟩ | ⟨_, _, ⟨j, hj, h⟩ | ⟨_, hnone, _⟩⟩ | ⟨_, hnot, _⟩
  · exact absurd hfull (Nat.not_lt.mpr hle)
  · rw [hlargest] at hj
    cases hj
    exact h
  · rw [hlargest] at hnone
    cases hnone
  · rcases hnot with hnot | hnil
    · rw [expandAs_of_not_listed hnot b day .full (.cut k)] at hfull
      exact absurd hfull (Nat.not_lt.mpr hfits)
    · rw [hnil] at hk
      cases hk

/-! ### The phrase-id checks (R65) -/

theorem reservedFor_eq_true_iff {cls : AnnClass} {id : Nat} :
    reservedFor cls id = true ↔ (4032 ≤ id ∧ id ≤ 4095) ∧ (cls = .service ∨ cls = .info) := by
  simp [reservedFor]

/-- What a checked segment names is within the range of its class. -/
theorem checkSegment_phraseId {cls : AnnClass} {s : Segment} {id : Nat} (h : (checkSegment cls s).phraseId = some id) :
    id ≤ 4095 ∧ (cls = .service ∨ cls = .info → id < 4032) := by
  unfold checkSegment at h
  split at h
  · next named hnamed =>
    split at h
    · cases h
    · next hkept =>
      rw [hnamed] at h
      cases h
      rw [Bool.or_eq_true, decide_eq_true_eq, reservedFor_eq_true_iff] at hkept
      exact ⟨by omega, fun hcls => by by_contra hlt; exact hkept (Or.inr ⟨by omega, hcls⟩)⟩
  · next hnone =>
    rw [hnone] at h
    cases h

/-- A segment whose phrase is within 0..4095 passes the checks of ALERT and EVAC as it is. -/
theorem checkSegment_of_allowed {cls : AnnClass} (hcls : cls = .alert ∨ cls = .evac) {s : Segment}
    (h : ∀ id, s.phraseId = some id → id ≤ 4095) : checkSegment cls s = s := by
  unfold checkSegment
  split
  · next id hid =>
    refine if_neg fun hrefused => ?_
    rw [Bool.or_eq_true, decide_eq_true_eq, reservedFor_eq_true_iff] at hrefused
    rcases hrefused with hbeyond | ⟨_, hreserved⟩
    · exact absurd (h id hid) (Nat.not_le.mpr hbeyond)
    · rcases hcls with rfl | rfl <;> rcases hreserved with hc | hc <;> cases hc
  · rfl

/-! ### Runs (R127, R128) -/

theorem ceilDiv_two (n : Nat) : ceilDiv n 2 = (n + 1) / 2 := rfl

theorem ceilDiv_eight (n : Nat) : ceilDiv n 8 = (n + 7) / 8 := rfl

/-- Settles O12: the fitting case by case, the checks segment by segment, and the runs of each kind. -/
theorem bodiesFit : Obligations.BodiesFit := by
  unfold Obligations.BodiesFit
  refine ⟨⟨⟨fun b day r t => ⟨fitTemplate_length_le b day r t, fitTemplate_of_fits, fitTemplate_length_of_overflow⟩,
    fun b day r t k => fitTemplate_of_cut⟩, fun cls l => ⟨fun s hs id hid => ?_, List.length_map _, ?_⟩⟩,
    fun id r sec n d => ⟨rfl, rfl, ?_, rfl, rfl, ?_, rfl, rfl, rfl⟩⟩
  · obtain ⟨s, _, rfl⟩ := List.mem_map.mp hs
    exact checkSegment_phraseId hid
  · exact fun hcls s _ hallowed => checkSegment_of_allowed hcls hallowed
  · exact ceilDiv_two (125 * sec)
  · exact congrArg (fun blocks => (⟨blocks, blocks, 1, none⟩ : Run)) (ceilDiv_eight (25 * n))

end Sys2Proof.Machine
end

section
/-! PROOFS. An ANNOUNCE refused whole (R115, R124): what it counts and reports, and that the zones and the body store
stand. -/
namespace Sys2Proof.Machine

/-- A good ANNOUNCE that the part takes is settled by the Peer Announcement Unit. -/
theorem exec_announce_of_takes {s : State} {env : Envelope} (h : s.TakesFrame env) {f : AnnounceFrame}
    (hok : announceOk env.src f = true) :
    exec (.announce env f) s = .next (s.tookGood.onPlay fun e p => p.announce e env f).finish := by
  simp only [exec, execAnnounce, hok, State.receive_takes _ h]

/-! ### The counts of the arrivals (R124) -/

/-- The counts of the announcements received and of the refusals of R115 are the same. -/
structure Net.SameArrivals (n m : Net) : Prop where
  received : m.pau.counts.announceReceived = n.pau.counts.announceReceived
  mismatched : m.pau.counts.libraryMismatch = n.pau.counts.libraryMismatch
  evacuated : m.pau.counts.evacActive = n.pau.counts.evacActive

theorem Net.SameArrivals.refl (n : Net) : n.SameArrivals n := ⟨rfl, rfl, rfl⟩

theorem Net.SameArrivals.trans {n m k : Net} (h : n.SameArrivals m) (g : m.SameArrivals k) : n.SameArrivals k :=
  ⟨g.received.trans h.received, g.mismatched.trans h.mismatched, g.evacuated.trans h.evacuated⟩

theorem Net.SameArrivals.frameDropped (n : Net) (f : TxFrame) : n.SameArrivals (n.frameDropped f) := by
  unfold Net.frameDropped
  split
  · unfold Peers.unsentAnnounce Peers.giveUp
    rw [Net.onPau]
    split <;> exact ⟨rfl, rfl, rfl⟩
  · exact .refl n

theorem Net.SameArrivals.enqueue (e : Env) (f : TxFrame) (n : Net) : n.SameArrivals (Net.enqueue e f n) := by
  rcases Net.enqueue_cases e f n with ⟨_, h⟩ | ⟨_, _, h⟩ | ⟨_, _, g, _, h⟩ <;> rw [h]
  · exact .refl n
  · exact ⟨rfl, rfl, rfl⟩
  · refine Net.SameArrivals.trans ?_ (Net.SameArrivals.frameDropped _ g)
    exact ⟨rfl, rfl, rfl⟩

theorem Net.SameArrivals.report (e : Env) (k : FaultKind) (source : Nat) (n : Net) :
    n.SameArrivals (Net.report e k source n) := by
  rcases Net.report_cases e k source n with ⟨_, _, _, _, _, _, h⟩ | ⟨_, _, _, _, _, hidle, hrunning⟩ | ⟨_, _, h⟩
  · rw [h]
    exact ⟨rfl, rfl, rfl⟩
  · cases hr : e.running with
    | true =>
      rw [hrunning hr]
      refine Net.SameArrivals.trans ?_ (Net.SameArrivals.enqueue e _ _)
      exact ⟨rfl, rfl, rfl⟩
    | false =>
      rw [hidle hr]
      exact ⟨rfl, rfl, rfl⟩
  · rw [h]
    exact ⟨rfl, rfl, rfl⟩

theorem Net.SameArrivals.sendReport (e : Env) (items : List ReportedOutcome) (n : Net) :
    n.SameArrivals (n.sendReport e items) := by
  unfold Net.sendReport
  split
  · exact .refl n
  · refine Net.SameArrivals.trans ?_ (Net.SameArrivals.enqueue e _ _)
    exact ⟨rfl, rfl, rfl⟩

theorem Net.SameArrivals.reportAll (e : Env) (l : List ReportedOutcome) (n : Net) :
    n.SameArrivals (n.reportAll e l) :=
  List.foldlRecOn (motive := fun m => n.SameArrivals m) _ _ (.refl n) fun _ hm g _ => hm.trans (.sendReport e g _)

theorem Net.SameArrivals.flush (e : Env) (n : Net) : n.SameArrivals (n.flush e) :=
  Net.SameArrivals.trans (m := n.onPau fun p => { p with outbox := [] }) ⟨rfl, rfl, rfl⟩ (.reportAll e _ _)

theorem Net.SameArrivals.flushHeld (e : Env) (n : Net) : n.SameArrivals (n.flushHeld e) :=
  Net.SameArrivals.trans (m := n.onPau fun p => { p with held := [] }) ⟨rfl, rfl, rfl⟩ (.reportAll e _ _)

theorem State.finish_sameArrivals (s : State) : s.play.net.SameArrivals s.finish.play.net := by
  have hgate : ∀ q : Play, q.gateCheck.net = q.net := fun q => by rw [q.gateCheck_frame.1]
  have hheld : s.play.net.SameArrivals
      (if s.play.boundaryDue s.env then s.play else s.play.onNet (Net.flushHeld s.env)).net := by
    split
    · exact .refl _
    · exact .flushHeld s.env _
  simp only [State.finish, State.onPlay, Play.finish, hgate]
  exact hheld.trans (.flush s.env _)

/-- What a report records depends on the Fault Log alone (R194). -/
theorem Net.report_flt_of_flt (e : Env) (k : FaultKind) (source : Nat) {n m : Net} (h : m.flt = n.flt) :
    (Net.report e k source m).flt = (Net.report e k source n).flt := by
  unfold Net.report
  rw [h]
  split
  · rfl
  · split
    · split
      · rw [Net.enqueue_flt, Net.enqueue_flt]
      · rfl
    · rfl

/-! ### What a refusal leaves (R115) -/

/-- The zones, the body store, the Fault Log and the counts of the arrivals are the same. -/
structure Play.SameButTold (p q : Play) : Prop where
  zpc : q.zpc = p.zpc
  cmu : q.cmu = p.cmu
  flt : q.net.flt = p.net.flt
  arrivals : p.net.SameArrivals q.net

theorem Play.SameButTold.refl (p : Play) : p.SameButTold p := ⟨rfl, rfl, rfl, .refl _⟩

theorem Play.SameButTold.trans {p q r : Play} (h : p.SameButTold q) (k : q.SameButTold r) : p.SameButTold r :=
  ⟨k.zpc.trans h.zpc, k.cmu.trans h.cmu, k.flt.trans h.flt, h.arrivals.trans k.arrivals⟩

theorem Play.SameButTold.tellZones (f : AnnounceFrame) (zones : List Nat) (o : Outcome) (p : Play) :
    p.SameButTold (p.tellZones f zones o) :=
  List.foldlRecOn (motive := fun q => p.SameButTold q) _ _ (.refl p) fun _ hq _ _ => hq.trans ⟨rfl, rfl, rfl, rfl, rfl, rfl⟩

theorem Play.SameButTold.tellNotOwned (f : AnnounceFrame) (zones : List Nat) (p : Play) :
    p.SameButTold (p.tellNotOwned f zones) :=
  (Play.SameButTold.tellZones f zones _ p).trans ⟨rfl, rfl, rfl, rfl, rfl, rfl⟩

theorem State.finish_sameButTold (s : State) : s.play.SameButTold s.finish.play := by
  obtain ⟨hzpc, hcmu, _, _, _, _, hflt, _⟩ := s.finish_frame
  exact ⟨hzpc, hcmu, hflt, s.finish_sameArrivals⟩

/-- The owned zones that a zone set names. -/
def Env.ownedOf (e : Env) (zones : ZoneSet) : List Nat := (zonesOf zones).filter fun z => (e.outOfZone z).isSome

/-- What the blocks of `Play` hold when an ANNOUNCE has been taken and counted. -/
def State.arrived (s : State) : Play :=
  s.tookGood.play.onPauCounts fun c => { c with announceReceived := bump c.announceReceived }

@[simp] theorem State.arrived_flt (s : State) : s.arrived.net.flt = s.play.net.flt := rfl

/-- An ANNOUNCE of another station that names an owned zone is counted, and settled by the tests of R115. -/
theorem State.announce_of_owned {s : State} {env : Envelope} {f : AnnounceFrame} (hsrc : env.src ≠ s.cfl.own)
    (howned : s.env.ownedOf f.zones ≠ []) :
    (s.tookGood.onPlay fun e p => p.announce e env f).play = s.arrived.admitRemote s.env env.src f
      (s.env.ownedOf f.zones) (if env.dst = 31 then [] else s.env.foreignZones f.zones) := by
  have hnonempty : ¬ (s.env.ownedOf f.zones).isEmpty = true := fun h => howned (List.isEmpty_iff.mp h)
  exact (if_neg hsrc).trans (if_neg hnonempty)

/-- A refusal of every owned zone: what the count of its reason takes beside what is told. -/
def Play.refuseAll (f : AnnounceFrame) (owned others : List Nat) (r : DropReason) (count : PauCounts → PauCounts)
    (p : Play) : Play :=
  ((p.tellZones f owned (.dropped (reasonCode r))).onPauCounts count).tellNotOwned f others

/-- A frame of another library version is refused, LIBRARY_MISMATCH being reported (R115). -/
theorem Play.admitRemote_of_mismatch {e : Env} {f : AnnounceFrame} {p : Play} (h : f.libVersion ≠ p.cfu.version)
    (src : Nat) (owned others : List Nat) :
    p.admitRemote e src f owned others = (p.fault e .libraryMismatch f.origin).refuseAll f owned others .libraryMismatch
      fun c => { c with libraryMismatch := bumpBy owned.length c.libraryMismatch } := if_pos h

/-- A SERVICE or INFO frame is refused while evacuation is active (R115). -/
theorem Play.admitRemote_of_evac {e : Env} {f : AnnounceFrame} {p : Play} (hversion : f.libVersion = p.cfu.version)
    (hactive : p.evl.active = true) (hcls : classTaken f.cls = .service ∨ classTaken f.cls = .info) (src : Nat)
    (owned others : List Nat) :
    p.admitRemote e src f owned others = p.refuseAll f owned others .evacActive
      fun c => { c with evacActive := bumpBy owned.length c.evacActive } := by
  unfold Play.admitRemote
  dsimp only
  rw [if_neg (not_not.mpr hversion), if_pos]
  · rfl
  · simpa [hactive] using hcls

/-- A class byte above 1 names SERVICE or INFO (R71). -/
theorem classTaken_of_two_le {n : Nat} (h : 2 ≤ n) : classTaken n = .service ∨ classTaken n = .info := by
  unfold classTaken
  rw [if_neg (Nat.not_le.mpr h)]
  split
  · exact Or.inl rfl
  · exact Or.inr rfl

/-- A command that refused an announcement leaves the zones, the bodies and the Fault Log as they were then, and counts
the arrivals as the refusal does. -/
theorem State.finish_of_refused {u : State} {f : AnnounceFrame} {owned others : List Nat} {r : DropReason}
    {count : PauCounts → PauCounts} {p : Play} (h : u.play = p.refuseAll f owned others r count) :
    ∃ q : Play, p.SameButTold q ∧ (q.onPauCounts count).SameButTold u.finish.play := by
  refine ⟨_, .tellZones f owned (.dropped (reasonCode r)) p, ?_⟩
  have hend := u.finish_sameButTold
  rw [h] at hend
  exact (Play.SameButTold.tellNotOwned f others _).trans hend

/-- A command that acts on the blocks of `Play` alone leaves the tables. -/
theorem State.sameTables_of_announce (s : State) (g : Env → Play → Play) :
    s.SameTables (s.tookGood.onPlay g).finish := by
  obtain ⟨_, _, _, _, _, _, _, _, _, _, _, _, htables⟩ := (s.tookGood.onPlay g).finish_frame
  exact htables

section refused
variable {s : State} {env : Envelope} {f : AnnounceFrame} (htakes : s.TakesFrame env) (hsrc : env.src ≠ s.cfl.own)
  (hok : announceOk env.src f = true) (howned : s.env.ownedOf f.zones ≠ [])
include htakes hsrc hok howned

/-- A frame of another library version, settled (R115, R124). -/
theorem exec_announce_of_mismatch (hversion : f.libVersion ≠ s.play.cfu.version) :
    ∃ t, exec (.announce env f) s = .next t ∧ t.play.zpc = s.play.zpc ∧ t.play.cmu = s.play.cmu ∧
      t.play.net.pau.counts.announceReceived = bump s.play.net.pau.counts.announceReceived ∧
      t.play.net.pau.counts.libraryMismatch =
        bumpBy (s.env.ownedOf f.zones).length s.play.net.pau.counts.libraryMismatch ∧
      t.play.net.flt = (Net.report s.env .libraryMismatch f.origin s.play.net).flt ∧ s.SameTables t := by
  have hplay := (State.announce_of_owned hsrc howned).trans (Play.admitRemote_of_mismatch (p := s.arrived) hversion _ _ _)
  obtain ⟨q, hq, hend⟩ := State.finish_of_refused hplay
  have hreport := Net.SameArrivals.report s.env .libraryMismatch f.origin s.arrived.net
  have harrivals : s.arrived.net.SameArrivals q.net := hreport.trans hq.arrivals
  refine ⟨_, exec_announce_of_takes htakes hok, hend.zpc.trans (hq.zpc.trans (Play.onNet_zpc _ _)),
    hend.cmu.trans (hq.cmu.trans (Play.onNet_cmu _ _)), hend.arrivals.received.trans harrivals.received,
    hend.arrivals.mismatched.trans (congrArg (bumpBy _) harrivals.mismatched), ?_, s.sameTables_of_announce _⟩
  exact hend.flt.trans (hq.flt.trans (Net.report_flt_of_flt s.env _ _ s.arrived_flt))

/-- A SERVICE or INFO frame while evacuation is active, settled (R115, R124). -/
theorem exec_announce_of_evac (hversion : f.libVersion = s.play.cfu.version) (hactive : s.play.evl.active = true)
    (hcls : 2 ≤ f.cls) :
    ∃ t, exec (.announce env f) s = .next t ∧ t.play.zpc = s.play.zpc ∧ t.play.cmu = s.play.cmu ∧
      t.play.net.pau.counts.announceReceived = bump s.play.net.pau.counts.announceReceived ∧
      t.play.net.pau.counts.evacActive =
        bumpBy (s.env.ownedOf f.zones).length s.play.net.pau.counts.evacActive ∧
      t.play.net.flt = s.play.net.flt ∧ s.SameTables t := by
  have hplay := (State.announce_of_owned hsrc howned).trans
    (Play.admitRemote_of_evac (p := s.arrived) hversion hactive (classTaken_of_two_le hcls) _ _ _)
  obtain ⟨q, hq, hend⟩ := State.finish_of_refused hplay
  exact ⟨_, exec_announce_of_takes htakes hok, hend.zpc.trans hq.zpc, hend.cmu.trans hq.cmu,
    hend.arrivals.received.trans hq.arrivals.received,
    hend.arrivals.evacuated.trans (congrArg (bumpBy _) hq.arrivals.evacuated), hend.flt.trans hq.flt,
    s.sameTables_of_announce _⟩

end refused

end Sys2Proof.Machine
end

section
/-! PROOFS. An ANNOUNCE admitted behind what its zone plays (R72, R77, R78, R79, R115, R117). -/
namespace Sys2Proof.Machine

/-! ### The body of another station's announcement (R71, R72) -/

/-- The body that an ANNOUNCE brings, before any entry refers to it. -/
def remoteBody (f : AnnounceFrame) : Body :=
  ⟨⟨f.origin, f.seq⟩, classTaken f.cls, .remote f.origin, announceKey f, none,
    ((f.segs.take 24).map takeSegment).map (checkSegment (classTaken f.cls)), 0⟩

/-- The entry that an ANNOUNCE of a station offers to a zone. -/
def remoteEntry (src : Nat) (f : AnnounceFrame) (z : Nat) : Entry :=
  newEntry ⟨f.origin, f.seq⟩ (classTaken f.cls) (.remote src) (announceKey f) none (announceSync f) f.mustSync
    (some (instantOf f.expiryDay f.expiryTime)) z

@[simp] theorem Play.checkRemote_zpc (e : Env) (f : AnnounceFrame) (p : Play) : (p.checkRemote e f).2.zpc = p.zpc := by
  unfold Play.checkRemote
  dsimp only
  split <;> split <;> rfl

/-- Segments within the ranges of their class are checked without a report. -/
theorem Play.checkRemote_net {f : AnnounceFrame}
    (h : hasReserved (classTaken f.cls) ((f.segs.take 24).map takeSegment) = false) (e : Env) (p : Play) :
    (p.checkRemote e f).2.net = p.net := by
  unfold Play.checkRemote
  dsimp only
  rw [if_neg (by rw [h]; exact Bool.false_ne_true)]
  split <;> rfl

theorem Composition.freeSlot_of_slots {c d : Composition} (h : d.slots = c.slots) : d.freeSlot = c.freeSlot := by
  unfold Composition.freeSlot
  rw [h]

/-- A new id takes the lowest free slot (R72). -/
theorem Play.allocateRemote_of_free {e : Env} {f : AnnounceFrame} {p : Play} {i : Fin 32} (hsegs : f.segs ≠ [])
    (hnew : ¬ p.cmu.Holds ⟨f.origin, f.seq⟩) (hfree : p.cmu.freeSlot = some i) :
    p.allocateRemote e f =
      (.body (classTaken f.cls), (p.checkRemote e f).2.onCmu fun c => c.hold i (remoteBody f)) := by
  have hslots := (Play.SameRefs.checkRemote e f p).slots
  have hnone : ((p.checkRemote e f).2.cmu.slots.toList.findSome? fun b =>
      b.filter fun b => b.id = ⟨f.origin, f.seq⟩) = none := by
    rw [hslots]
    exact Composition.findSome_eq_none_iff.mpr hnew
  have hobtain : (p.checkRemote e f).2.obtainSlot e (classTaken f.cls) = (some i, (p.checkRemote e f).2) := by
    unfold Play.obtainSlot
    rw [Composition.freeSlot_of_slots hslots, hfree]
  have hnonempty : ¬ f.segs.isEmpty = true := fun h => hsegs (List.isEmpty_iff.mp h)
  unfold Play.allocateRemote
  rw [if_neg hnonempty]
  dsimp only
  rw [hnone]
  dsimp only
  rw [hobtain]
  rfl

/-- What the slots hold once a body is held. -/
theorem Composition.hold_get (c : Composition) (i j : Fin 32) (b : Body) :
    (c.hold i b).slots.get j = if j = i then some b else c.slots.get j := upd_get c.slots i j fun _ => some b

/-- A body held in hand, taken once, stays held with one reference when its operation ends (R69, R72). -/
theorem Composition.release_onBody_hold_get (c : Composition) (i : Fin 32) {b : Body} (h0 : b.refs = 0) :
    ((c.hold i b).onBody b.id fun x => { x with refs := x.refs + 1 }).release.slots.get i = some { b with refs := 1 } := by
  refine Composition.sweep_get_eq_some.mpr ⟨Composition.onBody_get_eq_some.mpr ⟨b, ?_, ?_⟩, Or.inl Nat.one_ne_zero⟩
  · rw [Composition.hold_get, if_pos rfl]
  · rw [if_pos rfl, h0]

/-- A reference of an entry that is not EVAC counts at the general body of its id (R69). -/
theorem Play.addRef_cmu_of_general {en : Entry} (h : en.cls ≠ .evac) (p : Play) :
    (p.addRef en).cmu = p.cmu.onBody en.id fun b => { b with refs := b.refs + 1 } := by
  rw [Play.addRef, if_neg h]

/-! ### An offer behind the head of a queue (R77, R78, R79) -/

/-- A zone that has taken an entry: it stands QUEUED in the order of R78, under the next order number. -/
def Zone.taking (en : Entry) (z : Zone) : Zone :=
  { z with
    queue := insertEntry z.queue { en with order := z.nextOrder, state := .queued, seg := 0, pass := 0 }
    nextOrder := z.nextOrder + 1 }

section behind
variable {e : Env} {p : Play} {o : Out} {en h : Entry} {rest : List Entry}

/-- An entry that does not come to the head of its queue moves nothing else (R78, R88). -/
theorem Play.enterZone_of_behind (hsurvey : (p.zone o).survey = false) (hqueue : (p.zone o).queue = h :: rest)
    (hurgent : moreUrgent en.cls h.cls = false) (hid : h.id ≠ en.id) :
    p.enterZone e o en = p.onZone o (Zone.taking en) := by
  have hsurveyAfter : ¬ ((p.onZone o (Zone.taking en)).zone o).survey = true := by
    rw [Play.onZone_zone_self, Zone.taking, hsurvey]
    exact Bool.false_ne_true
  have hhead : ((p.onZone o (Zone.taking en)).zone o).queue =
      h :: insertEntry rest { en with order := (p.zone o).nextOrder, state := .queued, seg := 0, pass := 0 } := by
    rw [Play.onZone_zone_self, Zone.taking, hqueue]
    exact if_neg (by rw [hurgent]; exact Bool.false_ne_true)
  have harrived : (p.onZone o (Zone.taking en)).headArrived e o en = p.onZone o (Zone.taking en) := by
    unfold Play.headArrived
    rw [hhead]
    exact if_neg hid
  exact (congrArg (Play.headArrived e o en) (if_neg hsurveyAfter)).trans harrived

/-- An offer that the zone has room for behind its head is taken: a new reference, told QUEUED (R79). -/
theorem Play.offer_of_behind {z : Nat} (hid : (p.zone o).id = some z) (hfaulted : (p.zone o).faulted = false)
    (hsurvey : (p.zone o).survey = false) (hqueue : (p.zone o).queue = h :: rest) (hroom : rest.length < 7)
    (hurgent : moreUrgent en.cls h.cls = false) (hnew : ∀ x ∈ h :: rest, x.id ≠ en.id) (hlive : e.expired en = false) :
    p.offer e o en = ((p.addRef en).tellEntry en .queued).onZone o (Zone.taking en) := by
  have hzone : ((p.addRef en).tellEntry en .queued).zone o = p.zone o := by
    rw [Play.zone, Play.tellEntry_zpc, Play.addRef_zpc]
    rfl
  have hnot : ¬ ((p.zone o).queue.any fun x => decide (x.id = en.id)) = true := by
    rw [hqueue, List.any_eq_true]
    rintro ⟨x, hx, hxid⟩
    exact hnew x hx (of_decide_eq_true hxid)
  have hshort : ¬ 8 ≤ (p.zone o).queue.length := by
    rw [hqueue, List.length_cons]
    omega
  have hoffer : p.offer e o en = p.settleNew e o en := by
    unfold Play.offer
    dsimp only
    rw [hid]
    dsimp only
    rw [if_neg hnot, if_neg (by rw [hfaulted]; exact Bool.false_ne_true)]
  have hsettle : p.settleNew e o en = ((p.addRef en).tellEntry en .queued).enterZone e o en := by
    unfold Play.settleNew Play.settleOffer
    rw [if_neg (by rw [hlive]; exact Bool.false_ne_true), if_neg hshort]
  rw [hoffer, hsettle]
  exact Play.enterZone_of_behind (by rw [hzone]; exact hsurvey) (by rw [hzone]; exact hqueue) hurgent
    (hnew h List.mem_cons_self)

end behind

/-! ### The admission (R115) -/

/-- What the blocks of `Play` hold once the body of an ANNOUNCE is held and its one owned zone has taken its entry. -/
def Play.admitted (e : Env) (src : Nat) (f : AnnounceFrame) (z : Nat) (o : Out) (i : Fin 32) (p : Play) : Play :=
  (((((p.checkRemote e f).2.onCmu fun c => c.hold i (remoteBody f)).addRef (remoteEntry src f z)).tellEntry
    (remoteEntry src f z) .queued).onZone o (Zone.taking (remoteEntry src f z))).onCmu Composition.release

section admitted
variable {e : Env} {src : Nat} {f : AnnounceFrame} {z : Nat} {o : Out} {i : Fin 32} {p : Play} {h : Entry}
  {rest : List Entry}

/-- An ANNOUNCE whose tests pass and whose zone has room behind its head is admitted (R115). -/
theorem Play.admitRemote_of_behind (hversion : f.libVersion = p.cfu.version) (hactive : p.evl.active = false)
    (hwindow : e.windowClosed f = false) (hsegs : f.segs ≠ []) (hnew : ¬ p.cmu.Holds ⟨f.origin, f.seq⟩)
    (hfree : p.cmu.freeSlot = some i) (hzones : zonesOf f.zones = [z]) (hout : e.outOfZone z = some o)
    (hoffer : ∀ q : Play, q.zone o = p.zone o → q.offer e o (remoteEntry src f z) =
      ((q.addRef (remoteEntry src f z)).tellEntry (remoteEntry src f z) .queued).onZone o
        (Zone.taking (remoteEntry src f z))) (owned : List Nat) :
    p.admitRemote e src f owned [] = (p.admitted e src f z o i).tellNotOwned f [] := by
  have hzone : ((p.checkRemote e f).2.onCmu fun c => c.hold i (remoteBody f)).zone o = p.zone o := by
    rw [Play.onCmu_zone, Play.zone, Play.checkRemote_zpc]
    rfl
  have hoffered : ((p.checkRemote e f).2.onCmu fun c => c.hold i (remoteBody f)).offerZones e f.zones
      (remoteEntry src f) = ((((p.checkRemote e f).2.onCmu fun c => c.hold i (remoteBody f)).addRef
        (remoteEntry src f z)).tellEntry (remoteEntry src f z) .queued).onZone o (Zone.taking (remoteEntry src f z)) := by
    unfold Play.offerZones
    rw [hzones, List.foldl_cons, List.foldl_nil, hout]
    exact hoffer _ hzone
  unfold Play.admitRemote
  dsimp only
  rw [if_neg (not_not.mpr hversion), if_neg (by rw [hactive]; exact Bool.false_ne_true),
    if_neg (by rw [hwindow]; exact Bool.false_ne_true), Play.allocateRemote_of_free hsegs hnew hfree]
  exact congrArg (fun q => (Play.onCmu q Composition.release).tellNotOwned f []) hoffered

theorem Play.admitted_zone (q : Out) : (p.admitted e src f z o i).zone q =
    if q = o then Zone.taking (remoteEntry src f z) (p.zone q) else p.zone q := by
  have hzone : ((((p.checkRemote e f).2.onCmu fun c => c.hold i (remoteBody f)).addRef
      (remoteEntry src f z)).tellEntry (remoteEntry src f z) .queued).zone q = p.zone q := by
    rw [Play.zone, Play.tellEntry_zpc, Play.addRef_zpc, Play.onCmu_zpc, Play.checkRemote_zpc]
    rfl
  rw [Play.admitted, Play.onCmu_zone, Play.onZone_zone, hzone]

/-- The body stands in its slot with one reference (R72). -/
theorem Play.admitted_slot : (p.admitted e src f z o i).cmu.slots.get i = some { remoteBody f with refs := 1 } := by
  have hcmu : (p.admitted e src f z o i).cmu = (((p.checkRemote e f).2.cmu.hold i (remoteBody f)).onBody
      (remoteBody f).id fun x => { x with refs := x.refs + 1 }).release := by
    rw [Play.admitted, Play.onCmu_cmu, Play.onZone_cmu, Play.tellEntry_cmu,
      Play.addRef_cmu_of_general (en := remoteEntry src f z) (classTaken_ne_evac f.cls), Play.onCmu_cmu]
    rfl
  rw [hcmu]
  exact Composition.release_onBody_hold_get _ i rfl

/-- QUEUED is told for the zone, and nothing else changes at the link. -/
theorem Play.admitted_net : (p.admitted e src f z o i).net =
    Net.tell ⟨f.origin, f.seq⟩ (classTaken f.cls) z .queued (p.checkRemote e f).2.net := by
  rw [Play.admitted, Play.onCmu_net, Play.onZone_net]
  change (Play.onNet _ _).net = _
  rw [Play.onNet_net, Play.addRef_net, Play.onCmu_net]
  rfl

end admitted

/-- With no foreign zone named, NOT_OWNED is told for none (R115). -/
theorem Play.tellNotOwned_nil (f : AnnounceFrame) (p : Play) :
    p.tellNotOwned f [] = p.onPauCounts fun c => { c with notOwned := bumpBy 0 c.notOwned } := rfl

@[simp] theorem Play.onPauCounts_zpc (p : Play) (f : PauCounts → PauCounts) : (p.onPauCounts f).zpc = p.zpc := rfl

@[simp] theorem Play.onPauCounts_cmu (p : Play) (f : PauCounts → PauCounts) : (p.onPauCounts f).cmu = p.cmu := rfl

@[simp] theorem Play.onPauCounts_queue (p : Play) (f : PauCounts → PauCounts) :
    (p.onPauCounts f).net.lki.queue = p.net.lki.queue := rfl

@[simp] theorem Play.onPauCounts_outbox (p : Play) (f : PauCounts → PauCounts) :
    (p.onPauCounts f).net.pau.outbox = p.net.pau.outbox := rfl

@[simp] theorem Play.onPauCounts_held (p : Play) (f : PauCounts → PauCounts) :
    (p.onPauCounts f).net.pau.held = p.net.pau.held := rfl

/-! ### The report at the end of the command (R117) -/

theorem Net.enqueue_queue_of_room {e : Env} {n : Net} (f : TxFrame) (hr : e.running = true)
    (hl : n.lki.queue.length < 16) : (Net.enqueue e f n).lki.queue = insertFrame n.lki.queue f := by
  rw [Net.enqueue_room f hr hl]

/-- One outcome gathered in a command, with none held and room in the transmit queue, is reported by itself. -/
theorem State.finish_queue_of_one {u : State} {r : ReportedOutcome} (hrun : u.cfl.load = .running)
    (hheld : u.play.net.pau.held = []) (hone : u.play.net.pau.outbox = [r]) (hroom : u.play.net.lki.queue.length < 16) :
    u.finish.play.net.lki.queue = insertFrame u.play.net.lki.queue ⟨if r.cls = .alert then 0 else 1, r.id.origin,
      .zoneReport ⟨r.id.origin, r.id.seq, [⟨r.zone, (outcomeBytes r.outcome).1, (outcomeBytes r.outcome).2⟩]⟩⟩ := by
  have hgate : ∀ q : Play, q.gateCheck.net = q.net := fun q => by rw [q.gateCheck_frame.1]
  have hnone : (if u.play.boundaryDue u.env then u.play else u.play.onNet (Net.flushHeld u.env)).net = u.play.net := by
    split
    · rfl
    · rw [Play.onNet_net, Net.flushHeld_of_empty u.env hheld]
  simp only [State.finish, State.onPlay, Play.finish, hgate, Play.onNet_net, hnone, Net.flush, hone]
  exact Net.enqueue_queue_of_room _ (State.env_running hrun) hroom

/-- Settles O26: the admission behind a head at least as urgent, the two refusals, and the lowest free slot. -/
theorem announceSettles : Obligations.AnnounceSettles := by
  unfold Obligations.AnnounceSettles
  refine ⟨⟨?_, ?_⟩, fun c => ⟨fun i => Composition.freeSlot_eq_some_iff, Composition.freeSlot_eq_none_iff⟩⟩
  · intro s env f z o h rest i htakes hsrc hok hversion hactive hwindow hsegs hzones hout hid hfaulted hsurvey hqueue
      hroom _ hurgent hnew hlive hslots hfree
    have howned : s.env.ownedOf f.zones ≠ [] := by
      rw [Env.ownedOf, hzones, List.filter_cons_of_pos (by rw [hout]; rfl)]
      nofun
    have hforeign : (if env.dst = 31 then [] else s.env.foreignZones f.zones) = [] := by
      rw [Env.foreignZones, hzones, List.filter_cons_of_neg (by rw [hout]; nofun)]
      exact ite_self _
    have hnotHeld : ¬ s.play.cmu.Holds ⟨f.origin, f.seq⟩ := fun ⟨j, b, hb, hbid⟩ => hslots j b hb hbid
    have hplay := State.announce_of_owned hsrc howned
    rw [hforeign, Play.admitRemote_of_behind (p := s.arrived) hversion hactive hwindow hsegs hnotHeld hfree hzones hout
      fun q hq => Play.offer_of_behind (by rw [hq]; exact hid) (by rw [hq]; exact hfaulted) (by rw [hq]; exact hsurvey)
        (by rw [hq]; exact hqueue) hroom (decide_eq_false (Nat.not_lt.mpr hurgent)) hnew hlive,
      Play.tellNotOwned_nil] at hplay
    have htables := s.sameTables_of_announce fun e p => p.announce e env f
    refine ⟨_, { remoteBody f with refs := 1 }, exec_announce_of_takes htakes hok, ?_⟩
    generalize hu : (s.tookGood.onPlay fun e p => p.announce e env f) = u at hplay htables ⊢
    have hrun : u.cfl.load = .running := by
      rw [← hu]
      exact htakes.1
    obtain ⟨hzpc, hcmu, _⟩ := u.finish_frame
    have hzone : ∀ q, u.finish.play.zone q =
        if q = o then Zone.taking (remoteEntry env.src f z) (s.play.zone q) else s.play.zone q := fun q => by
      rw [Play.zone, hzpc, hplay, Play.onPauCounts_zpc]
      exact Play.admitted_zone (p := s.arrived) q
    refine ⟨?_, ?_, rfl, rfl, rfl, rfl, fun q hq => ?_, htables, fun hquiet hqueueRoom hreserved => ?_⟩
    · rw [hzone, if_pos rfl, Zone.taking, hqueue]
      rfl
    · rw [hcmu, hplay, Play.onPauCounts_cmu]
      exact Play.admitted_slot (p := s.arrived)
    · rw [hzone, if_neg hq]
    · obtain ⟨houtbox, hheld, _⟩ := hquiet
      have hnet := Play.admitted_net (e := s.env) (src := env.src) (z := z) (o := o) (i := i) (p := s.arrived) (f := f)
      rw [Play.checkRemote_net hreserved] at hnet
      have hqueueSame : u.play.net.lki.queue = s.play.net.lki.queue := by
        rw [hplay, Play.onPauCounts_queue, hnet]
        rfl
      have hreport := State.finish_queue_of_one (u := u) (r := ⟨⟨f.origin, f.seq⟩, classTaken f.cls, z, .queued⟩) hrun
        (by rw [hplay, Play.onPauCounts_held, hnet]; exact hheld)
        (by rw [hplay, Play.onPauCounts_outbox, hnet]; exact congrArg (· ++ _) houtbox)
        (by rw [hqueueSame]; exact hqueueRoom)
      rw [hreport, hqueueSame]
      rfl
  · intro s env f htakes hsrc hok howned
    exact ⟨exec_announce_of_mismatch htakes hsrc hok howned, exec_announce_of_evac htakes hsrc hok howned⟩

end Sys2Proof.Machine
end

section
/-! PROOFS. What the channels, the starts and the surveys leave of the queues: the same entries, but for their states, and
none that waits begins to sound (R82, R83, R88, R129 to R133, R165 to R168). -/
namespace Sys2Proof.Machine

/-- An entry with another state; one that waits goes on waiting. -/
def Entry.StillWaits (x y : Entry) : Prop := ∃ st, y = { x with state := st } ∧ (x.sounding = false → y.sounding = false)

theorem Entry.StillWaits.refl (x : Entry) : x.StillWaits x := ⟨x.state, rfl, fun h => h⟩

theorem Entry.StillWaits.trans {x y z : Entry} (h : x.StillWaits y) (k : y.StillWaits z) : x.StillWaits z := by
  obtain ⟨a, rfl, ha⟩ := h
  obtain ⟨b, rfl, hb⟩ := k
  exact ⟨b, rfl, fun hx => hb (ha hx)⟩

theorem Entry.StillWaits.id {x y : Entry} (h : x.StillWaits y) : y.id = x.id := by
  obtain ⟨st, rfl, _⟩ := h
  rfl

theorem Entry.Restated.stillWaits {x y : Entry} (h : x.Restated y) : x.StillWaits y := by
  obtain ⟨st, hy, hsound⟩ := h
  exact ⟨st, hy, hsound.trans⟩

/-- Entries that change no more than their states keep their ids. -/
theorem Entry.StillWaits.ids {l m : List Entry} (h : List.Forall₂ Entry.StillWaits l m) :
    m.map (·.id) = l.map (·.id) := by
  have hids : List.Forall₂ (fun x y : Entry => x.id = y.id) l m := h.imp fun _ _ hxy => hxy.id.symm
  exact (List.forall₂_eq_eq_eq ▸ List.forall₂_map_left_iff.mpr (List.forall₂_map_right_iff.mpr hids)).symm

/-- An entry that waits still stands, and waits. -/
theorem Entry.StillWaits.exists_of_mem {l m : List Entry} (h : List.Forall₂ Entry.StillWaits l m) {x : Entry}
    (hx : x ∈ l) (hwaits : x.sounding = false) :
    ∃ y ∈ m, { y with state := .queued } = { x with state := .queued } ∧ (y.state = .queued ∨ y.state = .starting) := by
  obtain ⟨y, hy, st, rfl, hsound⟩ : ∃ y ∈ m, x.StillWaits y := forall₂_source h.flip hx
  exact ⟨_, hy, rfl, (Entry.sounding_eq_false_iff _).mp (hsound hwaits)⟩

/-- What is sent, stored and counted and the evacuation are the same, and so is every zone but for its survey, its last
stop, and the states of its entries. -/
structure Play.Stands (p q : Play) : Prop where
  net : q.net = p.net
  cmu : q.cmu = p.cmu
  evl : q.evl = p.evl
  counts : q.zpc.counts = p.zpc.counts
  zoneId : ∀ o, (q.zone o).id = (p.zone o).id
  faulted : ∀ o, (q.zone o).faulted = (p.zone o).faulted
  nextOrder : ∀ o, (q.zone o).nextOrder = (p.zone o).nextOrder
  entries : ∀ o, List.Forall₂ Entry.StillWaits (p.zone o).queue (q.zone o).queue

theorem Play.Stands.refl (p : Play) : p.Stands p :=
  ⟨rfl, rfl, rfl, rfl, fun _ => rfl, fun _ => rfl, fun _ => rfl, fun _ => List.forall₂_same.mpr fun x _ => .refl x⟩

theorem Play.Stands.trans {p q r : Play} (h : p.Stands q) (k : q.Stands r) : p.Stands r :=
  ⟨k.net.trans h.net, k.cmu.trans h.cmu, k.evl.trans h.evl, k.counts.trans h.counts,
    fun o => (k.zoneId o).trans (h.zoneId o), fun o => (k.faulted o).trans (h.faulted o),
    fun o => (k.nextOrder o).trans (h.nextOrder o),
    fun o => forall₂_comp (R := Entry.StillWaits) (S := Entry.StillWaits) (fun _ _ _ hab hbc => hab.trans hbc)
      (h.entries o) (k.entries o)⟩

theorem Play.Stands.ite {p q r : Play} {c : Prop} [Decidable c] (h : p.Stands q) (k : p.Stands r) :
    p.Stands (if c then q else r) := by
  split
  · exact h
  · exact k

/-- Changes of the channels, the levels, the lines and the surveys alone. -/
theorem Play.Stands.of_blocks {p q : Play} (hnet : q.net = p.net) (hcmu : q.cmu = p.cmu) (hevl : q.evl = p.evl)
    (hzpc : q.zpc = p.zpc) : p.Stands q := by
  have hzone : ∀ o, q.zone o = p.zone o := fun o => by simp only [Play.zone, hzpc]
  refine ⟨hnet, hcmu, hevl, by rw [hzpc], ?_, ?_, ?_, fun o => ?_⟩
  iterate 3 exact fun o => by rw [hzone]
  rw [hzone]
  exact (Play.Stands.refl p).entries o

/-- A change of entries that changes states alone, no waiting one beginning to sound. -/
theorem Play.Stands.onEntries (p : Play) (o : Out) {test : Entry → Bool} {f : Entry → Entry}
    (h : ∀ x ∈ (p.zone o).queue, test x = true → x.StillWaits (f x)) :
    p.Stands (p.onZone o fun z => z.onEntries test f) := by
  refine ⟨rfl, rfl, rfl, rfl, fun k => ?_, fun k => ?_, fun k => ?_, fun k => ?_⟩
  iterate 3
    rw [Play.onZone_zone]
    split <;> rfl
  rw [Play.onZone_zone]
  split
  · next hk =>
    subst hk
    refine forall₂_map_self fun x hx => ?_
    split
    · next ht => exact h x hx ht
    · exact .refl x
  · exact (Play.Stands.refl p).entries k

theorem Play.Stands.onEntry (p : Play) (o : Out) (id : AnnId) {f : Entry → Entry}
    (h : ∀ x ∈ (p.zone o).queue, x.StillWaits (f x)) : p.Stands (p.onEntry o id f) :=
  .onEntries p o fun x hx _ => h x hx

/-- A change of a zone that changes no more than its survey and its last stop. -/
theorem Play.Stands.onZone (p : Play) (o : Out) {f : Zone → Zone} (hid : ∀ z, (f z).id = z.id)
    (hfaulted : ∀ z, (f z).faulted = z.faulted) (hnext : ∀ z, (f z).nextOrder = z.nextOrder)
    (hqueue : ∀ z, (f z).queue = z.queue) : p.Stands (p.onZone o f) := by
  refine ⟨rfl, rfl, rfl, rfl, fun k => ?_, fun k => ?_, fun k => ?_, fun k => ?_⟩ <;> rw [Play.onZone_zone] <;> split
  case refine_1.isTrue => exact hid _
  case refine_2.isTrue => exact hfaulted _
  case refine_3.isTrue => exact hnext _
  case refine_4.isTrue =>
    rw [hqueue]
    exact (Play.Stands.refl p).entries k
  case refine_4.isFalse => exact (Play.Stands.refl p).entries k
  all_goals rfl

/-! ### Channels and starts (R82, R83, R129 to R133) -/

theorem Play.onEntries_nextOrder (p : Play) (o k : Out) (test : Entry → Bool) (f : Entry → Entry) :
    ((p.onZone o fun z => z.onEntries test f).zone k).nextOrder = (p.zone k).nextOrder := by
  rw [Play.onZone_zone]
  split <;> rfl

theorem Play.tellTheft_nextOrder (ch : Chan) (taker : AnnClass) (p : Play) (k : Out) :
    ((p.tellTheft ch taker).zone k).nextOrder = (p.zone k).nextOrder := by
  unfold Play.tellTheft
  dsimp only
  split
  · exact List.foldlRecOn (motive := fun q : Play => (q.zone k).nextOrder = (p.zone k).nextOrder) _ _ rfl
      fun q hq o _ => (q.onEntries_nextOrder o k _ _).trans hq
  · rfl

theorem Play.zone_of_zpc {p q : Play} (h : q.zpc = p.zpc) (o : Out) : q.zone o = p.zone o := by
  simp only [Play.zone, h]

/-- The allocator gives out no arrival order. -/
theorem Play.allocate_nextOrder (n : Nat) (l : List ChanRequest) (p : Play) (k : Out) :
    ((Play.allocate n l p).zone k).nextOrder = (p.zone k).nextOrder := by
  induction n generalizing l p with
  | zero => rfl
  | succ n ih =>
    unfold Play.allocate
    split
    · rw [ih, Play.zone_of_zpc (Play.assign_zpc _ _ p)]
    · split
      · rw [ih, Play.zone_of_zpc (Play.newRequest_zpc _ p)]
      · split
        · rfl
        · dsimp only
          split
          · exact ih _ _
          · split
            · exact (ih _ _).trans (Play.tellTheft_nextOrder _ _ _ k)
            · exact ih _ _

theorem Play.Stands.allocate (n : Nat) (l : List ChanRequest) (p : Play) : p.Stands (Play.allocate n l p) := by
  obtain ⟨hnet, hcmu, _, _, _, hevl, hcounts, hzones⟩ := Play.allocate_sameBeside n l p
  exact ⟨hnet, hcmu, hevl, hcounts, fun o => (hzones o).1, fun o => (hzones o).2.1, Play.allocate_nextOrder n l p,
    fun o => (Play.allocate_restates n l p o).imp fun _ _ hxy => hxy.stillWaits⟩

theorem Play.Stands.onCfu (p : Play) (f : Clips → Clips) : p.Stands (p.onCfu f) := .of_blocks rfl rfl rfl rfl

theorem Play.Stands.onChan (p : Play) (ch : Chan) (f : Channel → Channel) : p.Stands (p.onChan ch f) :=
  .of_blocks rfl rfl rfl rfl

theorem Play.Stands.onLevel (p : Play) (o : Out) (f : Level → Level) : p.Stands (p.onLevel o f) :=
  .of_blocks rfl rfl rfl rfl

theorem Play.Stands.onSurvey (p : Play) (o : Out) (f : Survey → Survey) : p.Stands (p.onSurvey o f) :=
  .of_blocks rfl rfl rfl rfl

theorem Play.Stands.onSurveyCounts (p : Play) (f : SurveyCounts → SurveyCounts) : p.Stands (p.onSurveyCounts f) :=
  .of_blocks rfl rfl rfl rfl

theorem Play.Stands.requestChan (o : Out) (cls : AnnClass) (s : Served) (p : Play) :
    p.Stands (p.requestChan o cls s) := (Play.Stands.onCfu p _).trans (.allocate _ _ _)

theorem Play.Stands.leaveChan (o : Out) (ch : Chan) (p : Play) : p.Stands (p.leaveChan o ch) := by
  have hdrop := Play.Stands.onChan p ch fun c => { c with members := dropOut c.members o }
  exact .ite ((hdrop.trans (.onChan _ ch _)).trans (.allocate _ _ _)) hdrop

theorem Play.Stands.withdrawRequest (o : Out) (s : Served) (p : Play) : p.Stands (p.withdrawRequest o s) := by
  unfold Play.withdrawRequest
  dsimp only
  split
  · exact (Play.Stands.onCfu p _).trans (.leaveChan o _ _)
  · exact .onCfu p _

theorem Play.Stands.askChannel (e : Env) (o : Out) (en : Entry) (p : Play) : p.Stands (p.askChannel e o en) :=
  .ite (.requestChan _ _ _ p) (.refl p)

/-- An entry made STARTING or QUEUED waits. -/
theorem Entry.StillWaits.of_waiting (x : Entry) {st : EntryState} (h : st = .queued ∨ st = .starting) :
    x.StillWaits { x with state := st } := ⟨st, rfl, fun _ => (Entry.sounding_eq_false_iff _).mpr h⟩

theorem Play.Stands.startHead (e : Env) (o : Out) (p : Play) : p.Stands (p.startHead e o) := by
  unfold Play.startHead
  dsimp only
  split
  · exact .refl p
  · exact .ite (.refl p) ((Play.Stands.onEntry p o _ fun x _ => .of_waiting x (Or.inr rfl)).trans (.askChannel e o _ _))

theorem Play.Stands.unstart (o : Out) (p : Play) : p.Stands (p.unstart o) := by
  unfold Play.unstart
  split
  · exact .refl p
  · exact (Play.Stands.onEntry p o _ fun x _ => .of_waiting x (Or.inl rfl)).trans (.withdrawRequest _ _ _)

/-! ### Surveys and new heads (R88, R102, R168) -/

theorem Play.Stands.releaseZone (e : Env) (o : Out) (p : Play) : p.Stands (p.releaseZone e o) := by
  unfold Play.releaseZone
  extract_lets q r
  have hq : p.Stands q := .onSurvey p o _
  have hr : q.Stands r := .onZone q o (fun _ => rfl) (fun _ => rfl) (fun _ => rfl) fun _ => rfl
  exact ((hq.trans hr).trans (.onLevel r o _)).trans (.startHead e o _)

theorem Play.Stands.abortSurvey (e : Env) (o : Out) (reason : AbortReason) (p : Play) :
    p.Stands (p.abortSurvey e o reason) := by
  unfold Play.abortSurvey
  extract_lets v
  split
  · exact .refl p
  · split
    · exact .ite (.releaseZone e o p) (.ite (.refl p) (.onSurvey p o _))
    · extract_lets record q r
      have hq : p.Stands q := (Play.Stands.onSurvey p o _).trans (.onSurveyCounts _ _)
      have hr : p.Stands r := hq.trans (.ite (.withdrawRequest _ _ _) (.refl _))
      exact .ite (hr.trans (.onSurvey _ _ _)) (hr.trans (.releaseZone _ _ _))

theorem Entry.StillWaits.preemptBy (cls : AnnClass) (x : Entry) : x.StillWaits (x.preemptBy cls) := by
  unfold Entry.preemptBy
  split
  · split
    case h_1 hstate => exact ⟨_, rfl, fun hwaits => by simp [Entry.sounding, hstate] at hwaits⟩
    case h_2 hstate => exact ⟨_, rfl, fun hwaits => by simp [Entry.sounding, hstate] at hwaits⟩
    all_goals exact .refl x
  · exact .refl x

theorem Play.Stands.headArrived (e : Env) (o : Out) (en : Entry) (p : Play) : p.Stands (p.headArrived e o en) := by
  unfold Play.headArrived
  split
  · exact .refl p
  · next h _ _ =>
    refine .ite ?_ (.refl p)
    have hunstarted : p.Stands (if ((p.zone o).queue.any fun x => x.state = .starting && moreUrgent en.cls x.cls) = true
        then p.unstart o else p) := .ite (.unstart o p) (.refl p)
    exact (hunstarted.trans (.onEntries _ o (f := Entry.preemptBy en.cls) fun x _ _ => .preemptBy en.cls x)).trans
      (.startHead e o _)

/-- An entry that enters a zone stands in its order, and the other entries change no more than their states (R78, R79). -/
theorem Play.Stands.enterZone (e : Env) (o : Out) (en : Entry) (p : Play) :
    Play.Stands (p.onZone o (Zone.taking en)) (p.enterZone e o en) := by
  unfold Play.enterZone
  extract_lets q r
  have hr : q.Stands r := .ite (.abortSurvey e o _ q) (.refl q)
  exact hr.trans (.headArrived e o en r)

end Sys2Proof.Machine
end

section
/-! PROOFS. The order of a queue (R78, R80), told by the ids, classes and arrival orders of its entries: what keeps them,
what takes entries out, and an entry that enters. -/
namespace Sys2Proof.Machine

/-! ### Ranks -/

/-- What gives an entry its place in a queue. -/
def Entry.rank (en : Entry) : AnnId × AnnClass × Nat := (en.id, en.cls, en.order)

/-- One entry stands before another by its class and its arrival (R78). -/
def Entry.Before (a b : Entry) : Prop := classCode a.cls < classCode b.cls ∨ a.cls = b.cls ∧ a.order < b.order

/-- The clauses of `Zone.Ordered`, about the ranks of a queue. -/
structure RanksOrdered (l : List (AnnId × AnnClass × Nat)) (next : Nat) : Prop where
  room : l.length ≤ 8
  distinct : (l.map Prod.fst).Nodup
  sorted : l.Pairwise fun a b => classCode a.2.1 < classCode b.2.1 ∨ a.2.1 = b.2.1 ∧ a.2.2 < b.2.2
  given : ∀ t ∈ l, t.2.2 < next

theorem Zone.ordered_iff (z : Zone) : z.Ordered ↔ RanksOrdered (z.queue.map Entry.rank) z.nextOrder := by
  have hids : (z.queue.map Entry.rank).map Prod.fst = z.queue.map (·.id) := by
    rw [List.map_map]
    rfl
  constructor
  · rintro ⟨hroom, hdistinct, hsorted, hgiven⟩
    exact ⟨by rwa [List.length_map], by rwa [hids], List.pairwise_map.mpr hsorted, List.forall_mem_map.mpr hgiven⟩
  · rintro ⟨hroom, hdistinct, hsorted, hgiven⟩
    exact ⟨by rwa [List.length_map] at hroom, by rwa [hids] at hdistinct, List.pairwise_map.mp hsorted,
      List.forall_mem_map.mp hgiven⟩

/-- A queue that keeps some of its entries, in their order, stays ordered. -/
theorem Zone.Ordered.of_sublist {z w : Zone} (h : z.Ordered)
    (hqueue : (w.queue.map Entry.rank).Sublist (z.queue.map Entry.rank)) (hnext : w.nextOrder = z.nextOrder) :
    w.Ordered := by
  obtain ⟨hroom, hdistinct, hsorted, hgiven⟩ := z.ordered_iff.mp h
  refine w.ordered_iff.mpr ⟨hqueue.length_le.trans hroom, hdistinct.sublist (hqueue.map _), hsorted.sublist hqueue, ?_⟩
  rw [hnext]
  exact fun t ht => hgiven t (hqueue.mem ht)

theorem classCode_injective {a b : AnnClass} (h : classCode a = classCode b) : a = b := by
  cases a <;> cases b <;> simp [classCode] at h ⊢

/-- An entry placed by R78 behind those at least as urgent keeps the order, having arrived last. -/
theorem insertEntry_pairwise {q : List Entry} {en : Entry} (h : q.Pairwise Entry.Before)
    (hlast : ∀ x ∈ q, x.order < en.order) : (insertEntry q en).Pairwise Entry.Before := by
  induction q with
  | nil => exact List.pairwise_singleton _ _
  | cons x rest ih =>
    obtain ⟨hx, hrest⟩ := List.pairwise_cons.mp h
    obtain ⟨hxlast, hrestLast⟩ := List.forall_mem_cons.mp hlast
    unfold insertEntry
    split
    · next hurgent =>
      have hcode : classCode en.cls < classCode x.cls := of_decide_eq_true hurgent
      refine List.pairwise_cons.mpr ⟨List.forall_mem_cons.mpr ⟨Or.inl hcode, fun y hy => Or.inl ?_⟩, h⟩
      rcases hx y hy with hlt | ⟨heq, _⟩
      · exact hcode.trans hlt
      · rwa [← heq]
    · next hnot =>
      have hcode : classCode x.cls ≤ classCode en.cls := Nat.not_lt.mp fun hlt => hnot (decide_eq_true hlt)
      refine List.pairwise_cons.mpr ⟨fun y hy => ?_, ih hrest hrestLast⟩
      rcases (mem_insertEntry rest en y).mp hy with rfl | hy
      · exact hcode.lt_or_eq.imp id fun heq => ⟨classCode_injective heq, hxlast⟩
      · exact hx y hy

/-- A queue with room that takes an entry of a new id stays ordered (R78). -/
theorem Zone.Ordered.taking {z : Zone} {en : Entry} (h : z.Ordered) (hroom : z.queue.length < 8)
    (hnew : ∀ x ∈ z.queue, x.id ≠ en.id) : (Zone.taking en z).Ordered := by
  obtain ⟨_, hdistinct, hsorted, hgiven⟩ := h
  refine ⟨?_, ?_, insertEntry_pairwise hsorted hgiven, fun x hx => Nat.lt_succ_iff.mpr ?_⟩
  · rw [Zone.taking, insertEntry_length]
    exact hroom
  · refine (((insertEntry_perm z.queue _).map _).nodup_iff).mpr (List.nodup_cons.mpr ⟨fun hmem => ?_, hdistinct⟩)
    obtain ⟨x, hx, hid⟩ := List.mem_map.mp hmem
    exact hnew x hx hid
  · rcases (mem_insertEntry _ _ _).mp hx with rfl | hx
    · exact le_rfl
    · exact (hgiven x hx).le

/-! ### The queues of all outputs -/

/-- Every queue is in order (R78, R80). -/
structure Play.Ordered (p : Play) : Prop where
  zones : ∀ o, (p.zone o).Ordered

section ordered
variable {p q : Play} {o : Out} {en : Entry}

theorem Play.Ordered.of_zones (h : p.Ordered) (hzones : q.zpc.zones = p.zpc.zones) : q.Ordered := ⟨fun o => by
  rw [show q.zone o = p.zone o by simp only [Play.zone, hzones]]
  exact h.zones o⟩

theorem Play.Ordered.stands (h : p.Ordered) (k : p.Stands q) : q.Ordered := ⟨fun o => by
  have hranks : List.Forall₂ (fun x y : Entry => x.rank = y.rank) (p.zone o).queue (q.zone o).queue :=
    (k.entries o).imp fun x y ⟨st, hy, _⟩ => by rw [hy]; rfl
  have heq := List.forall₂_eq_eq_eq ▸ List.forall₂_map_left_iff.mpr (List.forall₂_map_right_iff.mpr hranks)
  exact (h.zones o).of_sublist (heq ▸ List.Sublist.refl _) (k.nextOrder o)⟩

theorem Play.Ordered.ite {c : Prop} [Decidable c] (h : p.Ordered) (k : q.Ordered) :
    (if c then p else q).Ordered := by
  split
  · exact h
  · exact k

/-- What each act of a list keeps in order, the list does. -/
theorem Play.Ordered.foldl {α : Type} {f : Play → α → Play} (hf : ∀ (q : Play) (a : α), q.Ordered → (f q a).Ordered)
    (l : List α) (h : p.Ordered) : (l.foldl f p).Ordered :=
  List.foldlRecOn l f h fun q hq a _ => hf q a hq

theorem Play.Ordered.onZone (h : p.Ordered) (o : Out) {f : Zone → Zone} (hf : ∀ z : Zone, z.Ordered → (f z).Ordered) :
    (p.onZone o f).Ordered := ⟨fun k => by
  rw [Play.onZone_zone]
  split
  · exact hf _ (h.zones k)
  · exact h.zones k⟩

/-- A change of a zone that keeps its queue and its next arrival order. -/
theorem Play.Ordered.onZone_same (h : p.Ordered) (o : Out) {f : Zone → Zone} (hqueue : ∀ z, (f z).queue = z.queue)
    (hnext : ∀ z, (f z).nextOrder = z.nextOrder) : (p.onZone o f).Ordered :=
  h.onZone o fun z hz => hz.of_sublist (by rw [hqueue]) (hnext z)

/-- A change of entries that keeps their ranks. -/
theorem Play.Ordered.onEntries (h : p.Ordered) (o : Out) (test : Entry → Bool) {f : Entry → Entry}
    (hf : ∀ x ∈ (p.zone o).queue, test x = true → (f x).rank = x.rank) :
    (p.onZone o fun z => z.onEntries test f).Ordered := ⟨fun k => by
  rw [Play.onZone_zone]
  split
  · next hk =>
    subst hk
    refine (h.zones k).of_sublist ?_ rfl
    rw [Zone.onEntries, List.map_map, List.map_congr_left fun x hx => ?_]
    rw [Function.comp_apply]
    split
    · next ht => exact hf x hx ht
    · rfl
  · exact h.zones k⟩

@[simp] theorem Entry.addCause_rank (x : Entry) (f : StopCause → StopCause) : (x.addCause f).rank = x.rank := by
  unfold Entry.addCause
  split <;> rfl

/-- Entries taken out of a queue by id. -/
theorem Play.Ordered.unqueue (h : p.Ordered) (o : Out) (test : Entry → Bool) :
    (p.onZone o fun z => { z with queue := z.queue.filter test }).Ordered :=
  h.onZone o fun _ hz => hz.of_sublist (List.filter_sublist.map _) rfl

theorem Play.Ordered.tellEntry (h : p.Ordered) (en : Entry) (out : Outcome) : (p.tellEntry en out).Ordered :=
  h.of_zones (by rw [Play.tellEntry_zpc])

theorem Play.noteDone_zones (en : Entry) (p : Play) : (p.noteDone en).zpc.zones = p.zpc.zones := by
  rw [Play.noteDone, Play.tellEntry_zpc]

theorem Play.noteDrop_zones (en : Entry) (r : DropReason) (p : Play) : (p.noteDrop en r).zpc.zones = p.zpc.zones := by
  rw [(Play.noteDrop_frame en r p).1]

theorem Play.Ordered.noteDrop (h : p.Ordered) (en : Entry) (r : DropReason) : (p.noteDrop en r).Ordered :=
  h.of_zones (p.noteDrop_zones en r)

theorem Play.Ordered.noteDone (h : p.Ordered) (en : Entry) : (p.noteDone en).Ordered :=
  h.of_zones (p.noteDone_zones en)

theorem Play.Ordered.fault (h : p.Ordered) (e : Env) (k : FaultKind) (source : Nat) : (p.fault e k source).Ordered :=
  h.of_zones rfl

theorem Play.Ordered.onNet (h : p.Ordered) (f : Net → Net) : (p.onNet f).Ordered := h.of_zones rfl

theorem Play.Ordered.onChan (h : p.Ordered) (ch : Chan) (f : Channel → Channel) : (p.onChan ch f).Ordered :=
  h.of_zones rfl

theorem Play.Ordered.onCfu (h : p.Ordered) (f : Clips → Clips) : (p.onCfu f).Ordered := h.of_zones rfl

theorem Play.Ordered.onEvl (h : p.Ordered) (f : Evac → Evac) : (p.onEvl f).Ordered := h.of_zones rfl

theorem Play.Ordered.onLsu (h : p.Ordered) (f : Supervision → Supervision) : (p.onLsu f).Ordered := h.of_zones rfl

theorem Play.Ordered.onLine (h : p.Ordered) (o : Out) (f : Line → Line) : (p.onLine o f).Ordered := h.of_zones rfl

theorem Play.Ordered.onCmu (h : p.Ordered) (f : Composition → Composition) : (p.onCmu f).Ordered := h.of_zones rfl

theorem Play.Ordered.onCmuCounts (h : p.Ordered) (f : CmuCounts → CmuCounts) : (p.onCmuCounts f).Ordered :=
  h.of_zones rfl

theorem Play.Ordered.onPauCounts (h : p.Ordered) (f : PauCounts → PauCounts) : (p.onPauCounts f).Ordered :=
  h.of_zones rfl

theorem Play.Ordered.takeBoundary (h : p.Ordered) (e : Env) : (p.takeBoundary e).Ordered := h.of_zones rfl

theorem Play.Ordered.of_level (h : p.Ordered) (k : p.OnlyLevel o q) : q.Ordered := h.of_zones (by rw [k.1])

theorem Play.Ordered.pump (h : p.Ordered) (ch : Chan) : (p.pump ch).Ordered := h.of_zones (by rw [Play.pump_zpc])

/-! ### Leaving a queue (R77, R94) -/

theorem Play.Ordered.releaseRef (h : p.Ordered) (en : Entry) : (p.releaseRef en).Ordered := by
  obtain ⟨_, hzpc, _⟩ := Play.releaseRef_frame en p
  exact h.of_zones (by rw [hzpc])

theorem Play.Ordered.takeOut (h : p.Ordered) (o : Out) (en : Entry) : (p.takeOut o en).Ordered :=
  (h.unqueue o _).releaseRef en

theorem Play.Ordered.withdrawRequest (h : p.Ordered) (o : Out) (s : Served) : (p.withdrawRequest o s).Ordered :=
  h.stands (.withdrawRequest o s p)

/-- A note of a leaving that changes no queue. -/
def KeepsZones (note : Play → Play) : Prop := ∀ p : Play, (note p).zpc.zones = p.zpc.zones

theorem Play.Ordered.leaveWaiting (h : p.Ordered) (e : Env) (o : Out) (en : Entry) {note : Play → Play}
    (hnote : KeepsZones note) : (p.leaveWaiting e o en note).Ordered := by
  have hleft := ((h.withdrawRequest o (.body en.id)).takeOut o en).of_zones (hnote _)
  exact .ite (hleft.stands (.startHead e o _)) hleft

theorem Play.Ordered.dropWaiting (h : p.Ordered) (e : Env) (o : Out) (r : DropReason) (en : Entry) :
    (p.dropWaiting e o r en).Ordered := h.leaveWaiting e o en fun q => q.noteDrop_zones en r

theorem Play.Ordered.dropAll (h : p.Ordered) (e : Env) (o : Out) (r : DropReason) (l : List Entry) :
    (l.foldl (Play.dropWaiting e o r) p).Ordered := .foldl (fun _ en hq => hq.dropWaiting e o r en) l h

/-! ### Entering a queue (R78 to R80) -/

theorem Play.Ordered.enterZone (h : p.Ordered) (e : Env) (hroom : (p.zone o).queue.length < 8)
    (hnew : ∀ x ∈ (p.zone o).queue, x.id ≠ en.id) : (p.enterZone e o en).Ordered := by
  refine Play.Ordered.stands (p := p.onZone o (Zone.taking en)) ⟨fun k => ?_⟩ (.enterZone e o en p)
  rw [Play.onZone_zone]
  split
  · next hk =>
    subst hk
    exact (h.zones k).taking hroom hnew
  · exact h.zones k

theorem Play.ids_eq_tags (p : Play) (o : Out) : (p.zone o).queue.map (·.id) = (p.tags o).map Prod.fst := by
  rw [Play.tags, List.map_map]
  rfl

/-- The ids of a queue that an entry has left. -/
theorem Play.leaveWaiting_ids {note : Play → Play} (hnote : KeepsRefs note) (e : Env) (p : Play) (o : Out) (en : Entry) :
    ((p.leaveWaiting e o en note).zone o).queue.map (·.id) = ((p.zone o).queue.map (·.id)).filter (· ≠ en.id) := by
  rw [Play.ids_eq_tags, Play.leaveWaiting_tags_self hnote, Play.ids_eq_tags, List.filter_map]
  rfl

/-- What stands in a queue that an entry has left stood there before, under another id. -/
theorem Play.mem_leaveWaiting {note : Play → Play} (hnote : KeepsRefs note) (e : Env) {y : Entry}
    (hy : y ∈ ((p.leaveWaiting e o en note).zone o).queue) : y.id ≠ en.id ∧ ∃ w ∈ (p.zone o).queue, w.id = y.id := by
  have hmem : y.id ∈ ((p.zone o).queue.map (·.id)).filter (· ≠ en.id) := by
    rw [← Play.leaveWaiting_ids hnote e p o en]
    exact List.mem_map_of_mem hy
  obtain ⟨hin, hne⟩ := List.mem_filter.mp hmem
  exact ⟨of_decide_eq_true hne, List.mem_map.mp hin⟩

/-- A queue that gives up one of its entries has room (R80). -/
theorem Play.leaveWaiting_room {note : Play → Play} (hnote : KeepsRefs note) (e : Env) (hen : en ∈ (p.zone o).queue)
    (hlen : (p.zone o).queue.length ≤ 8) : ((p.leaveWaiting e o en note).zone o).queue.length < 8 := by
  have hlt : (((p.zone o).queue.map (·.id)).filter (· ≠ en.id)).length < ((p.zone o).queue.map (·.id)).length :=
    List.length_filter_lt_length_iff_exists.mpr ⟨en.id, List.mem_map_of_mem hen, by simp⟩
  rw [← Play.leaveWaiting_ids hnote e p o en, List.length_map, List.length_map] at hlt
  exact hlt.trans_le hlen

/-- An offer settled by tests 4 to 6 of R79 keeps the order, where the queue does not hold its id. -/
theorem Play.Ordered.settleOffer (h : p.Ordered) (e : Env) {welcome : Play → Play} {refuse : DropReason → Play → Play}
    (hnew : ∀ x ∈ (p.zone o).queue, x.id ≠ en.id) (hwelcome : KeepsZones welcome) (hrefuse : ∀ r, (refuse r p).Ordered) :
    (p.settleOffer e o en welcome refuse).Ordered := by
  have hwelcomed : ∀ u : Play, (welcome u).zone o = u.zone o := fun u => by simp only [Play.zone, hwelcome u]
  rcases Play.settleOffer_cases e o en welcome refuse p with
    ⟨r, _, heq⟩ | ⟨_, hroom, heq⟩ | ⟨x, _, _, hx, _, heq⟩ <;> rw [heq]
  · exact hrefuse r
  · exact (h.of_zones (hwelcome p)).enterZone e (by rwa [hwelcomed]) (by rwa [hwelcomed])
  · have hroom : ((p.dropWaiting e o .displaced x).zone o).queue.length < 8 :=
      Play.leaveWaiting_room (.noteDrop x _) e (Zone.leastQueued_mem hx) (h.zones o).1
    refine ((h.dropWaiting e o .displaced x).of_zones (hwelcome _)).enterZone e (by rwa [hwelcomed]) fun y hy => ?_
    rw [hwelcomed] at hy
    obtain ⟨_, w, hw, hid⟩ := Play.mem_leaveWaiting (.noteDrop x _) e hy
    rw [← hid]
    exact hnew w hw

theorem KeepsZones.addRef_tellEntry (there en : Entry) (out : Outcome) :
    KeepsZones fun p => (p.addRef there).tellEntry en out := fun p => by rw [Play.tellEntry_zpc, Play.addRef_zpc]

theorem Play.Ordered.redirect (h : p.Ordered) (e : Env) (o : Out) (en : Entry) : (p.redirect e o en).Ordered := by
  unfold Play.redirect
  dsimp only
  split
  · next f z hf =>
    obtain ⟨_, _, hfree⟩ := Play.fallback_some hf
    exact h.settleOffer e hfree (.addRef_tellEntry _ _ _) fun _ => h.noteDrop en _
  · exact h.noteDrop en _

theorem Play.Ordered.offer (h : p.Ordered) (e : Env) (o : Out) (en : Entry) : (p.offer e o en).Ordered := by
  have hnew : ¬ ((p.zone o).queue.any fun x => decide (x.id = en.id)) = true → (p.settleNew e o en).Ordered := by
    intro hany
    refine h.settleOffer e (fun x hx hid => hany ?_) (.addRef_tellEntry _ _ _) fun r => h.noteDrop en r
    exact List.any_eq_true.mpr ⟨x, hx, decide_eq_true hid⟩
  unfold Play.offer
  dsimp only
  split
  · refine .ite (h.noteDrop en _) ?_
    split
    · exact h
    · next hany => exact .ite (h.noteDrop en _) (hnew hany)
  · split
    · exact h
    · next hany => exact .ite (h.redirect e o en) (hnew hany)

theorem Play.Ordered.moveAway (h : p.Ordered) (e : Env) (o : Out) (en : Entry) : (p.moveAway e o en).Ordered := by
  unfold Play.moveAway
  dsimp only
  split
  · exact (h.releaseRef en).noteDrop en _
  · split
    · next f z hf =>
      obtain ⟨_, _, hfree⟩ := Play.fallback_some hf
      have htold := h.tellEntry en (.redirected z)
      refine htold.settleOffer e ?_ (fun _ => rfl) fun r => (htold.releaseRef _).noteDrop _ r
      rw [Play.zone_of_zpc (Play.tellEntry_zpc _ _ _)]
      exact hfree
    · exact (h.releaseRef en).noteDrop en _

end ordered

end Sys2Proof.Machine
end

section
/-! PROOFS. What the surveys, the reads and the channel starts leave of the queues, and the order of the queues through
them (R85, R127, R131 to R138, R163 to R168). -/
namespace Sys2Proof.Machine

/-! ### Surveys (R163 to R168) -/

theorem Play.Stands.leaveProbe (o : Out) (p : Play) : p.Stands (p.leaveProbe o) := by
  unfold Play.leaveProbe
  dsimp only
  split
  · exact (Play.Stands.onLevel p o _).trans (.leaveChan o _ _)
  · exact .onLevel p o _

theorem Play.Stands.beginSurvey (e : Env) (o : Out) (starter : SurveyStarter) (p : Play) :
    p.Stands (p.beginSurvey e o starter) :=
  ((Play.Stands.onSurvey p o _).trans (.onZone _ o (f := fun z => { z with survey := true }) (fun _ => rfl)
    (fun _ => rfl) (fun _ => rfl) fun _ => rfl)).trans (.of_blocks rfl rfl rfl rfl)

theorem Play.Stands.enterProbe (e : Env) (o : Out) (i : ProbeIndex) (p : Play) : p.Stands (p.enterProbe e o i) :=
  ((Play.Stands.onSurvey p o _).trans (.onSurvey _ _ _)).trans (.requestChan _ _ _ _)

theorem Play.Stands.completeSurvey (e : Env) (o : Out) (p : Play) : p.Stands (p.completeSurvey e o) := by
  unfold Play.completeSurvey
  extract_lets v
  split
  · exact .refl p
  · refine Play.Stands.trans ?_ (.releaseZone e o _)
    split <;> exact .of_blocks rfl rfl rfl rfl

theorem Play.Stands.seekCandidate (e : Env) (o : Out) (p : Play) : p.Stands (p.seekCandidate e o) := by
  unfold Play.seekCandidate
  extract_lets v
  split
  · exact .refl p
  · split
    · exact (Play.Stands.onSurvey p o _).trans (.enterProbe e o _ _)
    · exact .completeSurvey e o p

theorem Play.Stands.scoreProbe (e : Env) (o : Out) (lt : Nat) (p : Play) : p.Stands (p.scoreProbe e o lt) := by
  unfold Play.scoreProbe
  extract_lets v
  split
  · exact .refl p
  · extract_lets nb lp score better misses q
    have hq : p.Stands q := .onSurvey p o _
    exact .ite (hq.trans (.completeSurvey e o _)) (hq.trans (.seekCandidate e o _))

theorem Play.Stands.surveyWindow (e : Env) (o : Out) (level : Nat) (p : Play) :
    p.Stands (p.surveyWindow e o level) := by
  unfold Play.surveyWindow
  extract_lets v
  split
  · exact .refl p
  · split
    · exact .refl p
    · exact .ite (.ite (.onSurvey p o _) ((Play.Stands.onSurvey p o _).trans (.enterProbe e o _ _))) (.refl p)
    · exact .ite (.onSurvey p o _) (.refl p)
    · split
      · exact .refl p
      · exact .ite (.onSurvey p o _) (.ite (.scoreProbe e o _ p) (.refl p))

theorem Play.Stands.endProbe (e : Env) (o : Out) (p : Play) : p.Stands (p.endProbe e o) := by
  unfold Play.endProbe
  extract_lets v q
  have hq : p.Stands q := .leaveProbe o p
  split
  · exact .ite (hq.trans (.releaseZone e o q)) (hq.trans (.of_blocks rfl rfl rfl rfl))
  · exact hq

theorem Play.Stands.cutProbe (e : Env) (o : Out) (p : Play) : p.Stands (p.cutProbe e o) :=
  .ite ((Play.Stands.leaveProbe o p).trans (.releaseZone e o _)) (.leaveProbe o p)

theorem Play.Stands.attemptAuto (e : Env) (o : Out) (p : Play) : p.Stands (p.attemptAuto e o) :=
  .ite (.beginSurvey e o _ p) (.onSurvey p o _)

theorem Play.Stands.refuseAuto (p : Play) (o : Out) : p.Stands (p.refuseAuto o) :=
  .ite (.of_blocks rfl rfl rfl rfl) (.refl p)

theorem Play.Stands.retryAuto (e : Env) (o : Out) (p : Play) : p.Stands (p.retryAuto e o) :=
  .ite (.attemptAuto e o p) (.refuseAuto p o)

section ordered
variable {p : Play}

theorem Play.Ordered.refuseAll (h : p.Ordered) : (allOuts.foldl Play.refuseAuto p).Ordered :=
  .foldl (fun q o hq => hq.stands (.refuseAuto q o)) _ h

theorem Play.Ordered.surveySecond (h : p.Ordered) (e : Env) : (p.surveySecond e).Ordered := by
  unfold Play.surveySecond
  extract_lets minute due q
  have hq : q.Ordered := .foldl (fun r o hr => .ite (hr.stands (.attemptAuto e o r)) hr) _ h
  exact hq.of_zones rfl

theorem Play.Ordered.windowEnd (h : p.Ordered) (e : Env) (sums : Vector Nat 8) : (p.windowEnd e sums).Ordered := by
  refine .foldl (fun q o hq => hq.stands ((Play.Stands.onLevel q o _).trans (.surveyWindow e o _ _))) _ ?_
  exact h.of_zones rfl

/-! ### Reads and block advances (R127, R131 to R138) -/

theorem Play.Ordered.underrunFaults (h : p.Ordered) (e : Env) (c : Channel) : (p.underrunFaults e c).Ordered :=
  .foldl (fun _ _ hq => hq.fault e _ _) _ h

theorem Play.Ordered.carryAll (h : p.Ordered) (c : Channel) (b : Block) : (p.carryAll c b).Ordered :=
  .foldl (fun q o hq => hq.of_level (q.carry_only o b)) _ h

theorem Play.Ordered.blockRead (h : p.Ordered) (e : Env) (result : Option (List Int)) :
    (p.blockRead e result).Ordered := by
  unfold Play.blockRead
  split
  · exact h
  · next ch r _ =>
    extract_lets q u b
    have hq : q.Ordered := .ite (h.of_zones rfl) (h.of_zones rfl)
    have hu : u.Ordered := .ite hq (hq.underrunFaults e _)
    exact .ite (hq.pump ch) ((hu.onChan ch _).pump ch)

theorem Play.Ordered.directoryRead (h : p.Ordered) (e : Env) (result : Option DirEntry) :
    (p.directoryRead e result).Ordered := by
  unfold Play.directoryRead
  split
  · exact h
  · next ch r _ =>
    extract_lets q found phrase u
    have hq : q.Ordered := h.of_zones rfl
    have hu : u.Ordered := .ite (hq.of_zones rfl) hq
    exact .ite (hq.pump ch) ((hu.onChan ch _).pump ch)

theorem Play.Ordered.blockAdvance (h : p.Ordered) (e : Env) (ch : Chan) : (p.blockAdvance e ch).Ordered := by
  unfold Play.blockAdvance
  extract_lets c q cut
  have hq : q.Ordered := h.of_zones rfl
  refine .ite h ?_
  split
  · exact hq.stands (.cutProbe e _ q)
  · have hsilent : (if c.silent then q else q.underrunFaults e c).Ordered := .ite hq (hq.underrunFaults e c)
    exact ((hsilent.onCfu _).onChan ch _).carryAll c _
  · exact (((hq.onChan ch _).onChan ch _).carryAll c _).pump ch

theorem Play.Ordered.memberStart (h : p.Ordered) (e : Env) (c : Channel) (o : Out) : (p.memberStart e c o).Ordered := by
  unfold Play.memberStart
  split
  · exact h
  · extract_lets q
    have hq : q.Ordered := h.onEntries o _ fun _ _ _ => rfl
    exact .ite ((hq.tellEntry _ _).of_level (Play.gainAtStart_only e o _ _ _)) h

theorem Play.Ordered.channelStart (h : p.Ordered) (e : Env) (ch : Chan) : (p.channelStart e ch).Ordered := by
  unfold Play.channelStart
  extract_lets q c u v half
  have hq : q.Ordered := h.takeBoundary e
  have hu : u.Ordered := by
    unfold u
    split
    · unfold Play.startProbe
      extract_lets survey
      split
      · exact hq
      · exact Play.Ordered.of_level (hq.stands (.onSurvey q _ _)) (Play.gainAtProbe_only e _ _ _)
    · exact .foldl (fun _ o hx => hx.memberStart e c o) _ hq
  have hv : v.Ordered := hu.onChan ch _
  exact .ite h (((hv.onChan ch _).carryAll _ _).pump ch)

theorem Play.Ordered.askAll (h : p.Ordered) (e : Env) (id : AnnId) : (p.syncStart e id).Ordered := by
  refine .foldl (fun q o hq => ?_) _ h
  split
  · exact hq.stands (.askChannel e o _ q)
  · exact hq

end ordered

end Sys2Proof.Machine
end

section
/-! PROOFS. The order of the queues through the operations of the zones: the evacuation body, stop points and pass ends,
removals, faulted zones, entry to RUNNING, the soft restart and the body store (R66 to R72, R85 to R105, R115, R171 to
R175). -/
namespace Sys2Proof.Machine

section ordered
variable {p : Play}

/-! ### The evacuation body (R73, R171, R174, R175) -/

theorem Play.Ordered.fillEvac (h : p.Ordered) (e : Env) : (p.fillEvac e).Ordered := by
  unfold Play.fillEvac
  split
  · exact h
  · exact h.of_zones rfl

theorem Play.Ordered.offerEvac (h : p.Ordered) (e : Env) (o : Out) : (p.offerEvac e o).Ordered := by
  unfold Play.offerEvac
  split
  · exact h.offer e o _
  · exact h

theorem Play.Ordered.reoffer (h : p.Ordered) (e : Env) (o : Out) : (p.reoffer e o).Ordered :=
  (h.fillEvac e).offerEvac e o

theorem Play.Ordered.offerEvacAll (h : p.Ordered) (e : Env) (l : List Out) : (l.foldl (Play.offerEvac e) p).Ordered :=
  .foldl (fun _ o hq => hq.offerEvac e o) l h

theorem Play.Ordered.offerGated (h : p.Ordered) (e : Env) (l : List Out) : (p.offerGated e l).Ordered := by
  unfold Play.offerGated
  extract_lets before q r
  have hr : r.Ordered := (h.onEvl _).offerEvacAll e l
  exact hr.onEvl _

theorem Play.Ordered.reofferAll (h : p.Ordered) (e : Env) : (p.reofferAll e).Ordered :=
  .ite ((h.fillEvac e).offerEvacAll e _) h

theorem Play.Ordered.reofferRestart (h : p.Ordered) (e : Env) : (p.reofferRestart e).Ordered :=
  .ite ((h.fillEvac e).offerGated e _) h

theorem Play.Ordered.recoverZone (h : p.Ordered) (e : Env) (o : Out) : (p.recoverZone e o).Ordered := by
  unfold Play.recoverZone
  extract_lets z q r
  have hq : q.Ordered := h.onZone_same o (fun _ => rfl) fun _ => rfl
  exact .ite ((Play.Ordered.ite (hq.reoffer e o) hq).stands (.startHead e o _)) h

theorem Play.Ordered.holdZone (h : p.Ordered) (e : Env) (o : Out) : (p.holdZone e o).Ordered := by
  unfold Play.holdZone
  extract_lets resume clear stop q r
  have hresume : ∀ x : Entry, (resume x).rank = x.rank := fun x => by
    unfold resume
    split
    · dsimp only
      split <;> rfl
    · rfl
  have hstop : ∀ x : Entry, (stop x).rank = x.rank := fun x => by
    unfold stop
    split <;> rfl
  have hq : q.Ordered := h.onEntries o _ fun x _ _ => by
    split
    · exact hresume x
    · exact hstop x
  have hr : r.Ordered := .ite (hq.stands (.unstart o q)) hq
  exact hr.stands (.abortSurvey e o _ r)

theorem Play.Ordered.assertEvac (h : p.Ordered) (e : Env) : (p.assertEvac e).Ordered := by
  unfold Play.assertEvac
  extract_lets q r u v
  have hr : r.Ordered := .foldl (fun _ o hx => hx.holdZone e o) _ (h.onEvl _)
  have hu : u.Ordered := hr.fillEvac e
  have hv : v.Ordered := by
    unfold v
    split
    · exact hu.onEvl _
    · exact hu
  exact hv.offerGated e _

theorem Play.Ordered.endEvac (h : p.Ordered) (e : Env) (o : Out) : (p.endEvac e o).Ordered := by
  refine Play.Ordered.onEntries ?_ o _ fun x _ _ => x.addCause_rank _
  exact .foldl (fun _ en hq => hq.leaveWaiting e o en fun u => u.noteDone_zones en) _ h

theorem Play.sweepEvac_zpc (p : Play) : p.sweepEvac.zpc = p.zpc := by
  unfold Play.sweepEvac
  split
  · split <;> rfl
  · rfl

theorem Play.Ordered.sweepEvac (h : p.Ordered) : p.sweepEvac.Ordered := h.of_zones (by rw [Play.sweepEvac_zpc])

theorem Play.Ordered.releaseEvac (h : p.Ordered) (e : Env) : (p.releaseEvac e).Ordered := by
  unfold Play.releaseEvac
  extract_lets q r levels u v w
  have hr : r.Ordered := .foldl (fun _ o hx => hx.endEvac e o) _ (h.onEvl _)
  have hu : u.Ordered := hr.of_zones rfl
  have hv : v.Ordered := hu.sweepEvac
  have hw : w.Ordered := .ite (hv.onEvl _) hv
  exact .foldl (fun x o hx => hx.stands (.startHead e o x)) _ hw

/-! ### Stop points and pass ends (R85 to R89) -/

theorem Play.Ordered.afterStop (h : p.Ordered) (e : Env) (o : Out) (en : Entry) : (p.afterStop e o en).Ordered := by
  unfold Play.afterStop
  extract_lets q r
  have hq : q.Ordered := Play.Ordered.of_level
    (h.onZone_same o (f := fun z => { z with lastStop := some ⟨e.elapsed, en.order⟩ }) (fun _ => rfl) fun _ => rfl)
    (Play.fallSilent_only e o _)
  have hr : r.Ordered := .ite (hq.recoverZone e o) (hq.stands (.startHead e o q))
  exact .ite hr (.ite (.ite hr (hr.reofferRestart e)) (.ite (hr.reoffer e o) hr))

theorem Play.Ordered.endDone (h : p.Ordered) (e : Env) (o : Out) (en : Entry) : (p.endDone e o en).Ordered :=
  (((h.withdrawRequest o _).takeOut o en).noteDone en).afterStop e o en

/-- An entry put back in its place with its rank. -/
theorem Play.Ordered.putBack (h : p.Ordered) {o : Out} {en back : Entry} (hmem : en.rank ∈ (p.zone o).queue.map Entry.rank)
    (hback : back.rank = en.rank) : (p.onEntry o en.id fun _ => back).Ordered := by
  refine h.onEntries o _ fun x hx hid => hback.trans ?_
  obtain ⟨y, hy, hrank⟩ := List.mem_map.mp hmem
  obtain ⟨_, hdistinct, _⟩ := h.zones o
  have hyid : y.id = x.id := (congrArg Prod.fst hrank).trans (of_decide_eq_true hid).symm
  rw [← hrank, List.inj_on_of_nodup_map hdistinct hy hx hyid]

theorem Play.Stands.rank_mem {q : Play} (h : p.Stands q) {o : Out} {en : Entry} (hmem : en ∈ (p.zone o).queue) :
    en.rank ∈ (q.zone o).queue.map Entry.rank := by
  obtain ⟨y, hy, st, rfl, _⟩ : ∃ y ∈ (q.zone o).queue, en.StillWaits y := forall₂_source (h.entries o).flip hmem
  exact List.mem_map.mpr ⟨_, hy, rfl⟩

theorem Play.Ordered.settleStop (h : p.Ordered) (e : Env) {o : Out} {en : Entry} (c : StopCause)
    (hmem : en ∈ (p.zone o).queue) : (p.settleStop e o en c).Ordered := by
  unfold Play.settleStop
  extract_lets q drop back u r
  have hasked : p.Stands q := .withdrawRequest o _ p
  have hq : q.Ordered := h.stands hasked
  have hdrop : ∀ reason, (drop reason).Ordered := fun reason => (hq.takeOut o en).noteDrop en reason
  refine Play.Ordered.afterStop ?_ e o en
  unfold r
  split
  · exact hdrop _
  · refine .ite ((hq.takeOut o en).noteDone en) (.ite ((hq.unqueue o _).moveAway e o en)
      (.ite (hdrop _) (.ite ?_ (hdrop _))))
    have hu : u.Ordered := (hq.putBack (back := back) (hasked.rank_mem hmem) rfl).tellEntry back _
    exact .ite (hu.dropWaiting e o _ back) hu

theorem Play.Ordered.memberPass (h : p.Ordered) (e : Env) (c : Channel) (whole : Bool) (seg pass : Nat) (o : Out) :
    (p.memberPass e c whole seg pass o).Ordered := by
  unfold Play.memberPass
  split
  · exact h
  · next en hfed =>
    extract_lets moved
    have hmoved : (moved p).Ordered := h.onEntries o _ fun _ _ _ => rfl
    split
    · exact .ite (h.endDone e o en) (hmoved.of_level (Play.computeGain_only e o _ _ _))
    · exact .ite hmoved (.ite (h.endDone e o en) (h.settleStop e _ (Play.fedEntry_mem hfed)))
    · exact h

theorem Play.Ordered.passEnd (h : p.Ordered) (e : Env) (ch : Chan) : (p.passEnd e ch).Ordered := by
  unfold Play.passEnd
  extract_lets q c next
  have hq : q.Ordered := h.of_zones rfl
  refine .ite h ?_
  split
  · exact hq
  · exact hq.stands (.endProbe e _ q)
  · have hmembers := hq.foldl (fun x o hx => hx.memberPass e c (q.wholeAfter c) (next.getD c.seg)
      (if next.isSome = true then 0 else c.pass + 1) o) (outsOf c.members)
    exact .ite (hmembers.onChan ch _) hmembers

theorem Play.Ordered.memberStop (h : p.Ordered) (e : Env) (c : Channel) (o : Out) : (p.memberStop e c o).Ordered := by
  unfold Play.memberStop
  split
  · exact h
  · next en hfed =>
    split
    · extract_lets q
      have hq : q.Ordered := h.onEntries o _ fun _ _ _ => rfl
      exact .ite (.ite (hq.of_level (Play.computeGain_only e o _ _ _)) hq)
        (h.settleStop e _ (Play.fedEntry_mem hfed))
    · exact h

theorem Play.Ordered.stopPoint (h : p.Ordered) (e : Env) (ch : Chan) : (p.stopPoint e ch).Ordered :=
  .ite h (.foldl (fun _ o hx => hx.memberStop e _ o) _ (h.takeBoundary e))

/-! ### Removals (R91, R93, R94, R118) -/

theorem Play.Ordered.removeIn (h : p.Ordered) (e : Env) (sel : Entry → Bool) (r : DropReason) (stop : Bool) (o : Out) :
    (p.removeIn e sel r stop o).Ordered := by
  refine (h.dropAll e o r _).onEntries o _ fun x _ _ => ?_
  split
  · exact x.addCause_rank _
  · rfl

theorem Play.Ordered.removeAll (h : p.Ordered) (e : Env) (sel : Entry → Bool) (r : DropReason) (stop : Bool) :
    (p.removeAll e sel r stop).Ordered := .foldl (fun _ o hx => hx.removeIn e sel r stop o) _ h

theorem Play.Ordered.dropAllWaiting (h : p.Ordered) (e : Env) (sel : Entry → Bool) (r : DropReason) :
    (p.dropAllWaiting e sel r).Ordered := .foldl (fun _ o hx => hx.dropAll e o r _) _ h

theorem Play.Ordered.removeCalls (h : p.Ordered) (e : Env) (sel : Option ServiceKey → Option (BitVec 8) → Bool)
    (stop : Bool) : (p.removeCalls e sel stop).Ordered := (h.removeAll e _ .callEnded stop).onNet _

theorem Play.Ordered.withdraw (h : p.Ordered) (e : Env) (env : Envelope) (f : WithdrawFrame) :
    (p.withdraw e env f).Ordered := by
  unfold Play.withdraw
  extract_lets sel removed q r
  have hr : r.Ordered := .foldl (fun _ o hx => hx.removeIn e _ _ _ o) _ (h.onPauCounts _)
  exact .ite h (.ite hr (hr.onNet _))

/-! ### Faulted zones (R96 to R101, R155, R158) -/

theorem Play.Ordered.faultZone (h : p.Ordered) (e : Env) (o : Out) : (p.faultZone e o).Ordered := by
  unfold Play.faultZone
  extract_lets z dropped q r u v waiting
  split
  · exact (h.dropAll e o _ _).onEntries o _ fun x _ _ => x.addCause_rank _
  · have hq : q.Ordered := h.onZone_same o (fun _ => rfl) fun _ => rfl
    have hr : r.Ordered := hq.stands (.abortSurvey e o _ q)
    have hu : u.Ordered := .ite (hr.of_zones rfl) hr
    have hv : v.Ordered := hu.onEntries o _ fun x _ _ => x.addCause_rank _
    exact .ite h (.foldl (fun _ en hx => ((hx.withdrawRequest o _).unqueue o _).moveAway e o en) _ hv)

theorem Play.Ordered.statusChanged (h : p.Ordered) (e : Env) (o : Out) : (p.statusChanged e o).Ordered := by
  have hzone : (if p.lineDown o = true then p.faultZone e o else p.recoverZone e o).Ordered :=
    .ite (h.faultZone e o) (h.recoverZone e o)
  unfold Play.statusChanged
  dsimp only
  split
  · exact hzone.fault e _ _
  · exact hzone

theorem Play.Ordered.supervisionWord (h : p.Ordered) (e : Env) (o : Out) (w : SupWord) :
    (p.supervisionWord e o w).Ordered := by
  have hword : (p.onLine o fun l => l.takeWord w).Ordered := h.onLine o _
  exact .ite h (.ite (h.onLsu _) (.ite hword (hword.statusChanged e o)))

theorem Play.Ordered.endCycleAt (h : p.Ordered) (e : Env) (o : Out) : (p.endCycleAt e o).Ordered := by
  unfold Play.endCycleAt
  extract_lets l q r u
  have hq : q.Ordered := h.of_zones rfl
  have hr : r.Ordered := hq.of_zones rfl
  have hu : u.Ordered := .ite hr (hr.recoverZone e o)
  exact .ite (.ite (hu.fault e _ _) hr) hq

theorem Play.Ordered.cycleEnd (h : p.Ordered) (e : Env) : (p.cycleEnd e).Ordered :=
  (Play.Ordered.foldl (fun _ o hx => hx.endCycleAt e o) allOuts h).onLsu _

/-! ### Entry to RUNNING and the soft restart (R103, R105, R189, R191) -/

theorem Play.Ordered.startZone (h : p.Ordered) (e : Env) (o : Out) : (p.startZone e o).Ordered := by
  unfold Play.startZone
  split
  · exact h.onZone_same o (fun _ => rfl) fun _ => rfl
  · exact (h.dropAll e o _ _).onEntries o _ fun x _ _ => x.addCause_rank _

theorem Play.Ordered.startSurvey (h : p.Ordered) (e : Env) (o : Out) : (p.startSurvey e o).Ordered := by
  unfold Play.startSurvey
  split
  · exact h.of_zones rfl
  · exact h

theorem Play.Ordered.startLevel (h : p.Ordered) (e : Env) (o : Out) : (p.startLevel e o).Ordered := by
  unfold Play.startLevel
  extract_lets playing
  split
  · extract_lets q
    have hq : q.Ordered := h.of_zones rfl
    exact .ite (hq.of_level (Play.computeGain_only e o _ _ q)) hq
  · exact h.of_zones rfl

theorem Play.Ordered.start (h : p.Ordered) (e : Env) (lock : Bool) : (p.start e lock).Ordered := by
  unfold Play.start
  extract_lets q r u v w x
  have hq : q.Ordered := .foldl (fun _ o hx => hx.startZone e o) _ h
  have hr : r.Ordered := .foldl (fun _ o hx => hx.startSurvey e o) _ hq
  have hu : u.Ordered := .foldl (fun _ o hx => hx.startLevel e o) _ hr
  have hv : v.Ordered := .foldl (fun _ o hx => hx.onLine o _) _ hu
  have hx : x.Ordered := (hv.onLsu _).reofferAll e
  exact hx.onNet _

theorem Play.Ordered.restartZone (h : p.Ordered) (e : Env) (o : Out) : (p.restartZone e o).Ordered :=
  ((h.dropAll e o _ _).onEntries o _ fun x _ _ => x.addCause_rank _).stands (.abortSurvey e o _ _)

theorem Play.Ordered.restart (h : p.Ordered) (e : Env) : (p.restart e).Ordered := by
  unfold Play.restart
  extract_lets q r u levels v w
  have hr : r.Ordered := .foldl (fun _ o hx => hx.restartZone e o) _ (h.onCfu _)
  clear_value r
  have hu : u.Ordered := hr.sweepEvac
  have hv : v.Ordered := hu.of_zones rfl
  have hw : w.Ordered := hv.onNet _
  exact .ite hw (hw.reofferRestart e)

theorem Play.Ordered.shiftInstants (h : p.Ordered) (by_ : Day) : (p.shiftInstants by_).Ordered := ⟨fun o => by
  obtain ⟨_, _, hqueue⟩ := Play.shiftInstants_frame by_ p
  have hnext : ((p.shiftInstants by_).zone o).nextOrder = (p.zone o).nextOrder := by
    unfold Play.shiftInstants
    rw [Play.onNet_zone]
    simp only [Play.zone, mapIdx_get]
  refine (h.zones o).of_sublist ?_ hnext
  rw [hqueue, List.map_map]
  exact List.Sublist.refl _⟩

/-! ### The body store (R66 to R72, R115) -/

theorem Play.Ordered.obtainSlot (h : p.Ordered) (e : Env) (cls : AnnClass) : (p.obtainSlot e cls).2.Ordered := by
  unfold Play.obtainSlot
  split
  · exact h
  · split
    · exact h
    · extract_lets q
      have hq : q.Ordered := (h.removeAll e _ .displaced false).onCmuCounts _
      exact hq

theorem Play.Ordered.offerZones (h : p.Ordered) (e : Env) (zones : ZoneSet) (entry : Nat → Entry) :
    (p.offerZones e zones entry).Ordered := by
  refine h.foldl (fun q z hq => ?_) _
  split
  · exact hq.offer e _ _
  · exact hq

theorem Play.expandRequest_zpc (e : Env) (r : Request) (p : Play) : (p.expandRequest e r).2.zpc = p.zpc := by
  unfold Play.expandRequest
  dsimp only
  split_ifs <;> rfl

theorem Play.Ordered.compose (h : p.Ordered) (e : Env) (r : Request) : (p.compose e r).Ordered := by
  have hexpanded := h.of_zones (q := (p.expandRequest e r).2) (by rw [Play.expandRequest_zpc])
  unfold Play.compose
  generalize p.expandRequest e r = expanded at hexpanded ⊢
  obtain ⟨segs, q⟩ := expanded
  dsimp only at hexpanded ⊢
  refine .ite (hexpanded.onCmuCounts _) ?_
  have hobtained := hexpanded.obtainSlot e r.cls
  generalize q.obtainSlot e r.cls = obtained at hobtained ⊢
  obtain ⟨slot, got⟩ := obtained
  cases slot with
  | none => exact hobtained.onCmuCounts _
  | some slot =>
    dsimp only at hobtained ⊢
    have hoffered := ((hobtained.onCmu fun c => { c.hold slot ⟨⟨e.own, got.nextSequence e⟩, r.cls, .own, some r.snap.key,
      some r.snap.epoch, segs, 0⟩ with nextSeq := got.nextSequence e % 2047 + 1 }).onCmuCounts
        fun c => { c with composed := bump c.composed }).offerZones e r.zones
      (newEntry ⟨e.own, got.nextSequence e⟩ r.cls .own (some r.snap.key) (some r.snap.epoch)
        (r.syncTime.map fun t => instantOf r.issued.day t) false (some (r.issued.plus r.expiryMs)))
    exact (Play.Ordered.ite hoffered (hoffered.onNet _)).onCmu _

theorem Play.Ordered.allocateRemote (h : p.Ordered) (e : Env) (f : AnnounceFrame) : (p.allocateRemote e f).2.Ordered := by
  have hchecked := h.of_zones (q := (p.checkRemote e f).2) (by rw [Play.checkRemote_zpc])
  unfold Play.allocateRemote
  split
  · exact h
  · generalize p.checkRemote e f = checked at hchecked ⊢
    obtain ⟨segs, q⟩ := checked
    dsimp only at hchecked ⊢
    split
    · exact hchecked.of_zones rfl
    · have hobtained := hchecked.obtainSlot e (classTaken f.cls)
      generalize q.obtainSlot e (classTaken f.cls) = obtained at hobtained ⊢
      obtain ⟨slot, got⟩ := obtained
      cases slot with
      | none => exact hobtained.of_zones rfl
      | some slot => exact hobtained.of_zones rfl

theorem Play.Ordered.tellZones (h : p.Ordered) (f : AnnounceFrame) (zones : List Nat) (o : Outcome) :
    (p.tellZones f zones o).Ordered := .foldl (fun _ _ hq => hq.onNet _) _ h

theorem Play.Ordered.tellNotOwned (h : p.Ordered) (f : AnnounceFrame) (zones : List Nat) :
    (p.tellNotOwned f zones).Ordered := (h.tellZones f zones _).onPauCounts _

theorem Play.Ordered.admitRemote (h : p.Ordered) (e : Env) (src : Nat) (f : AnnounceFrame) (owned others : List Nat) :
    (p.admitRemote e src f owned others).Ordered := by
  unfold Play.admitRemote
  extract_lets cls dropAll
  have hdrop : ∀ (r : DropReason) (count : PauCounts → PauCounts) (q : Play), q.Ordered → (dropAll r count q).Ordered :=
    fun r count q hq => ((hq.tellZones f owned _).onPauCounts count).tellNotOwned f others
  refine .ite (hdrop _ _ _ (h.fault e _ _)) (.ite (hdrop _ _ _ h) (.ite (hdrop _ _ _ h) ?_))
  have hallocated := h.allocateRemote e f
  generalize p.allocateRemote e f = allocated at hallocated ⊢
  obtain ⟨answer, q⟩ := allocated
  cases answer with
  | empty => exact hallocated.onPauCounts _
  | noBody => exact hdrop _ _ _ hallocated
  | body held =>
    exact ((hallocated.offerZones e _ _).onCmu _).tellNotOwned f others

theorem Play.Ordered.announce (h : p.Ordered) (e : Env) (env : Envelope) (f : AnnounceFrame) :
    (p.announce e env f).Ordered :=
  .ite h (.ite (h.tellNotOwned f _) ((h.onPauCounts _).admitRemote e _ f _ _))

end ordered

end Sys2Proof.Machine
end

section
/-! PROOFS. The order of the queues through the acts of a whole state, and that every step keeps it (R78, R80). -/
namespace Sys2Proof.Machine

/-- Every queue of the part is in order (R78, R80). -/
structure State.ZonesOrdered (s : State) : Prop where
  play : s.play.Ordered

section state
variable {s : State}

theorem State.ZonesOrdered.onPlay (h : s.ZonesOrdered) {f : Env → Play → Play}
    (hf : ∀ (e : Env) (p : Play), p.Ordered → (f e p).Ordered) : (s.onPlay f).ZonesOrdered :=
  ⟨hf s.env s.play h.play⟩

/-- What leaves the zones leaves their order. -/
theorem State.ZonesOrdered.of_zones (h : s.ZonesOrdered) {t : State} (hzones : t.play.zpc.zones = s.play.zpc.zones) :
    t.ZonesOrdered := ⟨h.play.of_zones hzones⟩

theorem State.ZonesOrdered.onNet (h : s.ZonesOrdered) (f : Env → Net → Net) : (s.onNet f).ZonesOrdered := h.of_zones rfl

theorem State.ZonesOrdered.onLki (h : s.ZonesOrdered) (f : LinkUnit → LinkUnit) : (s.onLki f).ZonesOrdered := h.of_zones rfl

theorem State.ZonesOrdered.onFlt (h : s.ZonesOrdered) (f : FaultLog → FaultLog) : (s.onFlt f).ZonesOrdered := h.of_zones rfl

theorem State.ZonesOrdered.onCtb (h : s.ZonesOrdered) (f : CallTable → CallTable) : (s.onCtb f).ZonesOrdered := h.of_zones rfl

theorem State.ZonesOrdered.onTgu (h : s.ZonesOrdered) (f : Triggers → Triggers) : (s.onTgu f).ZonesOrdered := h.of_zones rfl

theorem State.ZonesOrdered.onSck (h : s.ZonesOrdered) (f : Clock → Clock) : (s.onSck f).ZonesOrdered := h.of_zones rfl

theorem State.ZonesOrdered.onCfl (h : s.ZonesOrdered) (f : Loader → Loader) : (s.onCfl f).ZonesOrdered := h.of_zones rfl

theorem State.ZonesOrdered.fault (h : s.ZonesOrdered) (k : FaultKind) (source : Nat) :
    (s.onPlay fun e p => p.fault e k source).ZonesOrdered := h.of_zones rfl

theorem State.ZonesOrdered.ite {t : State} {c : Prop} [Decidable c] (h : s.ZonesOrdered) (k : t.ZonesOrdered) :
    (if c then s else t).ZonesOrdered := by
  split
  · exact h
  · exact k

theorem State.ZonesOrdered.foldl {α : Type} {f : State → α → State} (h : s.ZonesOrdered)
    (hf : ∀ (t : State) (a : α), t.ZonesOrdered → (f t a).ZonesOrdered) (l : List α) : (l.foldl f s).ZonesOrdered :=
  List.foldlRecOn (motive := State.ZonesOrdered) l f h fun t ht a _ => hf t a ht

theorem State.ZonesOrdered.when (h : s.ZonesOrdered) (due : Bool) {act : State → State} (hact : (act s).ZonesOrdered) :
    (s.when due act).ZonesOrdered := State.when_keeps h fun _ => hact

theorem State.ZonesOrdered.whenRunning (h : s.ZonesOrdered) {act : State → State} (hact : (act s).ZonesOrdered) :
    (s.whenRunning act).ZonesOrdered := State.whenRunning_keeps h hact

/-- A good frame that an act takes (R179). -/
theorem State.ZonesOrdered.receive (h : s.ZonesOrdered) (env : Envelope) (ok : Bool) {act : State → State}
    (hact : ∀ t : State, t.ZonesOrdered → (act t).ZonesOrdered) : (s.receive env ok act).ZonesOrdered :=
  State.receive_keeps env ok h (fun _ f hu => hu.onLki f) hact

/-- A good frame that an act takes in RUNNING (R179). -/
theorem State.ZonesOrdered.receiveRunning (h : s.ZonesOrdered) (env : Envelope) (ok : Bool) {act : State → State}
    (hact : ∀ t : State, t.ZonesOrdered → (act t).ZonesOrdered) :
    (s.receive env ok fun t => t.whenRunning act).ZonesOrdered :=
  h.receive env ok fun t ht => ht.whenRunning (hact t ht)

/-- The end of a command changes no queue (R117, R172). -/
theorem State.ZonesOrdered.finish (h : s.ZonesOrdered) : s.finish.ZonesOrdered := by
  obtain ⟨hzpc, _⟩ := s.finish_frame
  exact h.of_zones (by rw [hzpc])

@[simp] theorem Play.finishBoundary_zpc (e : Env) (p : Play) : (p.finishBoundary e).zpc = p.zpc := by
  have hgate : ∀ q : Play, q.gateCheck.zpc = q.zpc := fun q => by rw [q.gateCheck_frame.1]
  unfold Play.finishBoundary
  extract_lets q
  rw [hgate]
  split <;> rfl

/-- The end of a command of a block boundary changes no queue (R117, R172). -/
theorem State.ZonesOrdered.finishBoundary (h : s.ZonesOrdered) : s.finishBoundary.ZonesOrdered :=
  h.onPlay fun e p hp => hp.of_zones (by rw [Play.finishBoundary_zpc])

/-! ### Triggers, call events and timetable frames (R4 to R17, R23, R39 to R54) -/

theorem State.ZonesOrdered.issue (h : s.ZonesOrdered) (snap : CallRec) (platforms : List Nat) (t : Fin 32 × Trigger) :
    (s.issue snap platforms t).ZonesOrdered := by
  unfold State.issue
  extract_lets e zones r
  exact .ite (h.onTgu _) (.ite (h.onTgu _) ((h.onTgu _).onPlay fun e p hp => hp.compose e r))

theorem State.ZonesOrdered.issueAll (h : s.ZonesOrdered) (snap : CallRec) (platforms : List Nat)
    (l : List (Fin 32 × Trigger)) : (l.foldl (State.issue snap platforms) s).ZonesOrdered :=
  h.foldl (fun _ t hu => hu.issue snap platforms t) l

theorem State.ZonesOrdered.stateMatch (h : s.ZonesOrdered) (ev : CallEvent) (r : CallRec) (platform : Nat)
    (platforms : List Nat) : (s.stateMatch ev r platform platforms).ZonesOrdered := (h.onTgu _).issueAll r platforms _

theorem State.ZonesOrdered.evaluate (h : s.ZonesOrdered) (i : Fin 96) : (s.evaluate i).ZonesOrdered := by
  unfold State.evaluate
  split
  · split
    · exact h
    · extract_lets time due stale fresh u v
      have hv : v.ZonesOrdered := (h.onTgu _).onCtb _
      exact hv.issueAll _ _ _
  · exact h

theorem State.ZonesOrdered.evaluateAll (h : s.ZonesOrdered) : s.evaluateAll.ZonesOrdered :=
  h.foldl (fun _ i hu => hu.evaluate i) _

theorem State.ZonesOrdered.removeCalls (h : s.ZonesOrdered) (sel : Option ServiceKey → Option (BitVec 8) → Bool)
    (stop : Bool) : (s.onPlay fun e p => p.removeCalls e sel stop).ZonesOrdered :=
  h.onPlay fun e _ hp => hp.removeCalls e sel stop

theorem State.ZonesOrdered.callEvent (h : s.ZonesOrdered) (i : Fin 96) (ev : CallEvent) (changed : Bool)
    (platform : Nat) (platforms : List Nat) : (s.callEvent i ev changed platform platforms).ZonesOrdered := by
  unfold State.callEvent
  split
  · exact h
  · next r _ =>
    extract_lets u v
    have hu : u.ZonesOrdered := .ite (h.removeCalls _ _) h
    have hv : v.ZonesOrdered := hu.stateMatch ev r platform platforms
    exact .ite (hv.onCtb _) (State.ZonesOrdered.evaluate (.ite (hv.onCtb _) hv) i)

theorem State.ZonesOrdered.raise (h : s.ZonesOrdered) (i : Fin 96) (r : CallRec) (ev : CallEvent) (changed : Bool) :
    (s.raise i r ev changed).ZonesOrdered := (h.onCtb _).callEvent _ _ _ _ _

theorem State.ZonesOrdered.alterAway (h : s.ZonesOrdered) (i : Fin 96) (old new : CallRec) :
    (s.alterAway i old new).ZonesOrdered := (h.onCtb _).callEvent _ _ _ _ _

theorem State.ZonesOrdered.move (h : s.ZonesOrdered) (i : Fin 96) (old new : CallRec) :
    (s.move i old new).ZonesOrdered := (h.onCtb _).callEvent _ _ _ _ _

theorem State.ZonesOrdered.retime (h : s.ZonesOrdered) (i : Fin 96) (r : CallRec) : (s.retime i r).ZonesOrdered := by
  unfold State.retime
  extract_lets threshold
  exact .ite (h.raise _ _ _ _) ((h.onCtb _).evaluate i)

theorem State.ZonesOrdered.create (h : s.ZonesOrdered) (r : CallRec) : (s.create r).ZonesOrdered := by
  unfold State.create
  split
  · exact h.raise _ _ _ _
  · extract_lets u
    have hu : u.ZonesOrdered := h.fault _ _
    split
    · exact hu.onCtb _
    · exact ((hu.removeCalls _ _).onCtb _).raise _ _ _ _

theorem State.ZonesOrdered.ignoreFrame (h : s.ZonesOrdered) : s.ignoreFrame.ZonesOrdered := h.of_zones rfl

theorem State.ZonesOrdered.malformedCall (h : s.ZonesOrdered) : s.malformedCall.ZonesOrdered := h.of_zones rfl

theorem State.ZonesOrdered.applySet (h : s.ZonesOrdered) (kind : CallKind) (f : CallSetFrame) (fields : CallFields) :
    (s.applySet kind f fields).ZonesOrdered := by
  unfold State.applySet
  extract_lets covered
  split
  · exact .ite (h.create _) h
  · extract_lets new
    split
    · exact h.ignoreFrame
    · exact h.ignoreFrame
    · exact .ite (h.raise _ _ _ _) (h.onCtb _)
    · exact .ite (h.alterAway _ _ _) (.ite (h.move _ _ _) (.ite (h.onCtb _) (h.retime _ _)))

theorem State.ZonesOrdered.callSet (h : s.ZonesOrdered) (f : CallSetFrame) : (s.callSet f).ZonesOrdered := by
  unfold State.callSet
  split
  · exact h.malformedCall
  · refine .ite h.malformedCall ?_
    split
    · exact h.malformedCall
    · exact h.applySet _ _ _

theorem State.ZonesOrdered.callDelay (h : s.ZonesOrdered) (f : CallDelayFrame) : (s.callDelay f).ZonesOrdered := by
  unfold State.callDelay
  split
  · exact h.malformedCall
  · split
    · exact h
    · exact .ite h.ignoreFrame (.ite h (h.retime _ _))

theorem State.ZonesOrdered.applyPlatform (h : s.ZonesOrdered) (kind : CallKind) (f : CallPlatformFrame)
    (fields : Option CallFields) : (s.applyPlatform kind f fields).ZonesOrdered := by
  unfold State.applyPlatform
  extract_lets covered
  split
  · refine .ite h ?_
    split
    · exact h.create _
    · exact h.ignoreFrame
  · extract_lets new
    split
    · exact h.ignoreFrame
    · exact h.ignoreFrame
    · exact .ite (h.onCtb _) (.ite h.ignoreFrame (h.onCtb _))
    · exact .ite (h.alterAway _ _ _) (.ite h.ignoreFrame (h.move _ _ _))

theorem State.ZonesOrdered.callPlatform (h : s.ZonesOrdered) (f : CallPlatformFrame) :
    (s.callPlatform f).ZonesOrdered := by
  unfold State.callPlatform
  split
  · exact h.malformedCall
  · refine .ite h.malformedCall ?_
    split
    · exact h.applyPlatform _ _ _
    · split
      · exact h.malformedCall
      · exact h.applyPlatform _ _ _

theorem State.ZonesOrdered.callCancel (h : s.ZonesOrdered) (f : CallKeyFields) : (s.callCancel f).ZonesOrdered := by
  unfold State.callCancel
  split
  · exact h.malformedCall
  · split
    · exact h
    · split
      · exact h
      · exact h.ignoreFrame
      · exact h.ignoreFrame
      · exact h.raise _ _ _ _

/-! ### Berth inputs (R18 to R21) -/

theorem State.ZonesOrdered.takeLevel (h : s.ZonesOrdered) (l : BerthLine) (i : Fin 8) (level : Bool)
    {act : State → Nat → State} (hact : ∀ (t : State) (n : Nat), t.ZonesOrdered → (act t n).ZonesOrdered) :
    (s.takeLevel l i level act).ZonesOrdered := by
  unfold State.takeLevel
  extract_lets d u
  have hu : u.ZonesOrdered := h.onCtb _
  exact .ite (.ite (hu.foldl hact _) hu) h

theorem State.ZonesOrdered.approachPlatform (h : s.ZonesOrdered) (n : Nat) : (s.approachPlatform n).ZonesOrdered := by
  unfold State.approachPlatform
  split
  · exact h.raise _ _ _ _
  · exact h.onCtb _

theorem State.ZonesOrdered.atPlatform (h : s.ZonesOrdered) (i : Fin 96) (r : CallRec) :
    (s.atPlatform i r).ZonesOrdered := h.raise _ _ _ _

theorem State.ZonesOrdered.occupyPlatform (h : s.ZonesOrdered) (n : Nat) : (s.occupyPlatform n).ZonesOrdered := by
  unfold State.occupyPlatform
  split
  · next i r _ =>
    extract_lets u
    have hu : u.ZonesOrdered := h.atPlatform i r
    split
    · exact hu
    · split
      · exact .ite (hu.atPlatform _ _) hu
      · exact hu
  · split
    · exact h.atPlatform _ _
    · exact h.fault _ _

theorem State.ZonesOrdered.leavePlatform (h : s.ZonesOrdered) (n : Nat) (i : Fin 96) :
    (s.leavePlatform n i).ZonesOrdered := by
  unfold State.leavePlatform
  split
  · refine .ite ?_ h
    split
    · exact h.raise _ _ _ _
    · exact h.raise _ _ _ _
  · exact h

theorem State.ZonesOrdered.vacatePlatform (h : s.ZonesOrdered) (n : Nat) : (s.vacatePlatform n).ZonesOrdered :=
  h.foldl (fun _ i ht => ht.leavePlatform n i) _

/-! ### The clock (R24, R25, R28 to R37) -/

theorem State.ZonesOrdered.settleQuiet (h : s.ZonesOrdered) : s.settleQuiet.ZonesOrdered := by
  unfold State.settleQuiet
  extract_lets level u
  have hu : u.ZonesOrdered := h.onSck _
  exact .ite h (.ite hu (hu.onPlay fun _ _ hp => hp.refuseAll))

theorem State.ZonesOrdered.wholeSecond (h : s.ZonesOrdered) : s.wholeSecond.ZonesOrdered :=
  (h.onSck _).evaluateAll.onPlay fun e _ hp => hp.surveySecond e

theorem State.ZonesOrdered.setTime (h : s.ZonesOrdered) (day : Day) (time : Nat) : (s.setTime day time).ZonesOrdered :=
  (h.onSck _).settleQuiet

theorem State.ZonesOrdered.secondAfter (h : s.ZonesOrdered) (old : Clock) : (s.secondAfter old).ZonesOrdered :=
  .ite h h.wholeSecond

theorem State.ZonesOrdered.sameDayBeacon (h : s.ZonesOrdered) (src time : Nat) :
    (s.sameDayBeacon src time).ZonesOrdered := by
  unfold State.sameDayBeacon
  extract_lets old offset hold
  have hheld : (hold s).ZonesOrdered := h.onSck _
  refine .ite ((h.setTime _ _).secondAfter _) ?_
  split
  · exact hheld
  · exact .ite (((h.setTime _ _).fault _ _).secondAfter _) hheld

theorem State.ZonesOrdered.otherDayBeacon (h : s.ZonesOrdered) (src : Nat) (day : Day) (time : Nat) :
    (s.otherDayBeacon src day time).ZonesOrdered := by
  unfold State.otherDayBeacon
  extract_lets old diff offset u v w
  have hu : u.ZonesOrdered := h.setTime _ _
  have hv : v.ZonesOrdered := .ite hu (hu.fault _ _)
  have hw : w.ZonesOrdered := State.ZonesOrdered.onPlay (hu.fault _ _) fun _ _ hp => hp.shiftInstants _
  exact .ite (h.onSck _) (.ite (State.ZonesOrdered.secondAfter (hv.onCtb _) _)
    (State.ZonesOrdered.secondAfter ((hw.removeCalls _ _).onCtb _) _))

theorem State.ZonesOrdered.timeBeacon (h : s.ZonesOrdered) (src : Nat) (f : BeaconFrame) :
    (s.timeBeacon src f).ZonesOrdered := by
  unfold State.timeBeacon
  split
  · extract_lets u
    have hu : u.ZonesOrdered := h.onSck _
    refine .ite ?_ hu
    unfold State.sourceBeacon
    extract_lets old v
    have hv : v.ZonesOrdered := hu.onSck _
    exact .ite ((hv.setTime _ _).secondAfter _) (.ite (hv.sameDayBeacon _ _) (hv.otherDayBeacon _ _ _))
  · exact h

theorem State.ZonesOrdered.dayEnd (h : s.ZonesOrdered) : s.dayEnd.ZonesOrdered :=
  State.ZonesOrdered.wholeSecond ((h.onSck _).onCtb _)

theorem State.ZonesOrdered.holdover (h : s.ZonesOrdered) : s.holdover.ZonesOrdered := (h.onSck _).fault _ _

/-! ### Start-up (R75, R105, R125, R186 to R191) -/

theorem State.ZonesOrdered.enterRunning (h : s.ZonesOrdered) (image : Image) (n : Nat) :
    (s.enterRunning image n).ZonesOrdered := by
  have hstarted := ((h.onCfl fun c => { c with load := .running, image := some image, clamped := n }).onTgu
    fun _ => Triggers.reset).onPlay fun e _ hp => hp.start e image.lock
  exact hstarted.settleQuiet

theorem State.ZonesOrdered.leaveLoading (h : s.ZonesOrdered) : s.leaveLoading.ZonesOrdered := by
  rcases s.leaveLoading_cases with ⟨image, n, _, _, _, e⟩ | ⟨cause, _, _, _, e⟩ | ⟨_, e⟩ <;> rw [e]
  · exact h.enterRunning image n
  · exact (h.onCfl fun c => { c with load := .unconfigured }).fault _ _
  · exact h

theorem Play.Ordered.grantPort {p : Play} (h : p.Ordered) : p.grantPort.Ordered := by
  unfold Play.grantPort
  split
  · exact h
  · split
    · exact h.of_zones rfl
    · exact h

theorem State.ZonesOrdered.settleHeader (h : s.ZonesOrdered) (header : Option LibHeader) :
    (s.settleHeader header).ZonesOrdered := by
  unfold State.settleHeader
  exact .ite (State.ZonesOrdered.leaveLoading ((h.onCfl _).onPlay fun _ _ hp => (hp.onCfu _).grantPort)) h

theorem State.ZonesOrdered.settleConfig (h : s.ZonesOrdered) (r : ConfigResult) : (s.settleConfig r).ZonesOrdered :=
  .ite (h.onCfl _).leaveLoading h

/-- After a power-on reset every queue is empty (R188). -/
theorem State.powerOn_zonesOrdered (s : State) : s.powerOn.ZonesOrdered := by
  obtain ⟨_, hordered, _⟩ := invariantsAtReset
  exact ⟨⟨hordered⟩⟩

theorem State.ZonesOrdered.restartBlocks (h : s.ZonesOrdered) : s.restartBlocks.ZonesOrdered :=
  State.ZonesOrdered.onPlay (((h.onCtb _).onTgu _).onCfl _) fun e _ hp => hp.restart e

/-! ### Maintenance requests (R195, R197, R198) -/

theorem Settled.reply_zonesOrdered {r : Settled} (h : r.state.ZonesOrdered) (head : MaintHead) (code : Nat) :
    (r.reply head code).ZonesOrdered := h.of_zones rfl

/-- A request whose settling keeps the order keeps it. -/
theorem State.ZonesOrdered.maint (h : s.ZonesOrdered) {settle : State → Settled}
    (hsettle : ∀ t : State, t.ZonesOrdered → (settle t).state.ZonesOrdered) (head : MaintHead) (code : Nat) :
    (s.maint head code settle).ZonesOrdered :=
  h.receive _ _ fun t ht => ht.whenRunning (.ite ht (Settled.reply_zonesOrdered (hsettle t ht) head code))

/-- A query keeps the order. -/
theorem State.ZonesOrdered.query (h : s.ZonesOrdered) {settle : State → Settled} (hsettle : ∀ t, (settle t).state = t)
    (head : MaintHead) (code : Nat) : (s.maint head code settle).ZonesOrdered :=
  h.maint (fun t ht => by rw [hsettle]; exact ht) head code

theorem State.ZonesOrdered.settleClearFault (h : s.ZonesOrdered) (args : List Byte) :
    (settleClearFault args s).state.ZonesOrdered := by
  unfold Sys2Proof.Machine.settleClearFault
  split
  · split
    · next hi => exact h.onFlt fun f => f.clearOne ⟨_, hi⟩
    · split
      · exact h.onFlt FaultLog.clearAll
      · exact h
  · exact h

theorem State.ZonesOrdered.settleSurveyStart (h : s.ZonesOrdered) (args : List Byte) :
    (settleSurveyStart args s).state.ZonesOrdered := by
  refine withOutput_keeps args h fun o => ?_
  split
  · exact h
  · split
    · exact h.onPlay fun e p hp => hp.stands (.beginSurvey e o _ p)
    · exact h.onPlay fun _ p hp => hp.stands (.onSurveyCounts p _)

theorem State.ZonesOrdered.settleSurveyAbort (h : s.ZonesOrdered) (args : List Byte) :
    (settleSurveyAbort args s).state.ZonesOrdered :=
  withOutput_keeps args h fun o => h.onPlay fun e p hp => hp.stands (.abortSurvey e o _ p)

theorem State.ZonesOrdered.settleLimitSet (h : s.ZonesOrdered) (args : List Byte) :
    (settleLimitSet args s).state.ZonesOrdered := by
  unfold Sys2Proof.Machine.settleLimitSet
  dsimp only
  split
  · split
    · exact h
    · split
      · exact h
      · exact h.onPlay fun _ _ hp => hp.onLine _ _
  · exact h

theorem State.ZonesOrdered.settleLimitLock (h : s.ZonesOrdered) (args : List Byte) :
    (settleLimitLock args s).state.ZonesOrdered := withNone_keeps args h (h.onPlay fun _ _ hp => hp.onLsu _)

theorem State.ZonesOrdered.settleRestart (h : s.ZonesOrdered) (args : List Byte) :
    (settleRestart args s).state.ZonesOrdered := by
  refine withNone_keeps args h ?_
  split
  · exact h
  · exact h.onLki fun l => { l with queue := [] }

theorem State.ZonesOrdered.restartRequest (h : s.ZonesOrdered) (head : MaintHead) (args : List Byte) :
    (s.restartRequest head args).ZonesOrdered := by
  refine h.receive _ _ fun t ht => ht.whenRunning (.ite ht ?_)
  have hreply := Settled.reply_zonesOrdered (ht.settleRestart args) head 0x40
  exact .ite hreply.restartBlocks hreply

/-! ### Frames and time (R27, R143, R179, R180) -/

theorem State.ZonesOrdered.discard (h : s.ZonesOrdered) (raw : List Byte) : (s.discard raw).ZonesOrdered := by
  unfold State.discard
  split
  · exact h
  · exact (h.onLki _).onLki _

theorem State.ZonesOrdered.gapReached (h : s.ZonesOrdered) (idle : Nat) : (s.gapReached idle).ZonesOrdered := h.of_zones rfl

theorem State.ZonesOrdered.idle (h : s.ZonesOrdered) : s.idle.ZonesOrdered := by
  unfold State.idle
  split
  · exact h.of_zones rfl
  · exact h.of_zones rfl

/-! ### The commands -/

/-- Every command keeps the order of the queues. -/
theorem exec_keeps_zonesOrdered (i : Instr) (h : s.ZonesOrdered) : ∃ t, exec i s = .next t ∧ t.ZonesOrdered := by
  cases i with
  | powerOnReset => exact ⟨_, rfl, s.powerOn_zonesOrdered⟩
  | headerReadComplete r => exact ⟨_, rfl, (h.settleHeader r).finish⟩
  | headerReadTimeout => exact ⟨_, rfl, (h.when _ (h.settleHeader none)).finish⟩
  | configReadComplete r => exact ⟨_, rfl, (h.settleConfig _).finish⟩
  | configLoadTimeout => exact ⟨_, rfl, (h.when _ (h.settleConfig _)).finish⟩
  | frameDiscard raw => exact ⟨_, rfl, (h.discard raw).finish⟩
  | beacon env f =>
    refine ⟨_, rfl, (h.receive _ _ fun t ht => ?_).finish⟩
    have hbeacon := ht.timeBeacon env.src f
    exact hbeacon.whenRunning (hbeacon.onNet _)
  | callSet env f => exact ⟨_, rfl, (h.receiveRunning _ _ fun _ ht => ht.callSet f).finish⟩
  | callDelay env f => exact ⟨_, rfl, (h.receiveRunning _ _ fun _ ht => ht.callDelay f).finish⟩
  | callPlatform env f => exact ⟨_, rfl, (h.receiveRunning _ _ fun _ ht => ht.callPlatform f).finish⟩
  | callCancel env f => exact ⟨_, rfl, (h.receiveRunning _ _ fun _ ht => ht.callCancel f).finish⟩
  | announce env f =>
    exact ⟨_, rfl, (h.receiveRunning _ _ fun _ ht => ht.onPlay fun e _ hp => hp.announce e env f).finish⟩
  | zoneReport env f => exact ⟨_, rfl, (h.receiveRunning _ _ fun _ ht => ht.onNet _).finish⟩
  | withdraw env f =>
    exact ⟨_, rfl, (h.receiveRunning _ _ fun _ ht => ht.onPlay fun e _ hp => hp.withdraw e env f).finish⟩
  | withdrawDone env f => exact ⟨_, rfl, (h.receiveRunning _ _ fun _ ht => ht.onNet _).finish⟩
  | faultNoticeReceived | maintReplyReceived => exact ⟨_, rfl, (h.receive _ _ fun _ ht => ht).finish⟩
  | queryCall _ args => exact ⟨_, rfl, (h.query (settleQueryCall_state args) _ _).finish⟩
  | queryZone _ args => exact ⟨_, rfl, (h.query (settleQueryZone_state args) _ _).finish⟩
  | queryFault _ args => exact ⟨_, rfl, (h.query (settleQueryFault_state args) _ _).finish⟩
  | querySurvey _ args => exact ⟨_, rfl, (h.query (settleQuerySurvey_state args) _ _).finish⟩
  | queryCounters _ args => exact ⟨_, rfl, (h.query (settleQueryCounters_state args) _ _).finish⟩
  | maintRequestUnknown => exact ⟨_, rfl, (h.query (fun _ => rfl) _ _).finish⟩
  | clearFault _ args => exact ⟨_, rfl, (h.maint (fun _ ht => ht.settleClearFault args) _ _).finish⟩
  | surveyStart _ args => exact ⟨_, rfl, (h.maint (fun _ ht => ht.settleSurveyStart args) _ _).finish⟩
  | surveyAbort _ args => exact ⟨_, rfl, (h.maint (fun _ ht => ht.settleSurveyAbort args) _ _).finish⟩
  | limitSet _ args => exact ⟨_, rfl, (h.maint (fun _ ht => ht.settleLimitSet args) _ _).finish⟩
  | limitLock _ args => exact ⟨_, rfl, (h.maint (fun _ ht => ht.settleLimitLock args) _ _).finish⟩
  | restart head args => exact ⟨_, rfl, (h.restartRequest head args).finish⟩
  | linkFrameBegin => exact ⟨_, rfl, h.onLki _⟩
  | transmitGapReached idle => exact ⟨_, rfl, h.gapReached idle⟩
  | frameSent => exact ⟨_, rfl, h.onNet _⟩
  | beaconDue => exact ⟨_, rfl, h.when _ (h.onNet _)⟩
  | stationDayEnd => exact ⟨_, rfl, (h.when _ h.dayEnd).finish⟩
  | wholeSecond => exact ⟨_, rfl, (h.when _ h.wholeSecond).finish⟩
  | heardEntryExpire => exact ⟨_, rfl, h.when _ (h.onSck _)⟩
  | holdoverTimeout => exact ⟨_, rfl, h.when _ h.holdover⟩
  | quietHoursChange => exact ⟨_, rfl, h.settleQuiet⟩
  | ownerEntryExpire => exact ⟨_, rfl, h.onNet _⟩
  | reportDeadline id => exact ⟨_, rfl, h.when _ (h.onNet _)⟩
  | originationExpire id => exact ⟨_, rfl, h.when _ (h.onNet _)⟩
  | berthInputChange => exact ⟨_, rfl, h.onCtb _⟩
  | approachAssert i => exact ⟨_, rfl, (h.takeLevel _ _ _ fun _ n ht => ht.approachPlatform n).finish⟩
  | approachClear i => exact ⟨_, rfl, h.takeLevel _ _ _ fun _ _ ht => ht⟩
  | occupancyAssert i => exact ⟨_, rfl, (h.takeLevel _ _ _ fun _ n ht => ht.occupyPlatform n).finish⟩
  | occupancyClear i => exact ⟨_, rfl, (h.takeLevel _ _ _ fun _ n ht => ht.vacatePlatform n).finish⟩
  | retireSecond => exact ⟨_, rfl, h.when _ (h.onCtb _)⟩
  | syncStartReached id => exact ⟨_, rfl, (h.onPlay fun e _ hp => hp.askAll e id).finish⟩
  | blockReadComplete r => exact ⟨_, rfl, (h.onPlay fun e _ hp => hp.blockRead e r).finish⟩
  | directoryReadComplete r => exact ⟨_, rfl, (h.onPlay fun e _ hp => hp.directoryRead e r).finish⟩
  | channelStart c => exact ⟨_, rfl, (h.onPlay fun e _ hp => hp.channelStart e c).finishBoundary⟩
  | channelBlockAdvance c => exact ⟨_, rfl, (h.onPlay fun e _ hp => hp.blockAdvance e c).finishBoundary⟩
  | passEnd c => exact ⟨_, rfl, (h.onPlay fun e _ hp => hp.passEnd e c).finishBoundary⟩
  | stopPointReached c => exact ⟨_, rfl, (h.onPlay fun e _ hp => hp.stopPoint e c).finishBoundary⟩
  | expiryReached id => exact ⟨_, rfl, (h.onPlay fun e _ hp => hp.dropAllWaiting e _ _).finish⟩
  | syncWindowClose id => exact ⟨_, rfl, (h.onPlay fun e _ hp => hp.dropAllWaiting e _ _).finish⟩
  | windowEnd sums => exact ⟨_, rfl, (h.when _ (h.onPlay fun e _ hp => hp.windowEnd e sums)).finishBoundary⟩
  | supervisionWord o w => exact ⟨_, rfl, (h.onPlay fun e _ hp => hp.supervisionWord e o w).finish⟩
  | supervisionCycleEnd => exact ⟨_, rfl, (h.when _ (h.onPlay fun e _ hp => hp.cycleEnd e)).finish⟩
  | autoSurveyRetry o => exact ⟨_, rfl, (h.when _ (h.onPlay fun e p hp => hp.stands (.retryAuto e o p))).finish⟩
  | probeChannelTimeout o => exact ⟨_, rfl, (h.when _ (h.onPlay fun e p hp => hp.stands (.abortSurvey e o _ p))).finish⟩
  | evacInputChange => exact ⟨_, rfl, h.onPlay fun _ _ hp => hp.onEvl _⟩
  | evacAssert => exact ⟨_, rfl, (h.when _ (h.onPlay fun e _ hp => hp.assertEvac e)).finish⟩
  | evacRelease => exact ⟨_, rfl, (h.when _ (h.onPlay fun e _ hp => hp.releaseEvac e)).finish⟩

end state

/-- Settles O56: each command and each idle step keeps every queue within its bound and in its order. -/
theorem zonesStayOrdered : Obligations.ZonesStayOrdered := by
  intro s t hs hstep
  have h : s.ZonesOrdered := ⟨⟨hs⟩⟩
  suffices ht : t.ZonesOrdered from ht.play.zones
  unfold step at hstep
  split at hstep
  · next i rest _ =>
    have hrest : State.ZonesOrdered { s with pending := rest } := h.of_zones rfl
    obtain ⟨u, hu, hordered⟩ := exec_keeps_zonesOrdered i hrest
    cases hu.symm.trans hstep
    exact hordered
  · cases hstep
    exact h.idle

end Sys2Proof.Machine
end

section
/-! PROOFS. What is told of an entry and what a drop counts, and obligation O54: moves to the fallback, redirected offers
and the return from FAULTED (R94, R97 to R101). -/
namespace Sys2Proof.Machine

/-! ### What is told of an entry (R94, R117) -/

/-- Of a REMOTE entry a list of outcomes is told, and of another nothing; nothing else is sent. -/
structure Entry.Tells (en : Entry) (l : List ReportedOutcome) (p q : Play) : Prop where
  silent : (∀ a, en.origin ≠ .remote a) → q.net = p.net
  remote : ∀ a, en.origin = .remote a → q.net = p.net.onPau fun u => { u with outbox := u.outbox ++ l }

section tells
variable {en there : Entry} {l m : List ReportedOutcome} {p q r : Play}

theorem Entry.Tells.outbox (h : en.Tells l p q) :
    ((∀ a, en.origin ≠ .remote a) → q.net = p.net) ∧
    ∀ a, en.origin = .remote a → q.net.pau.outbox = p.net.pau.outbox ++ l :=
  ⟨h.silent, fun a ha => by rw [h.remote a ha]; rfl⟩

theorem Entry.Tells.trans (h : en.Tells l p q) (k : en.Tells m q r) : en.Tells (l ++ m) p r := by
  refine ⟨fun hlocal => (k.silent hlocal).trans (h.silent hlocal), fun a ha => ?_⟩
  rw [k.remote a ha, h.remote a ha]
  simp only [Net.onPau, List.append_assoc]

theorem Entry.Tells.of_origin (horigin : there.origin = en.origin) (h : there.Tells l p q) : en.Tells l p q :=
  ⟨horigin ▸ h.silent, horigin ▸ h.remote⟩

/-- Operations before and after the telling that send nothing. -/
theorem Entry.Tells.of_net {p' q' : Play} (h : en.Tells l p q) (hp : p'.net = p.net) (hq : q'.net = q.net) :
    en.Tells l p' q' := by
  refine ⟨fun hlocal => ?_, fun a ha => ?_⟩
  · rw [hq, hp, h.silent hlocal]
  · rw [hq, hp, h.remote a ha]

theorem Entry.Tells.tellEntry (en : Entry) (out : Outcome) (p : Play) :
    en.Tells [⟨en.id, en.cls, en.reported, out⟩] p (p.tellEntry en out) := by
  rcases p.tellEntry_cases en out with ⟨hlocal, heq⟩ | ⟨⟨a, ha⟩, heq⟩
  · exact ⟨fun _ => by rw [heq], fun a ha => absurd ha (hlocal a)⟩
  · exact ⟨fun hlocal => absurd ha (hlocal a), fun _ _ => by rw [heq]; rfl⟩

theorem Entry.Tells.noteDrop (en : Entry) {reason : DropReason} (h : reason ≠ .restart) (p : Play) :
    en.Tells [⟨en.id, en.cls, en.reported, .dropped (reasonCode reason)⟩] p (p.noteDrop en reason) := by
  unfold Play.noteDrop
  rw [if_neg h]
  exact (Entry.Tells.tellEntry en _ (p.countDrop reason)).of_net rfl rfl

end tells

/-! ### Settled offers (R79, R97) -/

section offers
variable {e : Env} {p : Play} {o : Out} {en : Entry} {welcome : Play → Play} {refuse : DropReason → Play → Play}

theorem Play.settleOffer_of_expired (h : e.expired en = true) :
    p.settleOffer e o en welcome refuse = refuse .expired p := if_pos h

theorem Play.settleOffer_of_room (hlive : e.expired en = false) (hroom : (p.zone o).queue.length < 8) :
    p.settleOffer e o en welcome refuse = (welcome p).enterZone e o en := by
  unfold Play.settleOffer
  rw [if_neg (by rw [hlive]; exact Bool.false_ne_true), if_neg (by omega)]

/-- An entry that enters a zone stands in its queue, QUEUED or STARTING, under the zone's next arrival order (R77, R79). -/
theorem Play.mem_enterZone (e : Env) (o : Out) (en : Entry) (p : Play) :
    ∃ x ∈ ((p.enterZone e o en).zone o).queue, { x with state := .queued } =
      { en with order := (p.zone o).nextOrder, state := .queued, seg := 0, pass := 0 } ∧
      (x.state = .queued ∨ x.state = .starting) := by
  refine Entry.StillWaits.exists_of_mem ((Play.Stands.enterZone e o en p).entries o)
    (x := { en with order := (p.zone o).nextOrder, state := .queued, seg := 0, pass := 0 }) ?_ rfl
  rw [Play.onZone_zone_self]
  exact (mem_insertEntry _ _ _).mpr (Or.inl rfl)

/-- Entering a zone sends, counts and stores nothing. -/
theorem Play.enterZone_beside_zones (e : Env) (o : Out) (en : Entry) (p : Play) :
    (p.enterZone e o en).net = p.net ∧ (p.enterZone e o en).cmu = p.cmu ∧
      (p.enterZone e o en).zpc.counts = p.zpc.counts := by
  have h := Play.Stands.enterZone e o en p
  exact ⟨h.net, h.cmu, h.counts⟩

theorem Play.fallback_eq_some_iff (e : Env) (p : Play) (o : Out) (id : AnnId) (f : Out) (z : Nat) :
    p.fallback e o id = some (f, z) ↔
      ∃ c, e.zoneCfg o = some c ∧ c.fallback = some f ∧ (p.zone f).id = some z ∧ (p.zone f).faulted = false ∧
        ∀ x ∈ (p.zone f).queue, x.id ≠ id := by
  constructor
  · intro h
    obtain ⟨hz, hfaulted, hnew⟩ := Play.fallback_some h
    unfold Play.fallback at h
    split at h
    · cases h
    · next c hc =>
      split at h
      · cases h
      · next k hk =>
        split at h
        · cases h
        · split at h
          · cases h
          · cases h
            exact ⟨c, hc, hk, hz, hfaulted, hnew⟩
  · rintro ⟨c, hc, hf, hz, hfaulted, hnew⟩
    have hfree : ((p.zone f).faulted || (p.zone f).queue.any fun x => decide (x.id = id)) = false := by
      rw [hfaulted, Bool.false_or, List.any_eq_false]
      exact fun x hx hid => hnew x hx (of_decide_eq_true hid)
    unfold Play.fallback
    simp only [hc, hf, hz, hfree, Bool.false_eq_true, if_false]

/-! ### Moves and redirected offers (R98 to R100) -/

/-- A moved entry that is dropped gives up its reference and is counted under its reason (R98, R99). -/
theorem Play.releaseRef_noteDrop_zpc (en : Entry) (r : DropReason) (p : Play) :
    ((p.releaseRef en).noteDrop en r).zpc = { p.zpc with counts := p.zpc.counts.countDrop r } := by
  obtain ⟨_, hzpc, _⟩ := p.releaseRef_frame en
  rw [(Play.noteDrop_frame en r _).1, hzpc]

theorem Entry.Tells.releaseRef_noteDrop (en : Entry) {r : DropReason} (h : r ≠ .restart) (p : Play) :
    en.Tells [⟨en.id, en.cls, en.reported, .dropped (reasonCode r)⟩] p ((p.releaseRef en).noteDrop en r) :=
  (Entry.Tells.noteDrop en h _).of_net (p.releaseRef_frame en).1.symm rfl

theorem Play.moveAway_of_stale (h : en.stale = true) :
    p.moveAway e o en = (p.releaseRef en).noteDrop en .callEnded := if_pos h

theorem Play.moveAway_of_none (hstale : en.stale = false) (h : p.fallback e o en.id = none) :
    p.moveAway e o en = (p.releaseRef en).noteDrop en .zoneFault := by
  simp only [Play.moveAway, hstale, h, Bool.false_eq_true, if_false]

theorem Play.moveAway_of_some {f : Out} {z : Nat} (hstale : en.stale = false) (h : p.fallback e o en.id = some (f, z)) :
    p.moveAway e o en = (p.tellEntry en (.redirected z)).settleOffer e f { en with reported := z } id
      fun r p => (p.releaseRef { en with reported := z }).noteDrop { en with reported := z } r := by
  simp only [Play.moveAway, hstale, h, Bool.false_eq_true, if_false]

theorem Play.redirect_of_none (h : p.fallback e o en.id = none) : p.redirect e o en = p.noteDrop en .zoneFault := by
  simp only [Play.redirect, h]

theorem Play.redirect_of_some {f : Out} {z : Nat} (h : p.fallback e o en.id = some (f, z)) :
    p.redirect e o en = p.settleOffer e f { en with reported := z }
      (fun p => (p.addRef { en with reported := z }).tellEntry en (.redirected z)) fun _ p => p.noteDrop en .zoneFault := by
  simp only [Play.redirect, h]

/-- A moved entry that the fallback takes brings its reference with it (R98, R99). -/
theorem Play.moveAway_of_room {f : Out} {z : Nat} (hstale : en.stale = false) (h : p.fallback e o en.id = some (f, z))
    (hlive : e.expired en = false) (hroom : (p.zone f).queue.length < 8) :
    p.moveAway e o en = (p.tellEntry en (.redirected z)).enterZone e f { en with reported := z } := by
  rw [Play.moveAway_of_some hstale h]
  exact Play.settleOffer_of_room hlive (by rw [Play.zone_of_zpc (Play.tellEntry_zpc en _ p)]; exact hroom)

/-- An offer that the fallback takes is a new reference (R100). -/
theorem Play.redirect_of_room {f : Out} {z : Nat} (h : p.fallback e o en.id = some (f, z))
    (hlive : e.expired en = false) (hroom : (p.zone f).queue.length < 8) :
    p.redirect e o en =
      ((p.addRef { en with reported := z }).tellEntry en (.redirected z)).enterZone e f { en with reported := z } := by
  rw [Play.redirect_of_some h]
  exact Play.settleOffer_of_room hlive hroom

theorem Play.moveAway_of_expired {f : Out} {z : Nat} (hstale : en.stale = false) (h : p.fallback e o en.id = some (f, z))
    (hexpired : e.expired en = true) :
    p.moveAway e o en = ((p.tellEntry en (.redirected z)).releaseRef { en with reported := z }).noteDrop
      { en with reported := z } .expired := by
  rw [Play.moveAway_of_some hstale h]
  exact Play.settleOffer_of_expired hexpired

theorem Play.redirect_of_expired {f : Out} {z : Nat} (h : p.fallback e o en.id = some (f, z))
    (hexpired : e.expired en = true) : p.redirect e o en = p.noteDrop en .zoneFault := by
  rw [Play.redirect_of_some h]
  exact Play.settleOffer_of_expired hexpired

/-- The count of a body goes by the id and the class of its entry (R69). -/
theorem Play.addRef_reported (en : Entry) (z : Nat) (p : Play) : p.addRef { en with reported := z } = p.addRef en := rfl

end offers

/-! ### Which zones are FAULTED (R96, R101) -/

section faulted
variable {e : Env} {p : Play} {o : Out} {en : Entry}

/-- A taken offer changes the queues no more than its body's count and its report do. -/
theorem Play.Beside.welcome (there : Entry) (out : Outcome) (q : Play) :
    q.Beside o ((q.addRef there).tellEntry en out) :=
  .of_zpc (by rw [Play.tellEntry_zpc, Play.addRef_zpc]) o

theorem Play.noteDrop_faulted (r : DropReason) (k : Out) : ((p.noteDrop en r).zone k).faulted = (p.zone k).faulted :=
  (Play.SameRefs.noteDrop en r p).faulted k

theorem Play.redirect_faulted (k : Out) : ((p.redirect e o en).zone k).faulted = (p.zone k).faulted := by
  cases h : p.fallback e o en.id with
  | none =>
    rw [Play.redirect_of_none h]
    exact Play.noteDrop_faulted _ k
  | some x =>
    rw [Play.redirect_of_some (f := x.1) (z := x.2) h]
    exact (Play.settleOffer_beside e (.welcome _ _) fun _ => (Play.SameRefs.noteDrop en _ p).beside _).faulted k

theorem Play.settleNew_faulted (k : Out) : ((p.settleNew e o en).zone k).faulted = (p.zone k).faulted :=
  (Play.settleOffer_beside e (.welcome _ _) fun _ => (Play.SameRefs.noteDrop en _ p).beside _).faulted k

/-- An offer makes no zone FAULTED and brings none back (R79). -/
theorem Play.offer_faulted (k : Out) : ((p.offer e o en).zone k).faulted = (p.zone k).faulted := by
  unfold Play.offer
  dsimp only
  split
  · split
    · exact Play.noteDrop_faulted _ k
    · split
      · rfl
      · split
        · exact Play.noteDrop_faulted _ k
        · exact Play.settleNew_faulted k
  · split
    · rfl
    · split
      · exact Play.redirect_faulted k
      · exact Play.settleNew_faulted k

theorem Play.fillEvac_zpc : (p.fillEvac e).zpc = p.zpc := by
  unfold Play.fillEvac
  split <;> rfl

theorem Play.reoffer_faulted (k : Out) : ((p.reoffer e o).zone k).faulted = (p.zone k).faulted := by
  have hfilled := Play.zone_of_zpc (Play.fillEvac_zpc (e := e) (p := p)) k
  unfold Play.reoffer Play.offerEvac
  split
  · rw [Play.offer_faulted, hfilled]
  · rw [hfilled]

/-- A FAULTED zone returns when its line is up and nothing in it sounds (R101). -/
theorem Play.recoverZone_faulted (hline : p.lineDown o = false) (hstill : ∀ x ∈ (p.zone o).queue, x.sounding = false) :
    ((p.recoverZone e o).zone o).faulted = false := by
  cases hfaulted : (p.zone o).faulted with
  | false =>
    unfold Play.recoverZone
    rw [if_neg (by rw [hfaulted, Bool.false_and, Bool.false_and]; exact Bool.false_ne_true)]
    exact hfaulted
  | true =>
    have hsilent : (p.zone o).queue.any Entry.sounding = false :=
      List.any_eq_false.mpr fun x hx => by rw [hstill x hx]; exact Bool.false_ne_true
    unfold Play.recoverZone
    extract_lets z q r
    rw [if_pos (by rw [hfaulted, hline, hsilent]; rfl), (Play.Stands.startHead e o r).faulted]
    have hq : (q.zone o).faulted = false := by rw [Play.onZone_zone_self]
    have hr : (r.zone o).faulted = (q.zone o).faulted := by
      by_cases hactive : q.evl.active = true
      · rw [show r = q.reoffer e o from if_pos hactive, Play.reoffer_faulted]
      · rw [show r = q from if_neg hactive]
    rw [hr, hq]

/-- A FAULTED zone whose line is down, or in which something sounds, stays as it is (R101). -/
theorem Play.recoverZone_of_held (h : p.lineDown o = true ∨ ∃ x ∈ (p.zone o).queue, x.sounding = true) :
    p.recoverZone e o = p := by
  refine if_neg fun hfree => ?_
  simp only [Bool.and_eq_true, Bool.not_eq_true', List.any_eq_false] at hfree
  obtain ⟨⟨_, hline⟩, hsilent⟩ := hfree
  rcases h with hdown | ⟨x, hx, hsounds⟩
  · rw [hline] at hdown
    exact Bool.false_ne_true hdown
  · exact hsilent x hx hsounds

end faulted

/-- Settles O54: each fallback, move and redirection by the equation of its case, a taken entry through what entering a
zone leaves of its queue. -/
theorem faultedZonesMove : Obligations.FaultedZonesMove := by
  unfold Obligations.FaultedZonesMove
  intro e p o en
  refine ⟨fun f z => Play.fallback_eq_some_iff e p o en.id f z, fun hstale => ?_, fun hnone hstale => ?_, fun hnone => ?_,
    fun f z hsome => ⟨fun hexpired => ?_, fun hlive hroom => ?_⟩,
    fun _ => ⟨Play.recoverZone_of_held, Play.recoverZone_faulted⟩⟩
  · rw [Play.moveAway_of_stale hstale]
    exact ⟨Play.releaseRef_noteDrop_zpc en .callEnded p, (Entry.Tells.releaseRef_noteDrop en (by decide) p).outbox⟩
  · rw [Play.moveAway_of_none hstale hnone]
    exact ⟨Play.releaseRef_noteDrop_zpc en .zoneFault p, (Entry.Tells.releaseRef_noteDrop en (by decide) p).outbox⟩
  · rw [Play.redirect_of_none hnone]
    obtain ⟨hzpc, hcmu, hcfu, _⟩ := Play.noteDrop_frame en .zoneFault p
    exact ⟨hzpc, hcmu, hcfu, (Entry.Tells.noteDrop en (by decide) p).outbox⟩
  · refine ⟨fun hstale => ?_, ?_⟩
    · rw [Play.moveAway_of_expired hstale hsome hexpired, Play.releaseRef_noteDrop_zpc, Play.tellEntry_zpc]
      have hdropped := Entry.Tells.of_origin (en := en) (there := { en with reported := z }) rfl
        (Entry.Tells.releaseRef_noteDrop _ (r := .expired) (by decide) (p.tellEntry en (.redirected z)))
      exact ⟨rfl, ((Entry.Tells.tellEntry en (.redirected z) p).trans hdropped).outbox⟩
    · rw [Play.redirect_of_expired hsome hexpired]
      exact ⟨(Play.noteDrop_frame en .zoneFault p).1, (Entry.Tells.noteDrop en (by decide) p).outbox⟩
  · refine ⟨fun hstale => ?_, ?_⟩
    · rw [Play.moveAway_of_room hstale hsome hlive hroom]
      have hzpc := Play.tellEntry_zpc en (.redirected z) p
      obtain ⟨hnet, hcmu, hcounts⟩ :=
        Play.enterZone_beside_zones e f { en with reported := z } (p.tellEntry en (.redirected z))
      have hmem := Play.mem_enterZone e f { en with reported := z } (p.tellEntry en (.redirected z))
      rw [Play.zone_of_zpc hzpc] at hmem
      exact ⟨hcmu.trans (Play.tellEntry_cmu en _ p), hcounts.trans (congrArg Playout.counts hzpc), hmem,
        ((Entry.Tells.tellEntry en (.redirected z) p).of_net rfl hnet).outbox⟩
    · rw [Play.redirect_of_room hsome hlive hroom, Play.addRef_reported]
      have hzpc := (Play.tellEntry_zpc en (.redirected z) (p.addRef en)).trans (Play.addRef_zpc en p)
      obtain ⟨hnet, hcmu, hcounts⟩ :=
        Play.enterZone_beside_zones e f { en with reported := z } ((p.addRef en).tellEntry en (.redirected z))
      obtain ⟨x, hx, hentry, _⟩ :=
        Play.mem_enterZone e f { en with reported := z } ((p.addRef en).tellEntry en (.redirected z))
      rw [Play.zone_of_zpc hzpc] at hentry
      exact ⟨hcmu.trans (Play.tellEntry_cmu en _ _), hcounts.trans (congrArg Playout.counts hzpc), ⟨x, hx, hentry⟩,
        ((Entry.Tells.tellEntry en (.redirected z) _).of_net (Play.addRef_net en p).symm hnet).outbox⟩

end Sys2Proof.Machine
end

section
/-! PROOFS. A request for a body that no channel serves, with no request waiting, is granted the FREE channel of lowest
number (R130, R131). -/
namespace Sys2Proof.Machine

/-! ### Feeding a channel (R131, R134, R136) -/

/-- A channel's block and its read may have come, and the port may have been granted: what the channel serves and where
it stands, the other channels, the requests, the zones and the counts are the same. -/
structure Play.Feeds (ch : Chan) (p q : Play) : Prop where
  served : (q.chan ch).served = (p.chan ch).served
  cls : (q.chan ch).cls = (p.chan ch).cls
  members : (q.chan ch).members = (p.chan ch).members
  start : (q.chan ch).start = (p.chan ch).start
  seg : (q.chan ch).seg = (p.chan ch).seg
  pass : (q.chan ch).pass = (p.chan ch).pass
  others : ∀ d, d ≠ ch → q.chan d = p.chan d
  waiting : q.cfu.waiting = p.cfu.waiting
  counts : q.cfu.counts = p.cfu.counts

section feeding
variable {ch : Chan} {p q r : Play}

theorem Play.Feeds.refl (ch : Chan) (p : Play) : p.Feeds ch p :=
  ⟨rfl, rfl, rfl, rfl, rfl, rfl, fun _ _ => rfl, rfl, rfl⟩

theorem Play.Feeds.trans (h : p.Feeds ch q) (k : q.Feeds ch r) : p.Feeds ch r where
  served := k.served.trans h.served
  cls := k.cls.trans h.cls
  members := k.members.trans h.members
  start := k.start.trans h.start
  seg := k.seg.trans h.seg
  pass := k.pass.trans h.pass
  others := fun d hd => (k.others d hd).trans (h.others d hd)
  waiting := k.waiting.trans h.waiting
  counts := k.counts.trans h.counts

/-- A change of the channel that keeps what it serves and where it stands. -/
theorem Play.Feeds.onChan (p : Play) (ch : Chan) {f : Channel → Channel}
    (hf : ∀ c : Channel, (f c).served = c.served ∧ (f c).cls = c.cls ∧ (f c).members = c.members ∧ (f c).start = c.start ∧
      (f c).seg = c.seg ∧ (f c).pass = c.pass) : p.Feeds ch (p.onChan ch f) := by
  obtain ⟨hserved, hcls, hmembers, hstart, hseg, hpass⟩ := hf (p.chan ch)
  have hself := p.onChan_chan_self ch f
  refine ⟨?_, ?_, ?_, ?_, ?_, ?_, fun d hd => ?_, rfl, rfl⟩
  iterate 6 rw [hself]; assumption
  rw [Play.onChan_chan, if_neg hd]

theorem Play.Feeds.fillNext (ch : Chan) (p : Play) : p.Feeds ch (p.fillNext ch) := by
  unfold Play.fillNext
  split
  · refine .onChan p ch fun c => ?_
    unfold Channel.fill
    split <;> exact ⟨rfl, rfl, rfl, rfl, rfl, rfl⟩
  · exact .refl ch p

theorem Play.Feeds.askRead (ch : Chan) (p : Play) : p.Feeds ch (p.askRead ch) := by
  unfold Play.askRead
  dsimp only
  split
  · exact .refl ch p
  · split
    · exact .onChan p ch fun _ => ⟨rfl, rfl, rfl, rfl, rfl, rfl⟩
    · split
      · exact .onChan p ch fun _ => ⟨rfl, rfl, rfl, rfl, rfl, rfl⟩
      · exact .refl ch p

theorem Play.Feeds.grantPort (ch : Chan) (p : Play) : p.Feeds ch p.grantPort := by
  unfold Play.grantPort
  split
  · exact .refl ch p
  · split
    · exact ⟨rfl, rfl, rfl, rfl, rfl, rfl, fun _ _ => rfl, rfl, rfl⟩
    · exact .refl ch p

theorem Play.Feeds.pump (ch : Chan) (p : Play) : p.Feeds ch (p.pump ch) :=
  ((Play.Feeds.fillNext ch p).trans (.askRead ch _)).trans (.grantPort ch _)

end feeding

/-! ### A request with none before it (R130, R131) -/

/-- A channel has been assigned to the request of one output for a body: it serves that output alone, from the start of
the body, and the other channels and the zones are the same. -/
structure Play.Assigns (ch : Chan) (id : AnnId) (cls : AnnClass) (o : Out) (p q : Play) : Prop where
  served : (q.chan ch).served = some (.body id)
  cls : (q.chan ch).cls = cls
  members : outsOf (q.chan ch).members = [o]
  start : (q.chan ch).start = none
  seg : (q.chan ch).seg = 0
  pass : (q.chan ch).pass = 0
  others : ∀ d, d ≠ ch → q.chan d = p.chan d
  assigned : q.cfu.counts.assigned = bump p.cfu.counts.assigned
  zpc : q.zpc = p.zpc

section request
variable {p : Play} {ch : Chan} {id : AnnId} {cls : AnnClass} {o : Out}

theorem Play.findChan_eq_some_iff (p : Play) (test : Channel → Bool) (ch : Chan) :
    p.findChan test = some ch ↔ test (p.chan ch) = true ∧ ∀ d, d < ch → test (p.chan d) = false := by
  have hfirst := find?_eq_some_iff_of_ascending id (fun c : Chan => test (p.chan c)) (List.pairwise_lt_finRange 6) ch
  simpa [Play.findChan, allChans] using hfirst

theorem Play.findChan_eq_none_iff (p : Play) (test : Channel → Bool) :
    p.findChan test = none ↔ ∀ d, test (p.chan d) = false := by
  simp [Play.findChan, allChans, List.find?_eq_none]

theorem outsOf_addOut_zero : ∀ o : Out, outsOf (addOut 0 o) = [o] := by decide

/-- A body that no channel serves is joined by no request (R132). -/
theorem sameBody_eq_false {s : Served} (h : s ≠ .body id) : sameBody s (.body id) = false := by
  cases s with
  | body x => simpa [sameBody, Served.bodyId] using h
  | probe _ _ => rfl

/-- With no request waiting and none to be made, the allocator ends (R130). -/
theorem Play.allocate_nil (n : Nat) (h : p.cfu.waiting = []) : Play.allocate n [] p = p := by
  cases n with
  | zero => rfl
  | succ n =>
    unfold Play.allocate
    split
    · next hcons => rw [h] at hcons; cases hcons
    · simp only [h, List.find?_nil]

/-- With no request waiting, one that reaches the allocator and leaves none waiting is settled at once (R130). -/
theorem Play.allocate_one (n : Nat) (r : ChanRequest) (h : p.cfu.waiting = [])
    (hsettled : (p.newRequest r).cfu.waiting = []) : Play.allocate (n + 1) [r] p = p.newRequest r := by
  unfold Play.allocate
  split
  · next hcons => rw [h] at hcons; cases hcons
  · exact Play.allocate_nil n hsettled

/-- A FREE channel is assigned to a request with no other waiting (R131). -/
theorem Play.assign_assigns (ch : Chan) (r : ChanRequest) (hserved : r.served = .body id)
    (hwaiting : p.cfu.waiting = []) :
    p.Assigns ch id r.cls r.output (p.assign ch r) ∧ (p.assign ch r).cfu.waiting = [] := by
  have hzpc := p.assign_zpc ch r
  revert hzpc
  unfold Play.assign
  extract_lets others left marked q blank u
  intro hzpc
  have hothers : others = [] := by simp only [others, hwaiting, List.filter_nil]
  have hleft : left = [] := by simp only [left, hwaiting, List.filter_nil]
  have hself : u.chan ch = _ := q.onChan_chan_self ch _
  have hfeeds := Play.Feeds.pump ch u
  refine ⟨⟨?_, ?_, ?_, ?_, ?_, ?_, fun d hd => ?_, ?_, hzpc⟩, ?_⟩
  · rw [hfeeds.served, hself, hserved]
  · rw [hfeeds.cls, hself]
  · rw [hfeeds.members, hself, hothers]
    exact outsOf_addOut_zero r.output
  · rw [hfeeds.start, hself]
    rfl
  · rw [hfeeds.seg, hself]
    rfl
  · rw [hfeeds.pass, hself]
    rfl
  · rw [hfeeds.others d hd, Play.onChan_chan, if_neg hd]
    rfl
  · rw [hfeeds.counts]
    rfl
  · rw [hfeeds.waiting]
    show left.map _ = []
    rw [hleft, List.map_nil]

theorem Play.newRequest_of_free (r : ChanRequest) (hbody : r.served = .body id)
    (hserved : ∀ d, (p.chan d).served ≠ some (.body id)) (hfree : (p.chan ch).state = .free)
    (hlow : ∀ d, d < ch → (p.chan d).state ≠ .free) : p.newRequest r = p.assign ch r := by
  have hjoin : (p.findChan fun c => (c.state = .preparing || c.state = .granted) &&
      (c.served.any fun s => sameBody s r.served)) = none := by
    refine (Play.findChan_eq_none_iff p _).mpr fun d => ?_
    have hnone : ((p.chan d).served.any fun s => sameBody s r.served) = false := by
      rw [hbody]
      cases hs : (p.chan d).served with
      | none => rfl
      | some s => exact sameBody_eq_false fun heq => hserved d (by rw [hs, heq])
    rw [hnone, Bool.and_false]
  have hfound : (p.findChan fun c => decide (c.state = .free)) = some ch :=
    (Play.findChan_eq_some_iff p _ ch).mpr ⟨decide_eq_true hfree, fun d hd => decide_eq_false (hlow d hd)⟩
  unfold Play.newRequest
  dsimp only
  rw [hjoin]
  dsimp only
  rw [hfound]

/-- With no request waiting, a request for a body that no channel serves is granted the FREE channel of lowest number
(R130, R131). -/
theorem Play.requestChan_assigns (hwaiting : p.cfu.waiting = []) (hserved : ∀ d, (p.chan d).served ≠ some (.body id))
    (hfree : (p.chan ch).state = .free) (hlow : ∀ d, d < ch → (p.chan d).state ≠ .free) :
    p.Assigns ch id cls o (p.requestChan o cls (.body id)) := by
  unfold Play.requestChan
  extract_lets r
  generalize hq : (p.onCfu fun f => { f with nextSerial := f.nextSerial + 1 }) = q
  have hcounts : q.cfu.counts = p.cfu.counts := by rw [← hq]; rfl
  have hchan : ∀ d, q.chan d = p.chan d := fun d => by rw [← hq]; rfl
  have hzpc : q.zpc = p.zpc := by rw [← hq]; rfl
  have hnone : q.cfu.waiting = [] := by rw [← hq]; exact hwaiting
  obtain ⟨hassigns, hsettled⟩ := Play.assign_assigns ch r (id := id) rfl hnone
  have hnew : q.newRequest r = q.assign ch r :=
    Play.newRequest_of_free r rfl (fun d => by rw [hchan]; exact hserved d) (by rw [hchan]; exact hfree)
      fun d hd => by rw [hchan]; exact hlow d hd
  rw [show allocRounds = 255 + 1 from rfl, Play.allocate_one 255 r hnone (by rw [hnew]; exact hsettled), hnew]
  exact ⟨hassigns.served, hassigns.cls, hassigns.members, hassigns.start, hassigns.seg, hassigns.pass,
    fun d hd => (hassigns.others d hd).trans (hchan d), by rw [hassigns.assigned, hcounts], hassigns.zpc.trans hzpc⟩

/-- A body that no request and no channel is for has no request. -/
theorem Play.hasRequest_eq_false (hwaiting : p.cfu.waiting = []) (hserved : ∀ d, (p.chan d).served ≠ some (.body id)) :
    p.hasRequest o (.body id) = false := by
  have hnone : p.chanOf o (.body id) = none := by
    refine (Play.findChan_eq_none_iff p _).mpr fun d => ?_
    rw [decide_eq_false (hserved d), Bool.false_and]
  unfold Play.hasRequest
  rw [hwaiting, hnone]
  rfl

theorem Play.askChannel_of_reached {e : Env} {en : Entry} (hreached : e.syncReached en = true)
    (hnone : p.hasRequest o (.body en.id) = false) : p.askChannel e o en = p.requestChan o en.cls (.body en.id) :=
  if_pos (by rw [hreached, hnone]; rfl)

end request

end Sys2Proof.Machine
end

section
/-! PROOFS. Obligation O52: how an offer to a zone is settled (R79, R80, R82, R88, R130, R131). -/
namespace Sys2Proof.Machine

/-! ### A zone changed twice -/

theorem upd_congr {α : Type} {n : Nat} {v : Vector α n} {i : Fin n} {f g : α → α} (h : f (v.get i) = g (v.get i)) :
    upd v i f = upd v i g := by
  apply vector_ext
  intro j
  rw [upd_get, upd_get]
  split
  · next hj => rw [hj, h]
  · rfl

theorem Play.onZone_onZone (p : Play) (o : Out) (f g : Zone → Zone) :
    (p.onZone o f).onZone o g = p.onZone o fun z => g (f z) := by
  simp only [Play.onZone, upd_upd]

theorem Play.onZone_congr {p : Play} {o : Out} {f g : Zone → Zone} (h : f (p.zone o) = g (p.zone o)) :
    p.onZone o f = p.onZone o g := by
  have hzones : upd p.zpc.zones o f = upd p.zpc.zones o g := upd_congr h
  simp only [Play.onZone, hzones]

/-! ### A new head (R78, R82, R88) -/

/-- A zone that has taken an entry at its head: it stands QUEUED under the next order number, and what was there is
preempted by it (R78, R88). -/
def Zone.headed (en : Entry) (z : Zone) : Zone :=
  { z with
    queue := { en with order := z.nextOrder, state := .queued, seg := 0, pass := 0 } :: z.queue.map (Entry.preemptBy en.cls)
    nextOrder := z.nextOrder + 1 }

section heads
variable {e : Env} {p : Play} {o : Out} {en h : Entry} {rest : List Entry}

/-- An entry stands before a queue that is less urgent (R78). -/
theorem insertEntry_of_urgent {q : List Entry} (hurgent : ∀ x ∈ q, moreUrgent en.cls x.cls = true) :
    insertEntry q en = en :: q := by
  cases q with
  | nil => rfl
  | cons x rest => exact if_pos (hurgent x List.mem_cons_self)

/-- An entry more urgent than a queue without a STARTING entry preempts it, and starts where it may (R82, R88). -/
theorem Play.enterZone_of_head (hsurvey : (p.zone o).survey = false) (hnew : ∀ x ∈ (p.zone o).queue, x.id ≠ en.id)
    (hurgent : ∀ x ∈ (p.zone o).queue, moreUrgent en.cls x.cls = true)
    (hstart : ∀ x ∈ (p.zone o).queue, x.state ≠ .starting) :
    p.enterZone e o en = (p.onZone o (Zone.headed en)).startHead e o := by
  have hsurveyAfter : ¬ ((p.onZone o (Zone.taking en)).zone o).survey = true := by
    rw [Play.onZone_zone_self, Zone.taking, hsurvey]
    exact Bool.false_ne_true
  have hqueue : ((p.onZone o (Zone.taking en)).zone o).queue =
      { en with order := (p.zone o).nextOrder, state := .queued, seg := 0, pass := 0 } :: (p.zone o).queue := by
    rw [Play.onZone_zone_self]
    exact insertEntry_of_urgent hurgent
  have hnone : ¬ (((p.onZone o (Zone.taking en)).zone o).queue.any fun x =>
      decide (x.state = .starting) && moreUrgent en.cls x.cls) = true := by
    rw [hqueue, List.any_eq_true]
    rintro ⟨x, hx, hboth⟩
    obtain ⟨hstarting, _⟩ := Bool.and_eq_true_iff.mp hboth
    rcases List.mem_cons.mp hx with rfl | hx
    · cases of_decide_eq_true hstarting
    · exact hstart x hx (of_decide_eq_true hstarting)
  have hheaded : ((p.onZone o (Zone.taking en)).onZone o fun z =>
      z.onEntries (fun x => x.id ≠ en.id) (Entry.preemptBy en.cls)) = p.onZone o (Zone.headed en) := by
    refine (p.onZone_onZone o _ _).trans (Play.onZone_congr ?_)
    have hinsert : insertEntry (p.zone o).queue { en with order := (p.zone o).nextOrder, state := .queued, seg := 0, pass := 0 } =
        { en with order := (p.zone o).nextOrder, state := .queued, seg := 0, pass := 0 } :: (p.zone o).queue :=
      insertEntry_of_urgent hurgent
    have hmap : (p.zone o).queue.map (fun x => if decide (x.id ≠ en.id) = true then x.preemptBy en.cls else x) =
        (p.zone o).queue.map (Entry.preemptBy en.cls) :=
      List.map_congr_left fun x hx => if_pos (decide_eq_true (hnew x hx))
    unfold Zone.onEntries Zone.taking Zone.headed
    dsimp only
    rw [hinsert, List.map_cons, hmap, if_neg (by simp)]
  have harrived : (p.onZone o (Zone.taking en)).headArrived e o en = (p.onZone o (Zone.headed en)).startHead e o := by
    unfold Play.headArrived
    rw [hqueue]
    dsimp only
    rw [if_pos rfl, ← hqueue, if_neg hnone, hheaded]
  exact (congrArg (Play.headArrived e o en) (if_neg hsurveyAfter)).trans harrived

/-- While an entry of a zone is not QUEUED, its head does not start (R82). -/
theorem Play.startHead_of_busy (h : ∃ x ∈ (p.zone o).queue, x.state ≠ .queued) : p.startHead e o = p := by
  obtain ⟨x, hx, hstate⟩ := h
  have hbusy : ((p.zone o).queue.any fun x => decide (x.state ≠ .queued)) = true :=
    List.any_eq_true.mpr ⟨x, hx, decide_eq_true hstate⟩
  unfold Play.startHead
  dsimp only
  split
  · rfl
  · exact if_pos (by rw [hbusy, Bool.or_true, Bool.true_or])

/-- The head of an IDLE zone starts where nothing holds it back (R82). -/
theorem Play.startHead_of_idle (hqueue : (p.zone o).queue = h :: rest) (hall : ∀ x ∈ h :: rest, x.state = .queued)
    (hfaulted : (p.zone o).faulted = false) (hsurvey : (p.zone o).survey = false) (hholds : p.holds h = false) :
    p.startHead e o = (p.onEntry o h.id fun x => { x with state := .starting }).askChannel e o h := by
  have hidle : ((h :: rest).any fun x => decide (x.state ≠ .queued)) = false :=
    List.any_eq_false.mpr fun x hx => by simp [hall x hx]
  unfold Play.startHead
  dsimp only
  rw [hqueue]
  exact if_neg (by rw [hfaulted, hsurvey, hidle, hholds]; exact Bool.false_ne_true)

end heads

/-! ### The tests of an offer (R79, R80) -/

section tests
variable {e : Env} {p : Play} {o : Out} {en : Entry}

theorem Play.addRef_cfu (en : Entry) (p : Play) : (p.addRef en).cfu = p.cfu := by
  unfold Play.addRef
  split <;> rfl

theorem Play.addRef_evl (en : Entry) (p : Play) : (p.addRef en).evl = p.evl := by
  unfold Play.addRef
  split <;> rfl

theorem Play.any_id_eq_false (hnew : ∀ x ∈ (p.zone o).queue, x.id ≠ en.id) :
    ((p.zone o).queue.any fun x => decide (x.id = en.id)) = false :=
  List.any_eq_false.mpr fun x hx hid => hnew x hx (of_decide_eq_true hid)

theorem Play.offer_of_notOwned (hid : (p.zone o).id = none) (hrunning : e.load = .running) :
    p.offer e o en = p.noteDrop en .notOwned := by
  unfold Play.offer
  dsimp only
  rw [hid]
  exact if_pos (by rw [Env.running, hrunning]; rfl)

theorem Play.offer_of_held (hid : (p.zone o).id.isSome = true) (hheld : ∃ x ∈ (p.zone o).queue, x.id = en.id) :
    p.offer e o en = p := by
  obtain ⟨z, hz⟩ := Option.isSome_iff_exists.mp hid
  obtain ⟨x, hx, hxid⟩ := hheld
  unfold Play.offer
  dsimp only
  rw [hz]
  exact if_pos (List.any_eq_true.mpr ⟨x, hx, decide_eq_true hxid⟩)

/-- A new id at an owned zone that is not FAULTED is settled by the zone's queue (R79). -/
theorem Play.offer_of_owned (hid : (p.zone o).id.isSome = true) (hfaulted : (p.zone o).faulted = false)
    (hnew : ∀ x ∈ (p.zone o).queue, x.id ≠ en.id) : p.offer e o en = p.settleNew e o en := by
  obtain ⟨z, hz⟩ := Option.isSome_iff_exists.mp hid
  unfold Play.offer
  dsimp only
  rw [hz]
  dsimp only
  rw [Play.any_id_eq_false hnew, hfaulted, if_neg Bool.false_ne_true, if_neg Bool.false_ne_true]

/-- What a taken offer brings before it enters the queue: a reference, and QUEUED told (R79). -/
def Play.welcome (en : Entry) (p : Play) : Play := (p.addRef en).tellEntry en .queued

theorem Play.welcome_zpc (en : Entry) (p : Play) : (p.welcome en).zpc = p.zpc := by
  rw [Play.welcome, Play.tellEntry_zpc, Play.addRef_zpc]

theorem Play.welcome_cfu (en : Entry) (p : Play) : (p.welcome en).cfu = p.cfu := by
  rw [Play.welcome, Play.tellEntry_cfu, Play.addRef_cfu]

theorem Play.welcome_cmu (en : Entry) (p : Play) : (p.welcome en).cmu = (p.addRef en).cmu := Play.tellEntry_cmu en _ _

theorem Play.welcome_evl (en : Entry) (p : Play) : (p.welcome en).evl = p.evl := by
  rw [Play.welcome, Play.tellEntry_evl, Play.addRef_evl]

theorem Play.welcome_zone (en : Entry) (p : Play) (o : Out) : (p.welcome en).zone o = p.zone o :=
  Play.zone_of_zpc (Play.welcome_zpc en p) o

theorem Play.settleNew_of_room (hlive : e.expired en = false) (hroom : (p.zone o).queue.length < 8) :
    p.settleNew e o en = (p.welcome en).enterZone e o en := Play.settleOffer_of_room hlive hroom

/-- A full queue is settled by its last QUEUED entry (R80). -/
theorem Play.settleNew_of_full {x : Entry} (hlive : e.expired en = false) (hfull : 8 ≤ (p.zone o).queue.length)
    (hx : (p.zone o).leastQueued = some x) :
    p.settleNew e o en = if moreUrgent en.cls x.cls = true
      then ((p.dropWaiting e o .displaced x).welcome en).enterZone e o en else p.noteDrop en .queueFull := by
  unfold Play.settleNew Play.settleOffer
  rw [if_neg (by rw [hlive]; exact Bool.false_ne_true), if_pos hfull, hx]
  rfl

/-- The last QUEUED entry of a queue, the entries behind it not being QUEUED. -/
theorem Zone.leastQueued_of_split {z : Zone} {before after : List Entry} {x : Entry} (hqueue : z.queue = before ++ x :: after)
    (hx : x.state = .queued) (hafter : ∀ y ∈ after, y.state ≠ .queued) : z.leastQueued = some x := by
  have hnone : after.filter (fun y => decide (y.state = .queued)) = [] :=
    List.filter_eq_nil_iff.mpr fun y hy hq => hafter y hy (of_decide_eq_true hq)
  rw [Zone.leastQueued, hqueue, List.filter_append, List.filter_cons, if_pos (decide_eq_true hx), hnone,
    List.getLast?_append]
  rfl

/-- A dropped entry that waits is counted under its reason (R94, R104). -/
theorem Play.dropWaiting_counts (e : Env) (o : Out) (r : DropReason) (en : Entry) (p : Play) :
    (p.dropWaiting e o r en).zpc.counts = p.zpc.counts.countDrop r := by
  have hleft : (((p.withdrawRequest o (.body en.id)).takeOut o en).noteDrop en r).zpc.counts = p.zpc.counts.countDrop r := by
    rw [(Play.noteDrop_frame en r _).1, (Play.takeOut_beside o en _).2, (Play.Stands.withdrawRequest o _ p).counts]
  unfold Play.dropWaiting Play.leaveWaiting
  dsimp only
  split
  · rw [(Play.Stands.startHead e o _).counts, hleft]
  · exact hleft

end tests

/-! ### Taken offers (R80, R82, R88) -/

section taken
variable {e : Env} {p : Play} {o : Out} {en : Entry}

/-- An entry that enters an IDLE zone without others starts, and is granted the FREE channel of lowest number (R82, R130,
R131). -/
theorem Play.enterZone_of_empty {ch : Chan} (hfaulted : (p.zone o).faulted = false) (hsurvey : (p.zone o).survey = false)
    (hqueue : (p.zone o).queue = []) (hevac : p.evl.active = false ∨ en.cls = .evac) (hreached : e.syncReached en = true)
    (hwaiting : p.cfu.waiting = []) (hserved : ∀ d, (p.chan d).served ≠ some (.body en.id))
    (hfree : (p.chan ch).state = .free) (hlow : ∀ d, d < ch → (p.chan d).state ≠ .free) :
    ∃ q : Play, q.Assigns ch en.id en.cls o (p.enterZone e o en) ∧ q.cfu = p.cfu ∧
      (q.zone o).queue = [{ en with order := (p.zone o).nextOrder, state := .starting, seg := 0, pass := 0 }] ∧
      ∀ k, k ≠ o → q.zone k = p.zone k := by
  have hnone : ∀ x ∈ (p.zone o).queue, False := by
    rw [hqueue]
    exact fun x hx => List.not_mem_nil hx
  generalize hv : p.onZone o (Zone.headed en) = v
  have hzone : v.zone o = (p.zone o).headed en := by rw [← hv, Play.onZone_zone_self]
  have hhead : (v.zone o).queue = [{ en with order := (p.zone o).nextOrder, state := .queued, seg := 0, pass := 0 }] := by
    rw [hzone, Zone.headed, hqueue]
    rfl
  have hholds : v.holds { en with order := (p.zone o).nextOrder, state := .queued, seg := 0, pass := 0 } = false := by
    have hevl : v.evl = p.evl := by rw [← hv]; rfl
    unfold Play.holds
    rw [hevl]
    rcases hevac with hactive | hcls
    · rw [hactive, Bool.false_and]
    · simp only [hcls, ne_eq, not_true_eq_false, decide_false, Bool.and_false]
  have hstarts := Play.startHead_of_idle (e := e) hhead (by simp) (by rw [hzone]; exact hfaulted)
    (by rw [hzone]; exact hsurvey) hholds
  generalize hq : (v.onEntry o en.id fun x => { x with state := .starting }) = q at hstarts
  have hcfu : q.cfu = p.cfu := by rw [← hq, ← hv]; rfl
  have hchan : ∀ d, q.chan d = p.chan d := fun d => by simp only [Play.chan, hcfu]
  have hwaiting' : q.cfu.waiting = [] := by rw [hcfu]; exact hwaiting
  have hserved' : ∀ d, (q.chan d).served ≠ some (.body en.id) := fun d => by rw [hchan]; exact hserved d
  refine ⟨q, ?_, hcfu, ?_, fun k hk => ?_⟩
  · have hasks := Play.askChannel_of_reached (p := q) (o := o) (e := e)
      (en := { en with order := (p.zone o).nextOrder, state := .queued, seg := 0, pass := 0 }) hreached
      (Play.hasRequest_eq_false hwaiting' hserved')
    rw [Play.enterZone_of_head hsurvey (fun x hx => (hnone x hx).elim) (fun x hx => (hnone x hx).elim)
      (fun x hx => (hnone x hx).elim), hv, hstarts, hasks]
    exact Play.requestChan_assigns hwaiting' hserved' (by rw [hchan]; exact hfree) fun d hd => by rw [hchan]; exact hlow d hd
  · rw [← hq, Play.onEntry, Play.onZone_zone_self, Zone.onEntries, hhead]
    simp
  · rw [← hq, Play.onEntry, Play.onZone_zone_of_ne _ _ _ _ hk, ← hv, Play.onZone_zone_of_ne _ _ _ _ hk]

/-- An entry more urgent than the one RENDERING preempts it, at the next block boundary when it is EVAC (R87, R88). -/
theorem Play.enterZone_of_rendering {x : Entry} (hsurvey : (p.zone o).survey = false) (hqueue : (p.zone o).queue = [x])
    (hstate : x.state = .rendering) (hnew : x.id ≠ en.id) (hurgent : moreUrgent en.cls x.cls = true) :
    p.enterZone e o en = p.onZone o fun z => { z with
      queue := [{ en with order := (p.zone o).nextOrder, state := .queued, seg := 0, pass := 0 },
        { x with state := .stopping ⟨none, true, false, false, false, false, decide (en.cls = .evac)⟩ }]
      nextOrder := z.nextOrder + 1 } := by
  have honly : ∀ y ∈ (p.zone o).queue, y = x := by
    rw [hqueue]
    exact fun y hy => List.mem_singleton.mp hy
  have hpreempted : x.preemptBy en.cls =
      { x with state := .stopping ⟨none, true, false, false, false, false, decide (en.cls = .evac)⟩ } := by
    unfold Entry.preemptBy
    rw [if_pos hurgent, hstate]
    rfl
  rw [Play.enterZone_of_head hsurvey (fun y hy => by rw [honly y hy]; exact hnew)
    (fun y hy => by rw [honly y hy]; exact hurgent) (fun y hy => by rw [honly y hy, hstate]; exact nofun),
    Play.startHead_of_busy]
  · refine Play.onZone_congr ?_
    rw [Zone.headed, hqueue, List.map_singleton, hpreempted]
  · refine ⟨x.preemptBy en.cls, ?_, by rw [hpreempted]; exact nofun⟩
    rw [Play.onZone_zone_self, Zone.headed, hqueue]
    exact List.mem_cons_of_mem _ (List.mem_singleton.mpr rfl)

/-- An offer that displaces an entry stands in its place, and the drop of that entry is counted (R80). -/
theorem Play.displaces (hnew : ∀ x ∈ (p.zone o).queue, x.id ≠ en.id) {x : Entry} (hx : x ∈ (p.zone o).queue) :
    (∀ y ∈ ((((p.dropWaiting e o .displaced x).welcome en).enterZone e o en).zone o).queue, y.id ≠ x.id) ∧
      (((p.dropWaiting e o .displaced x).welcome en).enterZone e o en).zpc.counts = p.zpc.counts.countDrop .displaced := by
  generalize hq : p.dropWaiting e o .displaced x = q
  have hstands := Play.Stands.enterZone e o en (q.welcome en)
  refine ⟨fun y hy => ?_, ?_⟩
  · have hid : y.id ∈ (((q.welcome en).enterZone e o en).zone o).queue.map (·.id) := List.mem_map_of_mem hy
    rw [Entry.StillWaits.ids (hstands.entries o), Play.onZone_zone_self, Play.welcome_zone] at hid
    obtain ⟨w, hw, hwid⟩ := List.mem_map.mp hid
    rw [← hwid]
    rcases (mem_insertEntry _ _ _).mp hw with rfl | hw
    · exact (hnew x hx).symm
    · rw [← hq] at hw
      exact (Play.mem_leaveWaiting (.noteDrop x .displaced) e hw).1
  · rw [(Play.enterZone_beside_zones e o en _).2.2, Play.welcome_zpc, ← hq, Play.dropWaiting_counts]

end taken

/-- Settles O52: each test of R79 by its equation; a taken offer through what it does as the new head of its queue, and
with eight entries through its last QUEUED one. -/
theorem offersSettled : Obligations.OffersSettled := by
  unfold Obligations.OffersSettled
  intro e o en p
  refine ⟨fun hid hrunning => ?_, fun hheld hid => Play.offer_of_held hid hheld, fun hid hfaulted hnew => ?_⟩
  · rw [Play.offer_of_notOwned hid hrunning]
    obtain ⟨hzpc, hcmu, hcfu, _⟩ := Play.noteDrop_frame en .notOwned p
    exact ⟨hzpc, hcmu, hcfu⟩
  rw [Play.offer_of_owned hid hfaulted hnew]
  refine ⟨fun hexpired => ?_, fun hlive => ⟨?_, ?_, ?_⟩⟩
  · rw [show p.settleNew e o en = p.noteDrop en .expired from Play.settleOffer_of_expired hexpired]
    obtain ⟨hzpc, hcmu, hcfu, _⟩ := Play.noteDrop_frame en .expired p
    exact ⟨hzpc, hcmu, hcfu⟩
  · intro ch hsurvey hqueue hevac hreached hwaiting hserved hfree hlow
    have hchan : ∀ d, (p.welcome en).chan d = p.chan d := fun d => by simp only [Play.chan, Play.welcome_cfu]
    rw [Play.settleNew_of_room hlive (by rw [hqueue]; decide)]
    obtain ⟨_, hcmu, hcounts⟩ := Play.enterZone_beside_zones e o en (p.welcome en)
    obtain ⟨q, hassigns, hcfu, hstarted, hothers⟩ := Play.enterZone_of_empty (e := e) (p := p.welcome en) (ch := ch)
      (by rw [Play.welcome_zone]; exact hfaulted) (by rw [Play.welcome_zone]; exact hsurvey)
      (by rw [Play.welcome_zone]; exact hqueue) (by rw [Play.welcome_evl]; exact hevac) hreached
      (by rw [Play.welcome_cfu]; exact hwaiting) (fun d => by rw [hchan]; exact hserved d) (by rw [hchan]; exact hfree)
      fun d hd => by rw [hchan]; exact hlow d hd
    refine ⟨?_, fun k hk => ?_, hcmu.trans (Play.welcome_cmu en p), hassigns.served, hassigns.cls, hassigns.members,
      fun d hd => ?_, hcounts.trans (by rw [Play.welcome_zpc])⟩
    · rw [Play.zone_of_zpc hassigns.zpc, hstarted, Play.welcome_zone]
    · rw [Play.zone_of_zpc hassigns.zpc, hothers k hk, Play.welcome_zone]
    · rw [hassigns.others d hd, ← hchan]
      simp only [Play.chan, hcfu]
  · intro x hsurvey hqueue hstate hurgent
    rw [Play.settleNew_of_room hlive (by rw [hqueue, List.length_singleton]; decide),
      Play.enterZone_of_rendering (x := x) (by rw [Play.welcome_zone]; exact hsurvey)
        (by rw [Play.welcome_zone]; exact hqueue) hstate (hnew x (by rw [hqueue]; exact List.mem_singleton.mpr rfl)) hurgent]
    refine ⟨?_, fun k hk => ?_, Play.welcome_cfu en p⟩
    · rw [Play.onZone_zone_self, Play.welcome_zone]
    · rw [Play.onZone_zone_of_ne _ _ _ _ hk, Play.welcome_zone]
  · intro hfull before after x hqueue hx hafter
    have hleast := Zone.leastQueued_of_split hqueue hx hafter
    rw [Play.settleNew_of_full hlive hfull hleast]
    refine ⟨fun hurgent => ?_, fun hnot => ?_⟩
    · rw [if_pos hurgent]
      obtain ⟨hgone, hcounts⟩ := Play.displaces (e := e) hnew (Zone.leastQueued_mem hleast)
      obtain ⟨y, hy, hentry, _⟩ := Play.mem_enterZone e o en ((p.dropWaiting e o .displaced x).welcome en)
      have hid : ({ y with state := .queued } : Entry).id = en.id := by rw [hentry]
      exact ⟨⟨y, hy, hid⟩, hgone, hcounts⟩
    · rw [if_neg (by rw [hnot]; exact Bool.false_ne_true)]
      obtain ⟨hzpc, hcmu, hcfu, _⟩ := Play.noteDrop_frame en .queueFull p
      exact ⟨hzpc, hcmu, hcfu⟩

end Sys2Proof.Machine
end

section
/-! PROOFS. What follows when an entry has ended or stopped while evacuation is released, and obligation O53: an entry at
its stop point is settled by its stop cause (R83, R86, R88, R89, R91, R101, R143). -/
namespace Sys2Proof.Machine

/-! ### After an entry has ended or stopped (R83, R101, R143) -/

/-- With evacuation released a zone has been left by what it played: no entry changes more than its state, nothing is
counted, and the output has fallen silent with its discard mark set. -/
structure Play.FallsSilent (o : Out) (p q : Play) : Prop where
  counts : q.zpc.counts = p.zpc.counts
  entries : ∀ k, List.Forall₂ Entry.StillWaits (p.zone k).queue (q.zone k).queue
  silent : (q.levelAt o).out = .zero
  discards : (q.levelAt o).discard = true

section stopped
variable {e : Env} {p : Play} {o : Out} {en : Entry}

theorem Play.startHead_levelAt (k : Out) : ((p.startHead e o).levelAt k) = p.levelAt k := by
  obtain ⟨_, _, hlvc, _⟩ := Play.startHead_sameBeside e o p
  simp only [Play.levelAt, hlvc]

/-- With evacuation released a zone that returns from FAULTED changes but that mark and the start of its head (R101). -/
theorem Play.recoverZone_of_released (hreleased : p.evl.active = false) :
    p.recoverZone e o = p ∨ p.recoverZone e o = (p.onZone o fun z => { z with faulted := false }).startHead e o := by
  unfold Play.recoverZone
  extract_lets z q r
  have hr : r = q := if_neg (by
    show ¬ p.evl.active = true
    rw [hreleased]
    exact Bool.false_ne_true)
  split
  · exact Or.inr (by rw [hr])
  · exact Or.inl rfl

/-- A return from FAULTED, or a start, takes no entry from a queue, counts nothing and changes no level (R82, R101). -/
theorem Play.recoverZone_entries (hreleased : p.evl.active = false) :
    (p.recoverZone e o).zpc.counts = p.zpc.counts ∧ (p.recoverZone e o).evl = p.evl ∧
      (∀ k, List.Forall₂ Entry.StillWaits (p.zone k).queue ((p.recoverZone e o).zone k).queue) ∧
      ∀ k, (p.recoverZone e o).levelAt k = p.levelAt k := by
  rcases Play.recoverZone_of_released (e := e) (o := o) hreleased with heq | heq <;> rw [heq]
  · exact ⟨rfl, rfl, (Play.Stands.refl p).entries, fun _ => rfl⟩
  · have hstarts := Play.Stands.startHead e o (p.onZone o fun z => { z with faulted := false })
    refine ⟨hstarts.counts, hstarts.evl, fun k => ?_, Play.startHead_levelAt⟩
    have hqueue : ((p.onZone o fun z => { z with faulted := false }).zone k).queue = (p.zone k).queue := by
      rw [Play.onZone_zone]
      split <;> rfl
    have hentries := hstarts.entries k
    rwa [hqueue] at hentries

theorem Play.afterStop_fallsSilent (hreleased : p.evl.active = false) : p.FallsSilent o (p.afterStop e o en) := by
  unfold Play.afterStop
  extract_lets q r
  have hq : p.Stands q := (Play.Stands.onZone p o (f := fun z => { z with lastStop := some ⟨e.elapsed, en.order⟩ })
    (fun _ => rfl) (fun _ => rfl) (fun _ => rfl) fun _ => rfl).trans (.onLevel _ o _)
  have hlevel : (q.levelAt o).out = .zero ∧ (q.levelAt o).discard = true := by
    rw [show q.levelAt o = _ from Play.onLevel_levelAt_self _ o _]
    exact ⟨rfl, rfl⟩
  have hactive : q.evl.active = false := by rw [hq.evl, hreleased]
  have hr : r.zpc.counts = q.zpc.counts ∧ r.evl = q.evl ∧
      (∀ k, List.Forall₂ Entry.StillWaits (q.zone k).queue (r.zone k).queue) ∧ ∀ k, r.levelAt k = q.levelAt k := by
    by_cases hfaulted : (q.zone o).faulted = true
    · rw [show r = q.recoverZone e o from if_pos hfaulted]
      exact Play.recoverZone_entries hactive
    · rw [show r = q.startHead e o from if_neg hfaulted]
      have hstarts := Play.Stands.startHead e o q
      exact ⟨hstarts.counts, hstarts.evl, hstarts.entries, Play.startHead_levelAt⟩
  clear_value q r
  obtain ⟨hcounts, hevl, hentries, hlevels⟩ := hr
  rw [if_pos (by rw [hevl, hactive]; rfl)]
  refine ⟨hcounts.trans hq.counts, fun k => ?_, by rw [hlevels]; exact hlevel.1, by rw [hlevels]; exact hlevel.2⟩
  exact forall₂_comp (R := Entry.StillWaits) (S := Entry.StillWaits) (fun _ _ _ hab hbc => hab.trans hbc) (hq.entries k)
    (hentries k)

end stopped

/-! ### Entries that end (R86, R89) -/

/-- An id has left the queue of an output, which has fallen silent with its discard mark set; the counts are these. -/
structure Play.Ended (o : Out) (id : AnnId) (counts : ZpcCounts) (q : Play) : Prop where
  gone : ∀ x ∈ (q.zone o).queue, x.id ≠ id
  counts : q.zpc.counts = counts
  silent : (q.levelAt o).out = .zero
  discards : (q.levelAt o).discard = true

section ends
variable {e : Env} {p q : Play} {o : Out} {en : Entry} {counts : ZpcCounts}

/-- An entry that has left its queue, and is counted, ends so when its zone has been left. -/
theorem Play.Ended.afterStop (hreleased : q.evl.active = false) (hgone : ∀ x ∈ (q.zone o).queue, x.id ≠ en.id)
    (hcounts : q.zpc.counts = counts) : (q.afterStop e o en).Ended o en.id counts := by
  have hafter := Play.afterStop_fallsSilent (e := e) (o := o) (en := en) hreleased
  refine ⟨fun x hx hid => ?_, hafter.counts.trans hcounts, hafter.silent, hafter.discards⟩
  obtain ⟨y, hy, hyx⟩ := forall₂_source (hafter.entries o) hx
  exact hgone y hy (hyx.id.symm.trans hid)

/-- What taking an entry out of its queue, its request withdrawn, leaves: the queue without its id, the counts, and
whether evacuation is active (R77). -/
theorem Play.withdraw_takeOut (p : Play) (o : Out) (en : Entry) :
    (∀ x ∈ (((p.withdrawRequest o (.body en.id)).takeOut o en).zone o).queue, x.id ≠ en.id) ∧
      ((p.withdrawRequest o (.body en.id)).takeOut o en).zpc.counts = p.zpc.counts ∧
      ((p.withdrawRequest o (.body en.id)).takeOut o en).evl.active = p.evl.active := by
  have hasked := Play.Stands.withdrawRequest o (.body en.id) p
  generalize p.withdrawRequest o (.body en.id) = q at hasked
  refine ⟨fun x hx => ?_, (Play.takeOut_beside o en q).2.trans hasked.counts, ?_⟩
  · rw [Play.takeOut_zone, if_pos rfl] at hx
    exact of_decide_eq_true (List.mem_filter.mp hx).2
  · obtain ⟨_, _, _, _, _, _, hactive, _⟩ :=
      Play.releaseRef_frame en (q.onZone o fun z => { z with queue := z.queue.filter fun x => x.id ≠ en.id })
    rw [← hasked.evl]
    exact hactive

theorem Play.noteDone_counts (en : Entry) (p : Play) :
    (p.noteDone en).zpc.counts = { p.zpc.counts with done := bump p.zpc.counts.done } := by
  rw [Play.noteDone, Play.tellEntry_zpc]

theorem Play.noteDone_evl (en : Entry) (p : Play) : (p.noteDone en).evl = p.evl := Play.tellEntry_evl en .done _

/-- An entry that ends DONE at its stop point or at the end of its body (R86, R89). -/
theorem Play.endDone_ended (hreleased : p.evl.active = false) :
    (p.endDone e o en).Ended o en.id { p.zpc.counts with done := bump p.zpc.counts.done } := by
  obtain ⟨hgone, hcounts, hactive⟩ := p.withdraw_takeOut o en
  refine .afterStop (by rw [Play.noteDone_evl, hactive, hreleased]) (fun x hx => ?_) ?_
  · rw [Play.zone, Play.noteDone_zones] at hx
    exact hgone x hx
  · rw [Play.noteDone_counts, hcounts]

/-- An entry that is dropped at its stop point (R89, R104). -/
theorem Play.drop_ended (hreleased : p.evl.active = false) (r : DropReason) :
    ((((p.withdrawRequest o (.body en.id)).takeOut o en).noteDrop en r).afterStop e o en).Ended o en.id
      (p.zpc.counts.countDrop r) := by
  obtain ⟨hgone, hcounts, hactive⟩ := p.withdraw_takeOut o en
  obtain ⟨hzpc, _, _, hevl, _⟩ := Play.noteDrop_frame en r ((p.withdrawRequest o (.body en.id)).takeOut o en)
  refine .afterStop (by rw [hevl, hactive, hreleased]) (fun x hx => ?_) ?_
  · rw [Play.zone, Play.noteDrop_zones] at hx
    exact hgone x hx
  · rw [hzpc, hcounts]

/-- A waiting entry that is dropped leaves evacuation as it is (R94). -/
theorem Play.dropWaiting_active (e : Env) (o : Out) (r : DropReason) (en : Entry) (p : Play) :
    (p.dropWaiting e o r en).evl.active = p.evl.active := by
  have hleft : (((p.withdrawRequest o (.body en.id)).takeOut o en).noteDrop en r).evl.active = p.evl.active := by
    obtain ⟨_, _, _, hevl, _⟩ := Play.noteDrop_frame en r ((p.withdrawRequest o (.body en.id)).takeOut o en)
    rw [hevl, (p.withdraw_takeOut o en).2.2]
  unfold Play.dropWaiting Play.leaveWaiting
  dsimp only
  split
  · rw [(Play.Stands.startHead e o _).evl, hleft]
  · exact hleft

end ends

/-! ### The stop causes (R87, R89) -/

/-- An entry as it is replayed: QUEUED at its place, at segment 0, pass 0, its replay allowance spent (R89). -/
def Entry.replayed (en : Entry) : Entry := { en with state := .queued, seg := 0, pass := 0, allowance := 0 }

/-- An entry put back in its place, and told QUEUED (R89). -/
def Play.putBack (o : Out) (en : Entry) (p : Play) : Play :=
  ((p.withdrawRequest o (.body en.id)).onEntry o en.id fun _ => en.replayed).tellEntry en.replayed .queued

section causes
variable {e : Env} {p : Play} {o : Out} {en : Entry} {c : StopCause}

theorem Play.settleStop_of_drop {r : DropReason} (hdrop : c.drop = some r) :
    p.settleStop e o en c = (((p.withdrawRequest o (.body en.id)).takeOut o en).noteDrop en r).afterStop e o en := by
  unfold Play.settleStop
  dsimp only
  rw [hdrop]

theorem Play.settleStop_of_evacEnd (hdrop : c.drop = none) (hend : c.evacEnd = true) :
    p.settleStop e o en c = p.endDone e o en := by
  unfold Play.settleStop
  dsimp only
  rw [hdrop]
  dsimp only
  rw [if_pos hend]
  rfl

/-- An entry that stops for PREEMPT or THEFT (R89). -/
theorem Play.settleStop_of_preempt (hdrop : c.drop = none) (hend : c.evacEnd = false) (hfault : c.fault = false) :
    p.settleStop e o en c = Play.afterStop e o en (if en.stale = true
      then ((p.withdrawRequest o (.body en.id)).takeOut o en).noteDrop en .callEnded
      else if en.allowance = 1
        then if e.expired en = true then (p.putBack o en).dropWaiting e o .expired en.replayed else p.putBack o en
        else ((p.withdrawRequest o (.body en.id)).takeOut o en).noteDrop en .preempted) := by
  unfold Play.settleStop
  dsimp only
  rw [hdrop]
  dsimp only
  rw [hend, hfault, if_neg Bool.false_ne_true, if_neg Bool.false_ne_true]
  rfl

/-- What putting an entry back leaves: the ids of the queue, the counts and the evacuation; and it stands there. -/
theorem Play.putBack_stands (hmem : en ∈ (p.zone o).queue) :
    ((p.putBack o en).zone o).queue.map (·.id) = (p.zone o).queue.map (·.id) ∧
      (p.putBack o en).zpc.counts = p.zpc.counts ∧ (p.putBack o en).evl = p.evl ∧
      en.replayed ∈ ((p.putBack o en).zone o).queue := by
  have hasked := Play.Stands.withdrawRequest o (.body en.id) p
  unfold Play.putBack
  generalize p.withdrawRequest o (.body en.id) = q at hasked
  have hids := Entry.StillWaits.ids (hasked.entries o)
  have hzone : ((q.onEntry o en.id fun _ => en.replayed).tellEntry en.replayed .queued).zone o =
      (q.zone o).onEntries (fun x => x.id = en.id) fun _ => en.replayed := by
    rw [Play.zone_of_zpc (Play.tellEntry_zpc _ _ _), Play.onEntry, Play.onZone_zone_self]
  refine ⟨?_, ?_, ?_, ?_⟩
  · rw [hzone, ← hids, Zone.onEntries, List.map_map]
    refine List.map_congr_left fun x _ => ?_
    simp only [Function.comp_apply, decide_eq_true_eq]
    split
    · next hid => exact hid.symm
    · rfl
  · rw [Play.tellEntry_zpc]
    exact hasked.counts
  · rw [Play.tellEntry_evl]
    exact hasked.evl
  · have hin : en.id ∈ (q.zone o).queue.map (·.id) := by
      rw [hids]
      exact List.mem_map_of_mem hmem
    obtain ⟨y, hy, hid⟩ := List.mem_map.mp hin
    rw [hzone]
    exact List.mem_map.mpr ⟨y, hy, if_pos (decide_eq_true hid)⟩

/-- An entry whose expiry is reached while it is put back is dropped EXPIRED (R89, R91). -/
theorem Play.putBack_expired (hreleased : p.evl.active = false) (hmem : en ∈ (p.zone o).queue) :
    (((p.putBack o en).dropWaiting e o .expired en.replayed).afterStop e o en).Ended o en.id
      (p.zpc.counts.countDrop .expired) := by
  obtain ⟨_, hcounts, hevl, _⟩ := Play.putBack_stands hmem
  refine .afterStop (by rw [Play.dropWaiting_active, hevl, hreleased]) (fun x hx => ?_) ?_
  · exact (Play.mem_leaveWaiting (en := en.replayed) (.noteDrop en.replayed .expired) e hx).1
  · rw [Play.dropWaiting_counts, hcounts]

end causes

/-! ### Stop points (R88, R89) -/

section points
variable {e : Env} {p : Play} {ch : Chan} {id : AnnId} {o : Out} {en : Entry} {c : StopCause}

theorem Play.fedEntry_of_served {x : Channel} (hserved : x.served = some (.body id)) :
    p.fedEntry x o = (p.zone o).queue.find? fun en => decide (en.id = id) := by
  unfold Play.fedEntry
  rw [hserved]

/-- One member at its stop point: its entry plays on, or is settled (R88, R89). -/
theorem Play.stopPoint_of_one (hserved : (p.chan ch).served = some (.body id))
    (hfind : (p.zone o).queue.find? (fun x => x.id = id) = some en) (hdue : p.stopDue e ch = [o])
    (hstate : en.state = .stopping c) :
    p.stopPoint e ch = if (p.takeBoundary e).playsOn o en c = true
      then if (p.chan ch).passEnded = true
        then ((p.takeBoundary e).onEntry o en.id fun x => { x with state := .rendering }).computeGain e o en.cls false
        else (p.takeBoundary e).onEntry o en.id fun x => { x with state := .rendering }
      else (p.takeBoundary e).settleStop e o en c := by
  have hfed : (p.takeBoundary e).fedEntry (p.chan ch) o = some en := (Play.fedEntry_of_served hserved).trans hfind
  unfold Play.stopPoint
  rw [hdue, List.foldl_cons, List.foldl_nil]
  unfold Play.memberStop
  simp only [List.isEmpty_cons, Bool.false_eq_true, if_false, hfed, hstate]

theorem Play.stopPoint_of_settled (hserved : (p.chan ch).served = some (.body id))
    (hfind : (p.zone o).queue.find? (fun x => x.id = id) = some en) (hdue : p.stopDue e ch = [o])
    (hstate : en.state = .stopping c) (hstops : (p.takeBoundary e).playsOn o en c = false) :
    p.stopPoint e ch = (p.takeBoundary e).settleStop e o en c := by
  rw [Play.stopPoint_of_one hserved hfind hdue hstate, hstops, if_neg Bool.false_ne_true]

theorem Play.playsOn_eq_false_of_drop {r : DropReason} (h : c.drop = some r) : p.playsOn o en c = false := by
  simp only [Play.playsOn, h, Option.isNone_some, Bool.false_and]

theorem Play.playsOn_eq_false_of_evacEnd (h : c.evacEnd = true) : p.playsOn o en c = false := by
  simp only [Play.playsOn, h, Bool.not_true, Bool.and_false, Bool.false_and]

/-- An entry with a theft, or with something more urgent in its queue, does not play on (R88). -/
theorem Play.playsOn_eq_false_of_preempt
    (h : c.theft = true ∨ ∃ x ∈ (p.zone o).queue, x.id ≠ en.id ∧ moreUrgent x.cls en.cls = true) :
    p.playsOn o en c = false := by
  rcases h with htheft | ⟨x, hx, hid, hurgent⟩
  · simp only [Play.playsOn, htheft, Bool.not_true, Bool.and_false, Bool.false_and]
  · have hany : ((p.zone o).queue.any fun x => decide (x.id ≠ en.id) && moreUrgent x.cls en.cls) = true :=
      List.any_eq_true.mpr ⟨x, hx, by rw [decide_eq_true hid, hurgent]; rfl⟩
    simp only [Play.playsOn, Play.stillPreempted, hany, Bool.true_or, Bool.not_true, Bool.and_false]

/-- The id of an entry found by it, and its place in the queue. -/
theorem Play.find_id (hfind : (p.zone o).queue.find? (fun x => x.id = id) = some en) :
    en.id = id ∧ en ∈ (p.zone o).queue :=
  ⟨of_decide_eq_true (List.find?_some (p := fun x : Entry => decide (x.id = id)) hfind), List.mem_of_find?_eq_some hfind⟩

/-- The end of a command of a block boundary changes no level (R117, R172). -/
theorem Play.finishBoundary_lvc (e : Env) (p : Play) : (p.finishBoundary e).lvc = p.lvc := by
  have hgate : ∀ q : Play, q.gateCheck.lvc = q.lvc := fun q => by rw [q.gateCheck_frame.1]
  unfold Play.finishBoundary
  extract_lets q
  rw [hgate]
  split <;> rfl

theorem Play.Ended.finishBoundary {counts : ZpcCounts} (h : p.Ended o id counts) (e : Env) :
    (p.finishBoundary e).Ended o id counts := by
  have hzpc := Play.finishBoundary_zpc e p
  have hlevel : (p.finishBoundary e).levelAt o = p.levelAt o := by simp only [Play.levelAt, Play.finishBoundary_lvc]
  refine ⟨?_, by rw [hzpc]; exact h.counts, by rw [hlevel]; exact h.silent, by rw [hlevel]; exact h.discards⟩
  rw [Play.zone_of_zpc hzpc]
  exact h.gone

theorem exec_stopPointReached (ch : Chan) (s : State) :
    exec (.stopPointReached ch) s = .next (s.onPlay fun e p => p.stopPoint e ch).finishBoundary := rfl

/-- A command on the blocks of `Play` changes no others. -/
theorem State.sameTables_onPlay (s : State) (f : Env → Play → Play) : s.SameTables (s.onPlay f) :=
  ⟨rfl, rfl, rfl, rfl, rfl, rfl⟩

/-- The end of a command of a block boundary changes the blocks of `Play` alone. -/
theorem State.sameTables_boundary (s : State) (f : Env → Play → Play) : s.SameTables (s.onPlay f).finishBoundary :=
  ⟨rfl, rfl, rfl, rfl, rfl, rfl⟩

theorem State.boundary_play (s : State) (f : Env → Play → Play) :
    (s.onPlay f).finishBoundary.play = (f s.env s.play).finishBoundary s.env := rfl

end points

/-- Settles O53: the stop causes are told apart by the branches of the settlement, and each by what follows when the zone
has been left with evacuation released. -/
theorem stopsSettled : Obligations.StopsSettled := by
  unfold Obligations.StopsSettled
  intro s ch id o en c hserved hfind hdue hstate hdrop hreleased
  refine ⟨_, exec_stopPointReached ch s, s.sameTables_boundary _, ?_⟩
  obtain ⟨rfl, hmem⟩ := Play.find_id hfind
  rw [State.boundary_play]
  have hsettles := Play.stopPoint_of_settled (e := s.env) hserved hfind hdue hstate
  generalize s.env = e at *
  generalize hp : s.play.takeBoundary e = p at hsettles
  have hmemP : en ∈ (p.zone o).queue := by rw [← hp]; exact hmem
  have hactive : p.evl.active = false := by rw [← hp]; exact hreleased
  have hcounts : p.zpc.counts = s.play.zpc.counts := by rw [← hp]; rfl
  have hids : (p.zone o).queue = (s.play.zone o).queue := by rw [← hp]; rfl
  rw [← hcounts, ← hids]
  refine ⟨fun hend => ?_, fun hend hfault hwhy => ?_⟩
  · rw [hsettles (Play.playsOn_eq_false_of_evacEnd hend), Play.settleStop_of_evacEnd hdrop hend]
    have hended := (Play.endDone_ended (e := e) (o := o) (en := en) hactive).finishBoundary e
    exact ⟨hended.silent, hended.discards, hended.gone, hended.counts⟩
  rw [hsettles (Play.playsOn_eq_false_of_preempt hwhy), Play.settleStop_of_preempt hdrop hend hfault]
  have hdropped := fun r => (Play.drop_ended (e := e) (o := o) (en := en) hactive r).finishBoundary e
  cases hstale : en.stale with
  | true =>
    rw [if_pos rfl]
    have hended := hdropped .callEnded
    exact ⟨hended.silent, hended.discards, fun _ => ⟨hended.gone, hended.counts⟩, nofun, nofun, nofun⟩
  | false =>
    rw [if_neg Bool.false_ne_true]
    by_cases hallowance : en.allowance = 1
    · rw [if_pos hallowance]
      cases hexpired : e.expired en with
      | true =>
        rw [if_pos rfl]
        have hended := (Play.putBack_expired (e := e) hactive hmemP).finishBoundary e
        exact ⟨hended.silent, hended.discards, nofun, fun _ hne => absurd hallowance hne,
          fun _ _ _ => ⟨hended.gone, hended.counts⟩, nofun⟩
      | false =>
        rw [if_neg Bool.false_ne_true]
        obtain ⟨hback, hbackCounts, hevl, hin⟩ := Play.putBack_stands hmemP
        have hafter := Play.afterStop_fallsSilent (e := e) (o := o) (en := en) (p := p.putBack o en)
          (by rw [hevl, hactive])
        have hzpc := Play.finishBoundary_zpc e ((p.putBack o en).afterStop e o en)
        have hlevel : (((p.putBack o en).afterStop e o en).finishBoundary e).levelAt o =
            ((p.putBack o en).afterStop e o en).levelAt o := by simp only [Play.levelAt, Play.finishBoundary_lvc]
        rw [hlevel, Play.zone_of_zpc hzpc, hzpc]
        refine ⟨hafter.silent, hafter.discards, nofun, fun _ hne => absurd hallowance hne, nofun, fun _ _ _ => ⟨?_, ?_, ?_⟩⟩
        · exact (Entry.StillWaits.ids (hafter.entries o)).trans hback
        · exact hafter.counts.trans hbackCounts
        · obtain ⟨y, hy, hentry, hwaits⟩ := Entry.StillWaits.exists_of_mem (hafter.entries o) hin rfl
          exact ⟨y, hy, hentry.trans (by rw [← hstale]; rfl), hwaits⟩
    · rw [if_neg hallowance]
      have hended := hdropped .preempted
      exact ⟨hended.silent, hended.discards, nofun, fun _ _ => ⟨hended.gone, hended.counts⟩,
        fun _ h => absurd h hallowance, fun _ h => absurd h hallowance⟩

end Sys2Proof.Machine
end

section
/-! PROOFS. Obligation O43: a pass that ends, and an entry at its stop point that plays on or is dropped (R85, R86, R88,
R89, R104). -/
namespace Sys2Proof.Machine

section passes
variable {e : Env} {p : Play} {ch : Chan} {id : AnnId} {o : Out} {en : Entry}

theorem exec_passEnd (ch : Chan) (s : State) :
    exec (.passEnd ch) s = .next (s.onPlay fun e p => p.passEnd e ch).finishBoundary := rfl

/-- A channel whose pass ends is PLAYING (R85). -/
theorem Play.playing_of_passEndDue (h : p.passEndDue e ch = true) : (p.chan ch).state = .playing := by
  simp only [Play.passEndDue, Env.boundaryOpen, Bool.and_eq_true, decide_eq_true_eq] at h
  obtain ⟨⟨⟨⟨⟨hplaying, _⟩, _⟩, _⟩, _⟩, _⟩ := h
  exact hplaying

/-- The channel after the end of a pass that its members have gone through: its next position, or as the allocator left it
where it plays no more. -/
def Play.passOn (ch : Chan) (c : Channel) (next : Option Nat) (p : Play) : Play :=
  if (p.chan ch).state = .playing && (p.chan ch).assigned = c.assigned then p.onChan ch fun c => c.afterPass next else p

theorem Play.passOn_zpc (ch : Chan) (c : Channel) (next : Option Nat) (p : Play) : (p.passOn ch c next).zpc = p.zpc := by
  unfold Play.passOn
  split <;> rfl

/-- The segment that follows the end of a pass: none where the pass is not the last (R85). -/
def Play.nextSegment (p : Play) (c : Channel) : Option Nat :=
  if p.lastPass c then some ((p.following c).getD 0) else none

/-- The end of a pass at a channel that serves a body for one member (R85, R86). -/
theorem Play.passEnd_of_one (hdue : p.passEndDue e ch = true) (hserved : (p.chan ch).served = some (.body id))
    (hmembers : outsOf (p.chan ch).members = [o]) :
    p.passEnd e ch = Play.passOn ch (p.chan ch) (p.nextSegment (p.chan ch))
      ((p.takeBoundary e).memberPass e (p.chan ch) (p.wholeAfter (p.chan ch))
        ((p.nextSegment (p.chan ch)).getD (p.chan ch).seg)
        (if (p.nextSegment (p.chan ch)).isSome then 0 else (p.chan ch).pass + 1) o) := by
  have hchan : (p.takeBoundary e).chan ch = p.chan ch := rfl
  unfold Play.passEnd
  rw [hdue, Bool.not_true, if_neg Bool.false_ne_true]
  dsimp only
  rw [hchan, hserved]
  dsimp only
  rw [hmembers]
  rfl

/-- A RENDERING entry at the end of a pass takes its next position, and its gain is computed (R85, R145). -/
theorem Play.memberPass_of_rendering {c : Channel} (seg pass : Nat) (hserved : c.served = some (.body id))
    (hfind : (p.zone o).queue.find? (fun x => x.id = id) = some en) (hstate : en.state = .rendering) :
    p.memberPass e c false seg pass o =
      (p.onEntry o en.id fun x => { x with seg := seg, pass := pass }).computeGain e o en.cls false := by
  unfold Play.memberPass
  simp only [(Play.fedEntry_of_served hserved).trans hfind, hstate, Bool.false_and, Bool.false_eq_true, if_false]

/-- A RENDERING entry ends DONE with its body played whole, evacuation being released (R86). -/
theorem Play.memberPass_of_whole {c : Channel} (seg pass : Nat) (hserved : c.served = some (.body id))
    (hfind : (p.zone o).queue.find? (fun x => x.id = id) = some en) (hstate : en.state = .rendering)
    (hreleased : p.evl.active = false) : p.memberPass e c true seg pass o = p.endDone e o en := by
  unfold Play.memberPass
  simp only [(Play.fedEntry_of_served hserved).trans hfind, hstate, hreleased, Bool.and_false, Bool.not_false,
    Bool.and_true, if_true]

/-- The end of a pass that is not the last: the entry and the channel take the next pass (R85). -/
theorem Play.passEnd_of_next (hdue : p.passEndDue e ch = true) (hserved : (p.chan ch).served = some (.body id))
    (hfind : (p.zone o).queue.find? (fun x => x.id = id) = some en) (hmembers : outsOf (p.chan ch).members = [o])
    (hstate : en.state = .rendering) (hlast : p.lastPass (p.chan ch) = false) :
    p.passEnd e ch = (((p.takeBoundary e).onEntry o en.id fun x =>
      { x with seg := (p.chan ch).seg, pass := (p.chan ch).pass + 1 }).computeGain e o en.cls false).onChan ch fun c =>
        { c with pass := c.pass + 1, blk := 0, passEnded := true } := by
  have hnext : p.nextSegment (p.chan ch) = none := by
    unfold Play.nextSegment
    rw [hlast, if_neg Bool.false_ne_true]
  have hwhole : p.wholeAfter (p.chan ch) = false := by
    unfold Play.wholeAfter
    rw [hlast, Bool.false_and]
  rw [Play.passEnd_of_one hdue hserved hmembers, hnext, hwhole,
    Play.memberPass_of_rendering _ _ hserved (p := p.takeBoundary e) hfind hstate]
  generalize hq : ((p.takeBoundary e).onEntry o en.id fun x =>
      { x with seg := (none : Option Nat).getD (p.chan ch).seg
               pass := if (none : Option Nat).isSome = true then 0 else (p.chan ch).pass + 1 }) = q
  have hchan : (q.computeGain e o en.cls false).chan ch = p.chan ch := by
    rw [(Play.computeGain_only e o en.cls false q).1, ← hq]
    rfl
  unfold Play.passOn
  rw [hchan, Play.playing_of_passEndDue hdue, if_pos (by simp)]
  rw [← hq]
  rfl

end passes

/-- A level controlled changes nothing of what is sent, the zones and the channels. -/
theorem Play.OnlyLevel.blocks {o : Out} {p q : Play} (h : p.OnlyLevel o q) :
    q.net = p.net ∧ q.zpc = p.zpc ∧ q.cfu = p.cfu ∧ q.evl = p.evl := by
  rw [h.1]
  exact ⟨rfl, rfl, rfl, rfl⟩

/-- A command of a block boundary that leaves nothing to report, and the start gate open, ends with what it did. -/
theorem State.boundary_of_quiet {s : State} (hquiet : s.Quiet) {f : Env → Play → Play}
    (hnet : (f s.env s.play).net = s.play.net) (hevl : (f s.env s.play).evl = s.play.evl) :
    (s.onPlay f).finishBoundary = s.onPlay f := by
  obtain ⟨houtbox, hheld, hgate⟩ := hquiet
  exact State.finishBoundary_of_quiet ⟨(congrArg (fun n => n.pau.outbox) hnet).trans houtbox,
    (congrArg (fun n => n.pau.held) hnet).trans hheld, (congrArg Evac.gateClosed hevl).trans hgate⟩

section stops
variable {e : Env} {p : Play} {ch : Chan} {id : AnnId} {o : Out} {en : Entry} {c : StopCause}

/-- An entry that holds PREEMPT alone plays on when nothing in its queue is more urgent and nothing holds it back (R88). -/
theorem Play.playsOn_of_preempt (hdrop : c.drop = none) (htheft : c.theft = false) (hfault : c.fault = false)
    (hend : c.evacEnd = false) (hreleased : p.evl.active = false)
    (hurgent : ∀ x ∈ (p.zone o).queue, x.id ≠ en.id → moreUrgent x.cls en.cls = false) : p.playsOn o en c = true := by
  have hnone : ((p.zone o).queue.any fun x => decide (x.id ≠ en.id) && moreUrgent x.cls en.cls) = false := by
    refine List.any_eq_false.mpr fun x hx hboth => ?_
    obtain ⟨hid, hmore⟩ := Bool.and_eq_true_iff.mp hboth
    rw [hurgent x hx (of_decide_eq_true hid)] at hmore
    exact Bool.false_ne_true hmore
  simp only [Play.playsOn, Play.stillPreempted, Play.holds, hdrop, htheft, hfault, hend, hnone, hreleased,
    Option.isNone_none, Bool.not_false, Bool.false_and, Bool.or_false, Bool.and_true]

/-- An entry that plays on at its stop point is RENDERING again, its gain computed where the point is a boundary (R88). -/
theorem Play.stopPoint_of_playsOn (hserved : (p.chan ch).served = some (.body id))
    (hfind : (p.zone o).queue.find? (fun x => x.id = id) = some en) (hdue : p.stopDue e ch = [o])
    (hstate : en.state = .stopping c) (hplays : (p.takeBoundary e).playsOn o en c = true) :
    ((p.takeBoundary e).onEntry o en.id fun x => { x with state := .rendering }).OnlyLevel o (p.stopPoint e ch) := by
  rw [Play.stopPoint_of_one hserved hfind hdue hstate, if_pos hplays]
  split
  · exact Play.computeGain_only e o en.cls false _
  · exact .refl o _

end stops

/-- An entry of a zone changed by its id. -/
theorem Play.onEntry_zone_self (p : Play) (o : Out) (id : AnnId) (f : Entry → Entry) :
    (p.onEntry o id f).zone o =
      { p.zone o with queue := (p.zone o).queue.map fun x => if x.id = id then f x else x } := by
  rw [Play.onEntry, Play.onZone_zone_self, Zone.onEntries]
  simp only [decide_eq_true_eq]

theorem Play.onEntry_zone_of_ne (p : Play) (o k : Out) (id : AnnId) (f : Entry → Entry) (h : k ≠ o) :
    (p.onEntry o id f).zone k = p.zone k := Play.onZone_zone_of_ne _ _ _ _ h

/-- Settles O43: the end of a pass by its one member, the entry moving on or ending DONE; the stop point by whether the
entry plays on. -/
theorem passesAndStops : Obligations.PassesAndStops := by
  unfold Obligations.PassesAndStops
  intro s ch id o en hserved hfind
  obtain ⟨rfl, _⟩ := Play.find_id hfind
  refine ⟨fun hdue hmembers hstate => ⟨fun hlast hquiet => ?_, fun hwhole hreleased => ?_⟩,
    fun c hdue hstate => ⟨fun hdrop htheft hfault hend hreleased hquiet hurgent => ?_, fun r hdrop hreleased => ?_⟩⟩
  · have hpass := Play.passEnd_of_next hdue hserved hfind hmembers hstate hlast
    generalize hq : ((s.play.takeBoundary s.env).onEntry o en.id fun x =>
      { x with seg := (s.play.chan ch).seg, pass := (s.play.chan ch).pass + 1 }) = q at hpass
    obtain ⟨hnet, hzpc, hcfu, hevl⟩ := (Play.computeGain_only s.env o en.cls false q).blocks
    have hchan : (q.computeGain s.env o en.cls false).chan ch = s.play.chan ch :=
      (congrArg (fun f : Clips => f.channels.get ch) hcfu).trans (by rw [← hq]; rfl)
    refine ⟨s.onPlay fun e p => p.passEnd e ch, ?_, ?_, ?_, fun k hk => ?_, ?_, ?_, s.sameTables_onPlay _⟩
    · rw [exec_passEnd, State.boundary_of_quiet hquiet]
      · rw [hpass]
        exact hnet.trans (by rw [← hq]; rfl)
      · rw [hpass]
        exact hevl.trans (by rw [← hq]; rfl)
    · show (s.play.passEnd s.env ch).chan ch = _
      rw [hpass, Play.onChan_chan_self, hchan]
    · show (s.play.passEnd s.env ch).zone o = _
      rw [hpass, Play.onChan_zone, Play.zone_of_zpc hzpc, ← hq, Play.onEntry_zone_self]
      rfl
    · show (s.play.passEnd s.env ch).zone k = _
      rw [hpass, Play.onChan_zone, Play.zone_of_zpc hzpc, ← hq, Play.onEntry_zone_of_ne _ _ _ _ _ hk]
      rfl
    · show (s.play.passEnd s.env ch).zpc.counts = _
      rw [hpass, Play.onChan_zpc, hzpc, ← hq]
      rfl
    · show (s.play.passEnd s.env ch).net = _
      rw [hpass, Play.onChan_net, hnet, ← hq]
      rfl
  · have hended := Play.endDone_ended (e := s.env) (o := o) (en := en) (p := s.play.takeBoundary s.env) hreleased
    refine ⟨_, exec_passEnd ch s, ?_⟩
    have hzpc : (s.onPlay fun e p => p.passEnd e ch).finishBoundary.play.zpc =
        ((s.play.takeBoundary s.env).endDone s.env o en).zpc := by
      rw [State.boundary_play, Play.finishBoundary_zpc, Play.passEnd_of_one hdue hserved hmembers, Play.passOn_zpc, hwhole,
        Play.memberPass_of_whole _ _ hserved (p := s.play.takeBoundary s.env) hfind hstate hreleased]
    rw [Play.zone_of_zpc hzpc, hzpc]
    exact ⟨hended.gone, hended.counts, s.sameTables_boundary _⟩
  · have hplays := Play.playsOn_of_preempt (p := s.play.takeBoundary s.env) (o := o) (en := en) hdrop htheft hfault hend
      hreleased hurgent
    obtain ⟨hnet, hzpc, hcfu, hevl⟩ := (Play.stopPoint_of_playsOn hserved hfind hdue hstate hplays).blocks
    refine ⟨s.onPlay fun e p => p.stopPoint e ch, ?_, ?_, fun k hk => ?_, hcfu, hnet, s.sameTables_onPlay _⟩
    · rw [exec_stopPointReached, State.boundary_of_quiet hquiet hnet hevl]
    · exact (Play.zone_of_zpc hzpc o).trans (Play.onEntry_zone_self _ _ _ _)
    · exact (Play.zone_of_zpc hzpc k).trans (Play.onEntry_zone_of_ne _ _ _ _ _ hk)
  · refine ⟨_, exec_stopPointReached ch s, ?_⟩
    rw [State.boundary_play,
      Play.stopPoint_of_settled hserved hfind hdue hstate (Play.playsOn_eq_false_of_drop hdrop),
      Play.settleStop_of_drop hdrop]
    have hended := (Play.drop_ended (e := s.env) (o := o) (en := en) (p := s.play.takeBoundary s.env) hreleased
      r).finishBoundary s.env
    exact ⟨hended.gone, hended.counts, s.sameTables_boundary _⟩

end Sys2Proof.Machine
end

section
/-! PROOFS. Obligation O44: the instants at which waiting entries are dropped or ask for a channel (R83, R91, R92, R94,
R117, R118). -/
namespace Sys2Proof.Machine

/-! ### Instants (R83, R91, R92, R118) -/

/-- A service day lies after another when their difference modulo 65536 is in its lower half (R92). -/
theorem dayDiff_pos_iff (a b : Day) : 0 < dayDiff a b ↔ 1 ≤ (a - b).toNat ∧ (a - b).toNat ≤ 32767 := by
  have hlt := (a - b).isLt
  unfold dayDiff
  rw [BitVec.toInt_eq_toNat_cond]
  split <;> omega

theorem Env.reached_iff (e : Env) (i : Instant) : e.reached i = true ↔ e.clock ≠ .unset ∧
    (1 ≤ (e.now.day - i.day).toNat ∧ (e.now.day - i.day).toNat ≤ 32767 ∨ e.now.day = i.day ∧ i.time ≤ e.now.time) := by
  rw [← dayDiff_pos_iff]
  simp only [Env.reached, Bool.and_eq_true, Bool.or_eq_true, decide_eq_true_eq]

theorem Env.expired_iff (e : Env) (en : Entry) :
    e.expired en = true ↔ ∃ i, en.expiry = some i ∧ e.reached i = true := by
  unfold Env.expired
  cases en.expiry with
  | none => simp
  | some i => simp

theorem Env.syncReached_iff (e : Env) (en : Entry) :
    e.syncReached en = true ↔ ∀ i, en.sync = some i → e.reached i = true := by
  unfold Env.syncReached
  cases en.sync with
  | none => simp
  | some i => simp

theorem Env.syncMissed_iff (e : Env) (en : Entry) : e.syncMissed en = true ↔ en.mustSync = true ∧ ∃ i, en.sync = some i ∧
    e.reached (if i.time + 2000 < 86400000 then ⟨i.day, i.time + 2000⟩
      else ⟨i.day + 1, i.time + 2000 - 86400000⟩) = true := by
  unfold Env.syncMissed
  cases en.sync with
  | none => simp
  | some i => simp [Instant.plus, instantOf, dayMs]

/-! ### One output of all (R91, R94) -/

/-- A fold that only one element changes is the step of that element. -/
theorem foldl_eq_of_only {α β : Type} [DecidableEq β] {f : α → β → α} {a : α} {o : β} {l : List β} (hnodup : l.Nodup)
    (hmem : o ∈ l) (hbefore : ∀ k, k ≠ o → f a k = a) (hafter : ∀ k, k ≠ o → f (f a o) k = f a o) :
    l.foldl f a = f a o := by
  have hrest : ∀ m : List β, o ∉ m → m.foldl f (f a o) = f a o := fun m hm =>
    List.foldlRecOn (motive := fun b => b = f a o) m f rfl fun b hb k hk => by
      rw [hb]
      exact hafter k fun hko => hm (hko ▸ hk)
  induction l with
  | nil => cases hmem
  | cons x rest ih =>
    obtain ⟨hx, hnodup⟩ := List.nodup_cons.mp hnodup
    rw [List.foldl_cons]
    by_cases hxo : x = o
    · rw [hxo]
      exact hrest rest (hxo ▸ hx)
    · rw [hbefore x hxo]
      exact ih hnodup ((List.mem_cons.mp hmem).resolve_left (Ne.symm hxo))

section waiting
variable {e : Env} {p : Play} {o : Out} {id : AnnId} {en : Entry} {r : DropReason}

/-- Of a queue that holds an id once, a selection of that id can only take its one entry. -/
theorem Zone.waiting_of_only {z : Zone} (honly : z.queue.filter (fun x => decide (x.id = id)) = [en])
    (test : Entry → Bool) : z.waiting (fun x => decide (x.id = id) && test x) =
      [en].filter (fun x => test x && decide (x.state = .queued)) ++
        [en].filter fun x => test x && decide (x.state = .starting) := by
  have hfilter : ∀ more : Entry → Bool, z.queue.filter (fun x => (decide (x.id = id) && test x) && more x) =
      [en].filter fun x => test x && more x := fun more => by
    rw [← honly, List.filter_filter]
    exact List.filter_congr fun x _ => by rw [Bool.and_comm (test x && more x), Bool.and_assoc]
  unfold Zone.waiting
  rw [hfilter, hfilter]

/-- A queue without an id holds nothing that a selection of that id takes. -/
theorem Zone.waiting_of_absent {z : Zone} (habsent : ∀ x ∈ z.queue, x.id ≠ id) (test : Entry → Bool) :
    z.waiting (fun x => decide (x.id = id) && test x) = [] := by
  refine List.eq_nil_iff_forall_not_mem.mpr fun x hx => ?_
  obtain ⟨hmem, hlost⟩ := Zone.mem_waiting.mp hx
  simp only [Entry.lostTo, Bool.and_eq_true, decide_eq_true_eq] at hlost
  exact habsent x hmem hlost.1.1

theorem filter_id {z : Zone} (honly : z.queue.filter (fun x => decide (x.id = id)) = [en]) : en.id = id := by
  have hmem : en ∈ z.queue.filter fun x => decide (x.id = id) := by
    rw [honly]
    exact List.mem_singleton.mpr rfl
  exact of_decide_eq_true (List.mem_filter.mp hmem).2

/-- What has no request at the allocator has none to withdraw (R130). -/
theorem Play.withdrawRequest_of_none {served : Served} (h : p.hasRequest o served = false) :
    p.withdrawRequest o served = p := by
  obtain ⟨hwaiting, hchan⟩ := Bool.or_eq_false_iff.mp h
  have hkept : p.cfu.waiting.filter (fun q => !(decide (q.output = o) && decide (q.served = served))) = p.cfu.waiting :=
    List.filter_eq_self.mpr fun q hq => by
      rw [Bool.eq_false_iff.mpr (List.any_eq_false.mp hwaiting q hq)]
      rfl
  have hsame : (p.onCfu fun f => { f with
      waiting := f.waiting.filter fun q => !(decide (q.output = o) && decide (q.served = served)) }) = p := by
    unfold Play.onCfu
    dsimp only
    rw [hkept]
  have hnone : p.chanOf o served = none := by
    rw [← Option.isNone_iff_eq_none, ← Option.not_isSome]
    rw [hchan]
    rfl
  unfold Play.withdrawRequest
  rw [hsame]
  dsimp only
  rw [hnone]

/-- A QUEUED entry without a request is taken out and its drop noted (R94). -/
theorem Play.dropWaiting_of_queued (hstate : en.state = .queued) (hrequest : p.hasRequest o (.body en.id) = false) :
    p.dropWaiting e o r en = (p.takeOut o en).noteDrop en r := by
  unfold Play.dropWaiting Play.leaveWaiting
  dsimp only
  rw [Play.withdrawRequest_of_none hrequest, if_neg (by rw [hstate]; exact nofun)]

/-- What a drop of a QUEUED entry leaves (R77, R94). -/
theorem Play.takeOut_noteDrop (hr : r ≠ .restart) :
    ((p.takeOut o en).noteDrop en r).zone o = { p.zone o with queue := (p.zone o).queue.filter fun x => x.id ≠ en.id } ∧
      (∀ k, k ≠ o → ((p.takeOut o en).noteDrop en r).zone k = p.zone k) ∧
      ((p.takeOut o en).noteDrop en r).zpc.counts = p.zpc.counts.countDrop r ∧
      ((p.takeOut o en).noteDrop en r).cfu = p.cfu ∧
      ((p.takeOut o en).noteDrop en r).evl.gateClosed = p.evl.gateClosed ∧
      en.Tells [⟨en.id, en.cls, en.reported, .dropped (reasonCode r)⟩] p ((p.takeOut o en).noteDrop en r) := by
  obtain ⟨hzpc, _, hcfu, hevl, _⟩ := Play.noteDrop_frame en r (p.takeOut o en)
  obtain ⟨hnet, hcounts⟩ := Play.takeOut_beside o en p
  obtain ⟨_, _, hout, _, _, _, _, hgate⟩ :=
    Play.releaseRef_frame en (p.onZone o fun z => { z with queue := z.queue.filter fun x => x.id ≠ en.id })
  have hzone : ∀ k, ((p.takeOut o en).noteDrop en r).zone k = (p.takeOut o en).zone k := fun k => by
    simp only [Play.zone, Play.noteDrop_zones]
  refine ⟨?_, fun k hk => ?_, by rw [hzpc, hcounts], hcfu.trans hout, by rw [hevl]; exact hgate,
    (Entry.Tells.noteDrop en hr _).of_net hnet.symm rfl⟩
  · rw [hzone, Play.takeOut_zone, if_pos rfl]
  · rw [hzone, Play.takeOut_zone, if_neg hk]

/-- What a drop in every zone does in one of them. -/
def Play.dropIn (e : Env) (sel : Entry → Bool) (r : DropReason) (p : Play) (k : Out) : Play :=
  ((p.zone k).waiting sel).foldl (Play.dropWaiting e k r) p

theorem Play.dropAllWaiting_eq (e : Env) (sel : Entry → Bool) (r : DropReason) (p : Play) :
    p.dropAllWaiting e sel r = allOuts.foldl (Play.dropIn e sel r) p := rfl

theorem Play.dropIn_of_none {sel : Entry → Bool} {k : Out} (hnone : (p.zone k).waiting sel = []) :
    p.dropIn e sel r k = p := by
  rw [Play.dropIn, hnone, List.foldl_nil]

/-- Where nothing is selected, nothing is dropped. -/
theorem Play.dropAllWaiting_of_none {sel : Entry → Bool} (hnone : ∀ k, (p.zone k).waiting sel = []) :
    p.dropAllWaiting e sel r = p :=
  List.foldlRecOn (motive := fun q => q = p) allOuts _ rfl fun q hq k _ => by
    rw [hq]
    exact Play.dropIn_of_none (hnone k)

/-- Of an id that one zone alone holds, QUEUED, the entry that satisfies the test is dropped there (R91, R118). -/
theorem Play.dropAllWaiting_of_only {test : Entry → Bool} (honly : (p.zone o).queue.filter (fun x => decide (x.id = id)) = [en])
    (hothers : ∀ k, k ≠ o → ∀ x ∈ (p.zone k).queue, x.id ≠ id) (hstate : en.state = .queued) (htest : test en = true)
    (hrequest : p.hasRequest o (.body id) = false) (hr : r ≠ .restart) :
    p.dropAllWaiting e (fun x => decide (x.id = id) && test x) r = (p.takeOut o en).noteDrop en r := by
  obtain rfl := filter_id honly
  have hselected : (p.zone o).waiting (fun x => decide (x.id = en.id) && test x) = [en] := by
    rw [Zone.waiting_of_only honly]
    simp [htest, hstate]
  obtain ⟨_, hzones, _⟩ := Play.takeOut_noteDrop (p := p) (o := o) (en := en) hr
  have hstep : p.dropIn e (fun x => decide (x.id = en.id) && test x) r o = (p.takeOut o en).noteDrop en r := by
    rw [Play.dropIn, hselected]
    exact Play.dropWaiting_of_queued hstate hrequest
  rw [Play.dropAllWaiting_eq, foldl_eq_of_only (l := allOuts) (List.nodup_finRange 8) (mem_allOuts o), hstep]
  · exact fun k hk => Play.dropIn_of_none (Zone.waiting_of_absent (hothers k hk) test)
  · intro k hk
    rw [hstep]
    exact Play.dropIn_of_none (by rw [hzones k hk]; exact Zone.waiting_of_absent (hothers k hk) test)

/-- Where the one entry of an id does not satisfy the test, nothing is dropped. -/
theorem Play.dropAllWaiting_of_unselected {test : Entry → Bool}
    (honly : (p.zone o).queue.filter (fun x => decide (x.id = id)) = [en])
    (hothers : ∀ k, k ≠ o → ∀ x ∈ (p.zone k).queue, x.id ≠ id) (htest : test en = false) :
    p.dropAllWaiting e (fun x => decide (x.id = id) && test x) r = p := by
  refine Play.dropAllWaiting_of_none fun k => ?_
  by_cases hk : k = o
  · rw [hk, Zone.waiting_of_only honly]
    simp [htest]
  · exact Zone.waiting_of_absent (hothers k hk) test

end waiting

/-! ### The commands (R91, R118) -/

/-- One QUEUED entry has left its queue, counted under its reason, and its drop has been reported to the station of a
REMOTE one, where there is room for the report. -/
structure State.DropsOne (o : Out) (en : Entry) (r : DropReason) (s t : State) : Prop where
  zone : t.play.zone o = { s.play.zone o with queue := (s.play.zone o).queue.filter fun x => x.id ≠ en.id }
  others : ∀ k, k ≠ o → t.play.zone k = s.play.zone k
  counts : t.play.zpc.counts = s.play.zpc.counts.countDrop r
  silent : (∀ a, en.origin ≠ .remote a) → t.play.net = s.play.net
  report : ∀ a, en.origin = .remote a → s.cfl.load = .running → s.play.net.lki.queue.length < 16 →
    t.play.net.lki.queue = insertFrame s.play.net.lki.queue ⟨if en.cls = .alert then 0 else 1, en.id.origin,
      .zoneReport ⟨en.id.origin, en.id.seq, [⟨en.reported, 4, reasonCode r⟩]⟩⟩
  cfu : t.play.cfu = s.play.cfu
  tables : s.SameTables t

theorem State.finish_drop {s : State} {o : Out} {en : Entry} {r : DropReason} (hquiet : s.Quiet) (hr : r ≠ .restart) :
    s.DropsOne o en r (s.onPlay fun _ p => (p.takeOut o en).noteDrop en r).finish := by
  obtain ⟨houtbox, hheld, hgate⟩ := hquiet
  obtain ⟨hzone, hothers, hcounts, hcfu, hgateSame, htells⟩ := Play.takeOut_noteDrop (p := s.play) (o := o) (en := en) hr
  generalize hu : (s.onPlay fun _ p => (p.takeOut o en).noteDrop en r) = u
  have hplay : u.play = (s.play.takeOut o en).noteDrop en r := by rw [← hu]; rfl
  have hload : u.cfl = s.cfl := by rw [← hu]; rfl
  have hsame : s.SameTables u := by rw [← hu]; exact s.sameTables_onPlay _
  obtain ⟨hzpc, _, hcfuEnd, _, _, _, _, _, _, _, _, _, htables⟩ := u.finish_frame
  rw [← hplay] at hzone hothers hcounts hcfu hgateSame htells
  refine ⟨(Play.zone_of_zpc hzpc o).trans hzone, fun k hk => (Play.zone_of_zpc hzpc k).trans (hothers k hk),
    by rw [hzpc, hcounts], fun hlocal => ?_, fun a ha hrun hroom => ?_, hcfuEnd.trans hcfu, ?_⟩
  · have hnet := htells.silent hlocal
    rw [State.finish_of_quiet ⟨by rw [hnet]; exact houtbox, by rw [hnet]; exact hheld, hgateSame.trans hgate⟩, hnet]
  · have hnet := htells.remote a ha
    have hqueue : u.play.net.lki.queue = s.play.net.lki.queue := by rw [hnet]; rfl
    rw [State.finish_queue_of_one (r := ⟨en.id, en.cls, en.reported, .dropped (reasonCode r)⟩) (by rw [hload]; exact hrun)
      (by rw [hnet]; exact hheld) (by rw [hnet]; exact congrArg (· ++ _) houtbox) (by rw [hqueue]; exact hroom), hqueue]
    rfl
  · obtain ⟨hctb, htgu, hsck, hcfl, helapsed, hpending⟩ := hsame
    obtain ⟨hctb', htgu', hsck', hcfl', helapsed', hpending'⟩ := htables
    exact ⟨hctb'.trans hctb, htgu'.trans htgu, hsck'.trans hsck, hcfl'.trans hcfl, helapsed'.trans helapsed,
      hpending'.trans hpending⟩

section commands
variable {s : State} {o : Out} {id : AnnId} {en : Entry} {r : DropReason} {test : Env → Entry → Bool}

/-- A command at an instant of the waiting entries of an id, where its one entry is due. -/
theorem State.dropAllWaiting_dropsOne (hquiet : s.Quiet)
    (honly : (s.play.zone o).queue.filter (fun x => decide (x.id = id)) = [en])
    (hothers : ∀ k, k ≠ o → ∀ x ∈ (s.play.zone k).queue, x.id ≠ id) (hrequest : s.play.hasRequest o (.body id) = false)
    (hstate : en.state = .queued) (htest : test s.env en = true) (hr : r ≠ .restart) :
    s.DropsOne o en r
      (s.onPlay fun e p => p.dropAllWaiting e (fun x => decide (x.id = id) && test e x) r).finish := by
  have hdrops : (s.onPlay fun e p => p.dropAllWaiting e (fun x => decide (x.id = id) && test e x) r) =
      s.onPlay fun _ p => (p.takeOut o en).noteDrop en r := by
    simp only [State.onPlay, Play.dropAllWaiting_of_only honly hothers hstate htest hrequest hr]
  rw [hdrops]
  exact State.finish_drop hquiet hr

/-- A command at an instant that is not reached changes nothing. -/
theorem State.dropAllWaiting_of_early (hquiet : s.Quiet)
    (honly : (s.play.zone o).queue.filter (fun x => decide (x.id = id)) = [en])
    (hothers : ∀ k, k ≠ o → ∀ x ∈ (s.play.zone k).queue, x.id ≠ id) (htest : test s.env en = false) :
    (s.onPlay fun e p => p.dropAllWaiting e (fun x => decide (x.id = id) && test e x) r).finish = s := by
  have hsame : (s.onPlay fun e p => p.dropAllWaiting e (fun x => decide (x.id = id) && test e x) r) = s := by
    simp only [State.onPlay, Play.dropAllWaiting_of_unselected honly hothers htest]
  rw [hsame, State.finish_of_quiet hquiet]

theorem exec_expiryReached (id : AnnId) (s : State) : exec (.expiryReached id) s =
    .next (s.onPlay fun e p => p.dropAllWaiting e (fun x => x.id = id && e.expired x) .expired).finish := rfl

theorem exec_syncWindowClose (id : AnnId) (s : State) : exec (.syncWindowClose id) s =
    .next (s.onPlay fun e p => p.dropAllWaiting e (fun x => x.id = id && e.syncMissed x) .syncMissed).finish := rfl

theorem exec_syncStartReached (id : AnnId) (s : State) :
    exec (.syncStartReached id) s = .next (s.onPlay fun e p => p.syncStart e id).finish := rfl

end commands

/-! ### The sync start instant (R83) -/

/-- What a sync start instant does in one zone (R83). -/
def Play.askIn (e : Env) (id : AnnId) (p : Play) (k : Out) : Play :=
  match (p.zone k).queue.find? fun x => decide (x.id = id) && decide (x.state = .starting) with
  | some en => p.askChannel e k en
  | none => p

theorem Play.syncStart_eq (e : Env) (id : AnnId) (p : Play) : p.syncStart e id = allOuts.foldl (Play.askIn e id) p := rfl

theorem Play.askIn_of_absent {e : Env} {id : AnnId} {p : Play} {k : Out} (habsent : ∀ x ∈ (p.zone k).queue, x.id ≠ id) :
    p.askIn e id k = p := by
  have hnone : (p.zone k).queue.find? (fun x => decide (x.id = id) && decide (x.state = .starting)) = none :=
    List.find?_eq_none.mpr fun x hx hboth => habsent x hx (of_decide_eq_true (Bool.and_eq_true_iff.mp hboth).1)
  rw [Play.askIn, hnone]

/-- The one STARTING entry of an id asks for a channel when its sync start instant is reached (R83). -/
theorem Play.syncStart_of_only {e : Env} {p : Play} {o : Out} {id : AnnId} {en : Entry}
    (honly : (p.zone o).queue.filter (fun x => decide (x.id = id)) = [en])
    (hothers : ∀ k, k ≠ o → ∀ x ∈ (p.zone k).queue, x.id ≠ id) (hstate : en.state = .starting)
    (hzpc : (p.askChannel e o en).zpc = p.zpc) : p.syncStart e id = p.askChannel e o en := by
  have hfind : (p.zone o).queue.find? (fun x => decide (x.id = id) && decide (x.state = .starting)) = some en := by
    have hfiltered := List.find?_filter (xs := (p.zone o).queue) (p := fun x => decide (x.id = id))
      (q := fun x => decide (x.state = .starting))
    rw [honly, List.find?_singleton, if_pos (decide_eq_true hstate)] at hfiltered
    rw [hfiltered]
    exact congrArg (fun test => (p.zone o).queue.find? test) (funext fun x => (by simp))
  have hstep : p.askIn e id o = p.askChannel e o en := by rw [Play.askIn, hfind]
  rw [Play.syncStart_eq, foldl_eq_of_only (l := allOuts) (List.nodup_finRange 8) (mem_allOuts o), hstep]
  · exact fun k hk => Play.askIn_of_absent (hothers k hk)
  · intro k hk
    rw [hstep]
    exact Play.askIn_of_absent (by rw [Play.zone_of_zpc hzpc]; exact hothers k hk)

/-- Settles O44: of an id that one zone holds, the folds over the outputs come to the step of that zone; a drop is
reported at the end of the command, and a request is granted as one with none before it. -/
theorem waitingInstants : Obligations.WaitingInstants := by
  unfold Obligations.WaitingInstants
  refine ⟨fun s id o en hquiet honly hothers hrequest => ⟨fun hstate => ?_, ?_⟩, Env.reached_iff,
    fun e en => ⟨e.expired_iff en, e.syncReached_iff en, e.syncMissed_iff en⟩⟩
  · obtain rfl := filter_id honly
    refine ⟨fun htest => ?_, fun htest => ?_, fun htest => ?_, fun htest => ?_⟩
    · have h := State.dropAllWaiting_dropsOne (test := Env.expired) (r := .expired) hquiet honly hothers hrequest hstate htest
        (by decide)
      exact ⟨_, exec_expiryReached en.id s, h.zone, h.others, h.counts, h.silent, h.report, h.cfu, h.tables⟩
    · rw [exec_expiryReached, State.dropAllWaiting_of_early (test := Env.expired) hquiet honly hothers htest]
    · have h := State.dropAllWaiting_dropsOne (test := Env.syncMissed) (r := .syncMissed) hquiet honly hothers hrequest
        hstate htest (by decide)
      exact ⟨_, exec_syncWindowClose en.id s, h.zone, h.others, h.counts, h.silent, h.report, h.cfu, h.tables⟩
    · rw [exec_syncWindowClose, State.dropAllWaiting_of_early (test := Env.syncMissed) hquiet honly hothers htest]
  · intro ch hstate hreached hwaiting hserved hfree hlow
    obtain rfl := filter_id honly
    have hasks : s.play.askChannel s.env o en = s.play.requestChan o en.cls (.body en.id) :=
      Play.askChannel_of_reached hreached hrequest
    have hassigns := Play.requestChan_assigns (o := o) (cls := en.cls) hwaiting hserved hfree hlow
    have hstands := Play.Stands.requestChan o en.cls (.body en.id) s.play
    have hstart : s.play.syncStart s.env en.id = s.play.askChannel s.env o en :=
      Play.syncStart_of_only honly hothers hstate (by rw [hasks]; exact hassigns.zpc)
    have hplay : (s.onPlay fun e p => p.syncStart e en.id).play = s.play.requestChan o en.cls (.body en.id) := by
      rw [State.onPlay_play, hstart, hasks]
    have htables := s.sameTables_onPlay fun e p => p.syncStart e en.id
    have hexec := exec_syncStartReached en.id s
    generalize (s.onPlay fun e p => p.syncStart e en.id) = t at hplay htables hexec
    rw [← hplay] at hassigns hstands
    obtain ⟨houtbox, hheld, hgate⟩ := hquiet
    rw [State.finish_of_quiet ⟨by rw [hstands.net]; exact houtbox, by rw [hstands.net]; exact hheld,
      by rw [hstands.evl]; exact hgate⟩] at hexec
    exact ⟨t, hexec, hassigns.served, hassigns.cls, hassigns.members, hassigns.start, hassigns.seg, hassigns.pass,
      hassigns.others, hassigns.assigned, hassigns.zpc, hstands.net, htables⟩

end Sys2Proof.Machine
end

section
/-! PROOFS. What is gathered and held for the reports (R117): the operations that leave it as it is, and that every step
ends with nothing gathered. -/
namespace Sys2Proof.Machine

/-! ### Operations that gather nothing -/

/-- The outcomes gathered in the command and those held for the block boundary are the same. -/
structure Net.SameOutcomes (n m : Net) : Prop where
  outbox : m.pau.outbox = n.pau.outbox
  held : m.pau.held = n.pau.held

theorem Net.SameOutcomes.refl (n : Net) : n.SameOutcomes n := ⟨rfl, rfl⟩

theorem Net.SameOutcomes.trans {n m k : Net} (h : n.SameOutcomes m) (g : m.SameOutcomes k) : n.SameOutcomes k :=
  ⟨g.outbox.trans h.outbox, g.held.trans h.held⟩

theorem Net.SameOutcomes.foldl {α : Type} {f : Net → α → Net} (hf : ∀ (n : Net) a, n.SameOutcomes (f n a)) (l : List α)
    (n : Net) : n.SameOutcomes (l.foldl f n) :=
  List.foldlRecOn (motive := fun m => n.SameOutcomes m) l f (.refl n) fun _ hm a _ => hm.trans (hf _ a)

theorem Net.SameOutcomes.enqueue (e : Env) (f : TxFrame) (n : Net) : n.SameOutcomes (Net.enqueue e f n) :=
  ⟨Net.enqueue_outbox e f n, Net.enqueue_held e f n⟩

theorem Net.SameOutcomes.report (e : Env) (k : FaultKind) (source : Nat) (n : Net) :
    n.SameOutcomes (Net.report e k source n) := ⟨Net.report_outbox e k source n, Net.report_held e k source n⟩

/-- Giving up zones of an origination gathers nothing (R110, R112, R113). -/
theorem Net.SameOutcomes.giveUp (id : AnnId) (sel : Outcome → Bool) (n : Net) :
    n.SameOutcomes (n.onPau fun p => p.giveUp id sel) := by
  obtain ⟨_, houtbox, hheld⟩ := Peers.giveUp_frame n.pau id sel
  exact ⟨houtbox, hheld⟩

/-- A first-report deadline gathers nothing (R112). -/
theorem Net.SameOutcomes.deadline (e : Env) (id : AnnId) (n : Net) : n.SameOutcomes (n.deadline e id) := by
  unfold Net.deadline
  split
  · exact .refl n
  · exact Net.SameOutcomes.trans
      (.trans (m := n.onPau fun p => p.revise id fun o => { o with deadline := none }) ⟨rfl, rfl⟩ (.giveUp id _ _))
      (.foldl (fun m a => .report e .peerSilent a m) _ _)

theorem Net.SameOutcomes.frameSent (e : Env) (n : Net) : n.SameOutcomes (n.frameSent e) := by
  unfold Net.frameSent
  split
  · exact .refl n
  · extract_lets l m
    split
    · exact ⟨rfl, rfl⟩
    · exact ⟨rfl, rfl⟩

theorem Net.SameOutcomes.beaconDue (e : Env) (n : Net) : n.SameOutcomes (n.beaconDue e) := by
  unfold Net.beaconDue
  extract_lets l m
  split
  · exact ⟨rfl, rfl⟩
  · exact .trans (m := m) ⟨rfl, rfl⟩ (.enqueue e _ m)

/-- A claim of another station at the owner map gathers nothing (R107). -/
theorem Net.SameOutcomes.claimZone (e : Env) (src : Nat) (evac : Bool) (n : Net) (z : Nat) :
    n.SameOutcomes (n.claimZone e src evac z) := by
  unfold Net.claimZone
  split
  · split
    · exact ⟨rfl, rfl⟩
    · split
      · exact ⟨rfl, rfl⟩
      · split
        · exact .trans (.report e .zoneOwnerConflict z n) ⟨rfl, rfl⟩
        · exact .report e .zoneOwnerConflict z n
  · exact .refl n

/-- Step 1 of R107: the zones that a station gave up leave the owner map. -/
def Net.relinquish (src : Nat) (zones : ZoneSet) (n : Net) : Net := n.onPau fun p =>
  { p with owners := mapIdx p.owners fun z o => o.filter fun o => !(o.owner = src && !zones.getLsbD z.val) }

/-- Step 2 of R107: the claims on zones of this station. -/
def Net.reportClaims (e : Env) (zones : List Nat) (n : Net) : Net :=
  zones.foldl (fun n z => Net.report e .zoneOwnerConflict z n) n

/-- The three steps of R107, for a beacon of another station. -/
theorem Net.ownerBeacon_of_station {e : Env} {src : Nat} (hother : src ≠ e.own) (hlow : 1 ≤ src) (hhigh : src ≤ 30)
    (f : BeaconFrame) (n : Net) : n.ownerBeacon e src f =
      ((zonesOf f.zones).filter fun z => !(e.outOfZone z).isSome).foldl (Net.claimZone e src f.evacActive)
        ((n.relinquish src f.zones).reportClaims e ((zonesOf f.zones).filter fun z => (e.outOfZone z).isSome)) := by
  unfold Net.ownerBeacon
  rw [if_neg (by simp only [Bool.or_eq_true, decide_eq_true_eq]; omega)]
  rfl

/-- A source outside 1..30 and this station itself are passed over (log entry 11). -/
theorem Net.ownerBeacon_of_no_station {e : Env} {src : Nat} (h : ¬ (src ≠ e.own ∧ 1 ≤ src ∧ src ≤ 30)) (f : BeaconFrame)
    (n : Net) : n.ownerBeacon e src f = n := if_pos (by simp only [Bool.or_eq_true, decide_eq_true_eq]; omega)

theorem Net.SameOutcomes.relinquish (src : Nat) (zones : ZoneSet) (n : Net) : n.SameOutcomes (n.relinquish src zones) := by
  unfold Net.relinquish
  refine ⟨?_, ?_⟩ <;> rw [Net.onPau_pau]

theorem Net.SameOutcomes.reportClaims (e : Env) (zones : List Nat) (n : Net) : n.SameOutcomes (n.reportClaims e zones) :=
  .foldl (fun m z => .report e .zoneOwnerConflict z m) zones n

theorem Net.SameOutcomes.ownerBeacon (e : Env) (src : Nat) (f : BeaconFrame) (n : Net) :
    n.SameOutcomes (n.ownerBeacon e src f) := by
  by_cases h : src ≠ e.own ∧ 1 ≤ src ∧ src ≤ 30
  · obtain ⟨hother, hlow, hhigh⟩ := h
    rw [Net.ownerBeacon_of_station hother hlow hhigh]
    exact (Net.SameOutcomes.trans (.relinquish src f.zones n) (.reportClaims e _ _)).trans (.foldl (.claimZone e src f.evacActive) _ _)
  · rw [Net.ownerBeacon_of_no_station h]
    exact .refl n

theorem State.gapReached_sameOutcomes (idle : Nat) (s : State) : s.play.net.SameOutcomes (s.gapReached idle).play.net := by
  unfold State.gapReached
  rw [State.onPlay_play, Play.onNet_net]
  dsimp only
  split
  · exact .refl _
  · split
    · split
      · exact ⟨rfl, rfl⟩
      · exact ⟨rfl, rfl⟩
    · exact ⟨rfl, rfl⟩

/-- A berth edge that acts on nothing changes the Call Table alone (R18). -/
theorem State.takeLevel_play_of_no_act (l : BerthLine) (i : Fin 8) (level : Bool) (s : State) :
    (s.takeLevel l i level fun u _ => u).play = s.play := by
  unfold State.takeLevel
  dsimp only
  rw [List.foldl_fixed]
  split
  · split
    · rfl
    · rfl
  · rfl

/-! ### States with nothing gathered -/

/-- No outcome stands gathered in the outbox. -/
def State.NoneGathered (s : State) : Prop := s.play.net.pau.outbox = []

section gathered
variable {s : State}

theorem State.NoneGathered.of_play {t : State} (h : s.NoneGathered) (hplay : t.play = s.play) : t.NoneGathered :=
  (congrArg (fun p : Play => p.net.pau.outbox) hplay).trans h

theorem State.NoneGathered.of_same {t : State} (h : s.NoneGathered) (hsame : s.play.net.SameOutcomes t.play.net) :
    t.NoneGathered := hsame.outbox.trans h

theorem State.NoneGathered.onNet (h : s.NoneGathered) {f : Env → Net → Net} (hf : ∀ e (n : Net), n.SameOutcomes (f e n)) :
    (s.onNet f).NoneGathered := h.of_same (hf s.env s.play.net)

theorem State.NoneGathered.when (h : s.NoneGathered) (due : Bool) {act : State → State} (hact : (act s).NoneGathered) :
    (s.when due act).NoneGathered := State.when_keeps h fun _ => hact

/-- The end of a command reports what it gathered (R117). -/
theorem State.finish_noneGathered (s : State) : s.finish.NoneGathered := by
  obtain ⟨_, _, _, _, _, _, _, _, _, _, _, houtbox, _⟩ := s.finish_frame
  exact houtbox

/-- The end of a command of a block boundary holds or reports what it gathered (R117). -/
theorem State.finishBoundary_noneGathered (s : State) : s.finishBoundary.NoneGathered := by
  have hgate : ∀ q : Play, q.gateCheck.net = q.net := fun q => by rw [q.gateCheck_frame.1]
  unfold State.NoneGathered State.finishBoundary
  rw [State.onPlay_play, Play.finishBoundary, hgate]
  split
  · rfl
  · exact Net.flushHeld_outbox _ _

theorem State.tick_noneGathered (h : s.NoneGathered) : s.tick.NoneGathered := h

/-- Whether a command falls due or a millisecond passes, nothing is gathered (log entry 3). -/
theorem State.NoneGathered.idle (h : s.NoneGathered) : s.idle.NoneGathered := by
  unfold State.idle
  split
  · exact h.of_play rfl
  · exact State.tick_noneGathered h

/-! ### The commands -/

/-- A command that does not end by reporting gathers nothing; every other leaves nothing gathered (R117). -/
theorem exec_noneGathered (i : Instr) (h : s.NoneGathered) : ∃ t, exec i s = .next t ∧ t.NoneGathered := by
  cases i with
  | powerOnReset => exact ⟨_, rfl, rfl⟩
  | headerReadComplete | headerReadTimeout | configReadComplete | configLoadTimeout | frameDiscard | beacon | callSet
  | callDelay | callPlatform | callCancel | announce | zoneReport | withdraw | withdrawDone | faultNoticeReceived
  | maintReplyReceived | queryCall | queryZone | queryFault | querySurvey | queryCounters | maintRequestUnknown
  | clearFault | surveyStart | surveyAbort | limitSet | limitLock | restart | stationDayEnd | wholeSecond
  | approachAssert | occupancyAssert | occupancyClear | syncStartReached | blockReadComplete | directoryReadComplete
  | expiryReached | syncWindowClose | supervisionWord | supervisionCycleEnd | autoSurveyRetry | probeChannelTimeout
  | evacAssert | evacRelease => exact ⟨_, rfl, State.finish_noneGathered _⟩
  | channelStart | channelBlockAdvance | passEnd | stopPointReached | windowEnd =>
    exact ⟨_, rfl, State.finishBoundary_noneGathered _⟩
  | linkFrameBegin => exact ⟨_, rfl, h.onNet fun _ _ => ⟨rfl, rfl⟩⟩
  | transmitGapReached idle => exact ⟨_, rfl, h.of_same (s.gapReached_sameOutcomes idle)⟩
  | frameSent => exact ⟨_, rfl, h.onNet .frameSent⟩
  | beaconDue => exact ⟨_, rfl, h.when _ (h.onNet .beaconDue)⟩
  | heardEntryExpire => exact ⟨_, rfl, h.when _ (h.of_play rfl)⟩
  | holdoverTimeout => exact ⟨_, rfl, h.when _ (h.of_same (.report _ .timeHoldover _ _))⟩
  | quietHoursChange =>
    obtain ⟨⟨hnet, _⟩, _⟩ := s.settleQuiet_frame
    exact ⟨_, rfl, h.of_same (hnet ▸ .refl _)⟩
  | ownerEntryExpire => exact ⟨_, rfl, h.onNet fun _ _ => ⟨rfl, rfl⟩⟩
  | reportDeadline id => exact ⟨_, rfl, h.when _ (h.onNet fun e n => .deadline e id n)⟩
  | originationExpire id => exact ⟨_, rfl, h.when _ (h.onNet fun _ n => .giveUp id _ n)⟩
  | berthInputChange => exact ⟨_, rfl, h.of_play rfl⟩
  | approachClear i => exact ⟨_, rfl, h.of_play (s.takeLevel_play_of_no_act .approach i false)⟩
  | retireSecond => exact ⟨_, rfl, h.when _ (h.of_play (State.onCtb_play s _))⟩
  | evacInputChange => exact ⟨_, rfl, h⟩

end gathered

/-- Settles O5: a command ends by reporting or holding what it gathered, or gathers nothing, and so does the idle step. -/
theorem outboxStaysEmpty : Obligations.OutboxStaysEmpty := by
  intro s t h hstep
  unfold step at hstep
  split at hstep
  · next i rest _ =>
    have hrest : State.NoneGathered { s with pending := rest } := h
    obtain ⟨u, hu, hnone⟩ := exec_noneGathered i hrest
    cases hu.symm.trans hstep
    exact hnone
  · cases hstep
    exact State.NoneGathered.idle h

end Sys2Proof.Machine
end

section
/-! PROOFS. Obligation O45: the ZONE_REPORTs of a list of outcomes, one for each announcement, and what the end of a
command reports and holds (R117, R183). -/
namespace Sys2Proof.Machine

/-! ### The outcomes of one announcement after another (R117; log entry 60) -/

theorem groupOutcomes_length_le (k : Nat) (l : List ReportedOutcome) : (groupOutcomes k l).length ≤ k := by
  induction k generalizing l with
  | zero => exact le_rfl
  | succ k ih =>
    cases l with
    | nil => exact Nat.zero_le _
    | cons r rest => exact Nat.succ_le_succ (ih _)

/-- The groups are those of the ids as they first arise, each with every outcome of its id in the order of the list. -/
theorem groupOutcomes_eq {k : Nat} {l : List ReportedOutcome} (h : l.length ≤ k) :
    groupOutcomes k l = (l.map (·.id)).eraseDups.map fun i => l.filter fun x => x.id = i := by
  induction k generalizing l with
  | zero => rw [List.eq_nil_of_length_eq_zero (Nat.le_zero.mp h)]; rfl
  | succ k ih =>
    cases l with
    | nil => rfl
    | cons r rest =>
      have hrest : (rest.map (·.id)).filter (fun i => !i == r.id) = (rest.filter fun x => x.id ≠ r.id).map (·.id) := by
        rw [List.filter_map]
        exact congrArg _ (List.filter_congr fun x _ => (by simp [beq_eq_decide]))
      have hgroup : (r :: rest).filter (fun x => x.id = r.id) = r :: rest.filter fun x => x.id = r.id :=
        List.filter_cons_of_pos (decide_eq_true rfl)
      rw [groupOutcomes, ih ((List.length_filter_le _ rest).trans (Nat.le_of_succ_le_succ h)), List.map_cons,
        List.eraseDups_cons, List.map_cons, hgroup, hrest]
      refine congrArg _ (List.map_congr_left fun i hi => ?_)
      obtain ⟨x, hx, rfl⟩ := List.mem_map.mp (List.mem_eraseDups.mp hi)
      have hne : x.id ≠ r.id := of_decide_eq_true (List.mem_filter.mp hx).2
      rw [List.filter_cons_of_neg (by simpa using hne.symm), List.filter_filter]
      refine List.filter_congr fun y _ => ?_
      by_cases hy : y.id = x.id
      · simp [hy, hne]
      · simp [hy]

theorem ids_length_le (l : List ReportedOutcome) : (l.map (·.id)).eraseDups.length ≤ l.length := by
  have h := groupOutcomes_length_le l.length l
  rwa [groupOutcomes_eq le_rfl, List.length_map] at h

/-! ### The reports of a list of outcomes (R117, R181) -/

/-- The ZONE_REPORT of an announcement joins the transmit queue, where the list holds an outcome of it. -/
def joinReport (l : List ReportedOutcome) (q : List TxFrame) (i : AnnId) : List TxFrame :=
  match l.filter (fun x => x.id = i) with
  | [] => q
  | r :: rest => insertFrame q ⟨if r.cls = .alert then 0 else 1, i.origin, .zoneReport ⟨i.origin, i.seq,
      (r :: rest).map fun x => ⟨x.zone, (outcomeBytes x.outcome).1, (outcomeBytes x.outcome).2⟩⟩⟩

theorem joinReport_length_le (l : List ReportedOutcome) (q : List TxFrame) (i : AnnId) :
    (joinReport l q i).length ≤ q.length + 1 := by
  unfold joinReport
  split
  · exact Nat.le_succ _
  · exact (insertFrame_length q _).le

theorem joinReport_foldl_length_le (l : List ReportedOutcome) (ids : List AnnId) (q : List TxFrame) :
    (ids.foldl (joinReport l) q).length ≤ q.length + ids.length := by
  induction ids generalizing q with
  | nil => exact le_rfl
  | cons i rest ih =>
    have hone := joinReport_length_le l q i
    have hrest := ih (joinReport l q i)
    rw [List.foldl_cons, List.length_cons]
    omega

/-- The link and the counts after some ZONE_REPORTs have joined the queue. -/
def Net.reported (l : List ReportedOutcome) (ids : List AnnId) (n : Net) : Net :=
  { n with
    lki := { n.lki with queue := ids.foldl (joinReport l) n.lki.queue }
    pau := { n.pau with counts := { n.pau.counts with reportSent := bump^[ids.length] n.pau.counts.reportSent } } }

section reports
variable {e : Env} {l : List ReportedOutcome} {n : Net}

/-- One ZONE_REPORT is counted, and joins the queue where there is room. -/
theorem Net.sendReport_of_room {i : AnnId} (hrun : e.load = .running) (hi : i ∈ l.map (·.id))
    (hroom : n.lki.queue.length < 16) : n.sendReport e (l.filter fun x => x.id = i) = n.reported l [i] := by
  obtain ⟨x, hx, rfl⟩ := List.mem_map.mp hi
  unfold Net.reported
  rw [List.foldl_cons, List.foldl_nil, joinReport]
  cases hgroup : l.filter fun y => y.id = x.id with
  | nil => exact absurd (List.mem_filter.mpr ⟨hx, decide_eq_true rfl⟩) (List.eq_nil_iff_forall_not_mem.mp hgroup x)
  | cons r rest =>
    have hr : r.id = x.id :=
      of_decide_eq_true (List.mem_filter.mp (hgroup ▸ List.mem_cons_self : r ∈ l.filter fun y => y.id = x.id)).2
    unfold Net.sendReport
    dsimp only
    refine (Net.enqueue_room _ (decide_eq_true hrun) (by exact hroom)).trans ?_
    rw [hr]
    rfl

/-- The ZONE_REPORTs of some announcements join the queue one after the other, where there is room for all. -/
theorem Net.sendReports_of_room (hrun : e.load = .running) {ids : List AnnId} (hids : ∀ i ∈ ids, i ∈ l.map (·.id))
    (hroom : n.lki.queue.length + ids.length ≤ 16) :
    ids.foldl (fun n i => n.sendReport e (l.filter fun x => x.id = i)) n = n.reported l ids := by
  induction ids generalizing n with
  | nil => rfl
  | cons i rest ih =>
    obtain ⟨hi, hrest⟩ := List.forall_mem_cons.mp hids
    rw [List.length_cons] at hroom
    have hjoined := joinReport_length_le l n.lki.queue i
    rw [List.foldl_cons, Net.sendReport_of_room hrun hi (by omega), ih hrest (by
      change (joinReport l n.lki.queue i).length + rest.length ≤ 16
      omega)]
    rfl

/-- With room for every ZONE_REPORT of a list, the reports queue and count, and nothing else changes. -/
theorem Net.reportAll_of_room (hrun : e.load = .running)
    (hroom : n.lki.queue.length + (l.map (·.id)).eraseDups.length ≤ 16) :
    n.reportAll e l = n.reported l (l.map (·.id)).eraseDups := by
  unfold Net.reportAll
  rw [groupOutcomes_eq le_rfl, List.foldl_map]
  exact Net.sendReports_of_room hrun (fun i hi => List.mem_eraseDups.mp hi) hroom

end reports

/-! ### The end of a command with the start gate open (R117; log entries 21 and 42) -/

section finish
variable {e : Env} {p : Play}

theorem Play.finish_of_boundary (hgate : p.evl.gateClosed = false) (hdue : p.boundaryDue e = true) :
    p.finish e = p.onNet (Net.flush e) := by
  unfold Play.finish
  rw [if_pos hdue]
  exact Play.gateCheck_of_open hgate

theorem Play.finish_of_no_boundary (hgate : p.evl.gateClosed = false) (hdue : p.boundaryDue e = false) :
    p.finish e = (p.onNet (Net.flushHeld e)).onNet (Net.flush e) := by
  unfold Play.finish
  rw [if_neg (Bool.eq_false_iff.mp hdue)]
  exact Play.gateCheck_of_open hgate

/-- What the commands of a block boundary gather is held with what the boundary gathered before (R117). -/
def Play.holdOutcomes (p : Play) : Play :=
  p.onNet fun n => n.onPau fun q => { q with held := q.held ++ q.outbox, outbox := [] }

theorem Play.finishBoundary_of_boundary (hgate : p.evl.gateClosed = false) (hdue : p.boundaryDue e = true) :
    p.finishBoundary e = p.holdOutcomes := by
  unfold Play.finishBoundary
  dsimp only
  rw [if_pos (by exact hdue)]
  exact Play.gateCheck_of_open hgate

theorem Play.finishBoundary_of_no_boundary (hgate : p.evl.gateClosed = false) (hdue : p.boundaryDue e = false) :
    p.finishBoundary e = p.holdOutcomes.onNet (Net.flushHeld e) := by
  unfold Play.finishBoundary
  dsimp only
  rw [if_neg (by exact Bool.eq_false_iff.mp hdue)]
  exact Play.gateCheck_of_open hgate

end finish

/-- Settles O45: the reports by the groups of the outcomes, and the end of a command by whether a boundary is due. -/
theorem reportsGoOut : Obligations.ReportsGoOut := by
  unfold Obligations.ReportsGoOut
  refine ⟨fun e l n hrun hcount hroom => ?_, fun e p hgate => ⟨fun hdue => ?_, fun hdue => ?_, fun hdue => ?_, fun hdue => ?_⟩⟩
  · rw [Net.reportAll_of_room hrun hroom, ← bump_iterate hcount]
    exact ⟨rfl, rfl, rfl⟩
  · rw [Play.finish_of_no_boundary hgate hdue]
    rfl
  · rw [Play.finish_of_boundary hgate hdue]
    rfl
  · rw [Play.finishBoundary_of_boundary hgate hdue]
    rfl
  · rw [Play.finishBoundary_of_no_boundary hgate hdue]
    rfl

end Sys2Proof.Machine
end

section
/-! PROOFS. Obligation O36 and why it fails: the statement does not bound the NO_RESPONSE count. A deadline that finds no
PENDING zone in an entry whose zones are all final retires it and counts nothing (R112, R113), where adding 0 to a
saturating count brings one above 65535 back to 65535. -/
namespace Sys2Proof.Machine

/-- An entry whose one zone has ended, with its first-report deadline still to come. -/
def endedOrigination : Origination := ⟨⟨9, 1⟩, none, none, ⟨0, 0⟩, [⟨20, some 3, .done⟩], some 0, false⟩

/-- The state after reset, but for that entry and a NO_RESPONSE count above the limit of a saturating count. -/
def overCounted : State := State.reset.onNet fun _ n => n.onPau fun p =>
  { p with table := [endedOrigination], counts := { p.counts with noResponse := 65536 } }

/-- The deadline retires the entry and leaves the count. -/
theorem overCounted_deadline : ∃ t, exec (.reportDeadline endedOrigination.id) overCounted = .next t ∧
    t.play.net.pau.table = [] ∧ t.play.net.pau.counts.noResponse = 65536 :=
  ⟨_, rfl, by decide +kernel, by decide +kernel⟩

/-- Refutes O36: where the NO_RESPONSE count lies above 65535, the deadline of an entry whose zones are all final leaves
it there, and the statement has it at 65535. -/
theorem not_peersAge : ¬ Obligations.PeersAge := by
  unfold Obligations.PeersAge
  intro h
  obtain ⟨_, hdeadline, _⟩ := h overCounted
  obtain ⟨t, ht, _, _, hcounts, _⟩ := hdeadline endedOrigination.id endedOrigination 0 (by decide +kernel) rfl (by decide +kernel)
    (by decide +kernel) (by decide +kernel)
  obtain ⟨u, hu, _, hkept⟩ := overCounted_deadline
  cases hu.symm.trans ht
  rw [hcounts] at hkept
  exact absurd hkept (by decide +kernel)

end Sys2Proof.Machine
end

section
/-! PROOFS. Obligation O22: the owner map takes a beacon, zone by zone, and BEACON hands it on (R29, R107). -/
namespace Sys2Proof.Machine

/-! ### The place of a zone (R107) -/

/-- What the place of a zone holds after a claim: the lower address has it (R107, step 3). -/
def takeClaim (src heard : Nat) (evac : Bool) : Option OwnerEntry → Option OwnerEntry
  | none => some ⟨src, heard, evac⟩
  | some o => if o.owner < src then some o else some ⟨src, heard, evac⟩

theorem takeClaim_of_lower {src heard : Nat} {evac : Bool} {o : OwnerEntry} (h : o.owner < src) :
    takeClaim src heard evac (some o) = some o := if_pos h

/-- An absent place, the claimant's own and one of a higher address go to the claimant. -/
theorem takeClaim_of_not_lower {src heard : Nat} {evac : Bool} {place : Option OwnerEntry}
    (h : ∀ o, place = some o → src ≤ o.owner) : takeClaim src heard evac place = some ⟨src, heard, evac⟩ := by
  cases place with
  | none => rfl
  | some o => exact if_neg (Nat.not_lt.mpr (h o rfl))

/-- Another station than the claimant holds the place of a zone. -/
def Peers.contested (p : Peers) (src z : Nat) : Bool :=
  if h : z < 64 then (p.owners.get ⟨z, h⟩).any fun o => o.owner ≠ src else false

theorem Peers.contested_congr {p q : Peers} {z : Nat} (src : Nat)
    (h : ∀ hz : z < 64, q.owners.get ⟨z, hz⟩ = p.owners.get ⟨z, hz⟩) : q.contested src z = p.contested src z := by
  unfold Peers.contested
  split
  · next hz => rw [h hz]
  · rfl

theorem Net.relinquish_owners (src : Nat) (zones : ZoneSet) (n : Net) (z : Fin 64) :
    (n.relinquish src zones).pau.owners.get z =
      (n.pau.owners.get z).filter fun o => !(o.owner = src && !zones.getLsbD z.val) := by
  rw [Net.relinquish, Net.onPau_pau, mapIdx_get]

theorem Net.relinquish_owners_of_claimed {zones : ZoneSet} {z : Fin 64} (h : zones.getLsbD z.val = true) (src : Nat)
    (n : Net) : (n.relinquish src zones).pau.owners.get z = n.pau.owners.get z := by
  rw [Net.relinquish_owners, h]
  cases n.pau.owners.get z with
  | none => rfl
  | some o => simp

theorem Net.relinquish_flt (src : Nat) (zones : ZoneSet) (n : Net) : (n.relinquish src zones).flt = n.flt := by
  rw [Net.relinquish, Net.onPau_flt]

theorem Net.reportClaims_owners (e : Env) (zones : List Nat) (n : Net) :
    (n.reportClaims e zones).pau.owners = n.pau.owners :=
  List.foldlRecOn (motive := fun m : Net => m.pau.owners = n.pau.owners) zones _ rfl fun _ hm _ _ =>
    (Net.report_owners ..).trans hm

/-! ### ZONE_OWNER_CONFLICT (R107, R194) -/

/-- What the Fault Log holds after a conflict over a zone: the other blocks do not matter to it. -/
def recordConflict (e : Env) (n : Net) (flt : FaultLog) (z : Nat) : FaultLog :=
  (Net.report e .zoneOwnerConflict z { n with flt := flt }).flt

theorem Net.report_conflict_flt (e : Env) (base : Net) (z : Nat) (n : Net) :
    (Net.report e .zoneOwnerConflict z n).flt = recordConflict e base n.flt z := Net.report_flt_of_flt e _ z rfl

theorem Net.reportClaims_flt (e : Env) (base : Net) (zones : List Nat) (n : Net) :
    (n.reportClaims e zones).flt = zones.foldl (recordConflict e base) n.flt := by
  unfold Net.reportClaims
  induction zones generalizing n with
  | nil => rfl
  | cons z rest ih => rw [List.foldl_cons, List.foldl_cons, ih, Net.report_conflict_flt e base]

/-! ### The claims (R107, step 3) -/

section claims
variable {e : Env} {src : Nat} {evac : Bool} {n : Net}

/-- A claim of one zone settles its place, and reports where another station holds it. -/
theorem Net.claimZone_frame {z : Nat} (hz : z < 64) :
    (n.claimZone e src evac z).pau.owners = upd n.pau.owners ⟨z, hz⟩ (takeClaim src e.elapsed evac) ∧
      (n.claimZone e src evac z).flt =
        if n.pau.contested src z then (Net.report e .zoneOwnerConflict z n).flt else n.flt := by
  unfold Net.claimZone Peers.contested
  rw [dif_pos hz, dif_pos hz]
  dsimp only
  cases hplace : n.pau.owners.get ⟨z, hz⟩ with
  | none =>
    have hupd : upd n.pau.owners ⟨z, hz⟩ (fun _ => some ⟨src, e.elapsed, evac⟩) =
        upd n.pau.owners ⟨z, hz⟩ (takeClaim src e.elapsed evac) := upd_congr (by rw [hplace]; rfl)
    exact ⟨hupd, rfl⟩
  | some o =>
    rcases Nat.lt_trichotomy src o.owner with hlower | hsame | hhigher
    · have hne : o.owner ≠ src := hlower.ne'
      simp only [hne, hlower, if_true, if_false, Option.any_some, Net.onPau_pau, Net.onPau_flt, Net.report_owners,
        ne_eq, not_false_eq_true, decide_true, and_true]
      exact upd_congr (by rw [hplace, takeClaim_of_not_lower fun x hx => Option.some.inj hx ▸ hlower.le])
    · have heq : o.owner = src := hsame.symm
      simp only [heq, if_true, Option.any_some, Net.onPau_pau, Net.onPau_flt, ne_eq, not_true_eq_false, decide_false,
        Bool.false_eq_true, if_false, and_true]
      exact upd_congr (by rw [hplace, takeClaim_of_not_lower fun x hx => Option.some.inj hx ▸ hsame.le])
    · have hne : o.owner ≠ src := hhigher.ne
      have hnot : ¬ src < o.owner := hhigher.asymm
      simp only [hne, hnot, if_true, if_false, Option.any_some, Net.report_owners, ne_eq, not_false_eq_true, decide_true,
        and_true]
      exact (upd_eq_self _ _ _ (by rw [hplace, takeClaim_of_lower hhigher])).symm

/-- The claims settle the place of each zone of the list, and no other. -/
theorem Net.claimZones_owners {zones : List Nat} (hlt : ∀ z ∈ zones, z < 64) (hnodup : zones.Nodup) (w : Fin 64) :
    (zones.foldl (Net.claimZone e src evac) n).pau.owners.get w =
      if w.val ∈ zones then takeClaim src e.elapsed evac (n.pau.owners.get w) else n.pau.owners.get w := by
  induction zones generalizing n with
  | nil => rfl
  | cons z rest ih =>
    obtain ⟨hz, hrest⟩ := List.forall_mem_cons.mp hlt
    obtain ⟨hnew, hnodup⟩ := List.nodup_cons.mp hnodup
    obtain ⟨howners, _⟩ := Net.claimZone_frame (e := e) (src := src) (evac := evac) (n := n) hz
    rw [List.foldl_cons, ih hrest hnodup, howners, upd_get]
    by_cases hw : w = ⟨z, hz⟩
    · rw [hw, if_neg hnew, if_pos rfl, if_pos List.mem_cons_self]
    · have hval : w.val ≠ z := fun h => hw (Fin.ext h)
      rw [if_neg hw]
      simp only [List.mem_cons, hval, false_or]

/-- The claims report the zones of the list that another station holds. -/
theorem Net.claimZones_flt (base : Net) {zones : List Nat} (hlt : ∀ z ∈ zones, z < 64) (hnodup : zones.Nodup) :
    (zones.foldl (Net.claimZone e src evac) n).flt =
      (zones.filter (n.pau.contested src)).foldl (recordConflict e base) n.flt := by
  induction zones generalizing n with
  | nil => rfl
  | cons z rest ih =>
    obtain ⟨hz, hrest⟩ := List.forall_mem_cons.mp hlt
    obtain ⟨hnew, hnodup⟩ := List.nodup_cons.mp hnodup
    obtain ⟨howners, hflt⟩ := Net.claimZone_frame (e := e) (src := src) (evac := evac) (n := n) hz
    have hsame : rest.filter ((n.claimZone e src evac z).pau.contested src) = rest.filter (n.pau.contested src) :=
      List.filter_congr fun w hw => Peers.contested_congr src fun hlt => by
        rw [howners]
        exact upd_get_of_ne _ _ _ _ fun h => hnew (Fin.mk.inj h ▸ hw)
    rw [List.foldl_cons, ih hrest hnodup, hsame, hflt, List.filter_cons]
    split
    · rw [List.foldl_cons, Net.report_conflict_flt e base]
    · rfl

end claims

/-! ### A beacon at the owner map (R107) -/

section beacon
variable {e : Env} {src : Nat}

/-- The place of a zone after a beacon: given up where the beacon does not name it, claimed where it names a zone of
another station. -/
theorem Net.ownerBeacon_owners (hother : src ≠ e.own) (hlow : 1 ≤ src) (hhigh : src ≤ 30) (f : BeaconFrame) (n : Net)
    (w : Fin 64) : (n.ownerBeacon e src f).pau.owners.get w =
      if f.zones.getLsbD w.val = true ∧ (e.outOfZone w.val).isSome = false
        then takeClaim src e.elapsed f.evacActive ((n.relinquish src f.zones).pau.owners.get w)
      else (n.relinquish src f.zones).pau.owners.get w := by
  rw [Net.ownerBeacon_of_station hother hlow hhigh, Net.claimZones_owners, Net.reportClaims_owners]
  · simp [mem_zonesOf, w.isLt]
  · exact fun z hz => ((mem_zonesOf _ z).mp (List.mem_filter.mp hz).1).1
  · exact (zonesOf_nodup f.zones).filter _

/-- The conflicts of a beacon, over the own zones first. -/
theorem Net.ownerBeacon_flt (hother : src ≠ e.own) (hlow : 1 ≤ src) (hhigh : src ≤ 30) (f : BeaconFrame) (n : Net) :
    (n.ownerBeacon e src f).flt = (((zonesOf f.zones).filter fun z => (e.outOfZone z).isSome) ++
      (zonesOf f.zones).filter fun z => (e.outOfZone z).isNone && n.pau.contested src z).foldl (recordConflict e n) n.flt := by
  have hcontested : ((zonesOf f.zones).filter fun z => !(e.outOfZone z).isSome).filter
      (((n.relinquish src f.zones).reportClaims e
        ((zonesOf f.zones).filter fun z => (e.outOfZone z).isSome)).pau.contested src) =
      (zonesOf f.zones).filter fun z => (e.outOfZone z).isNone && n.pau.contested src z := by
    rw [List.filter_filter]
    refine List.filter_congr fun z hz => ?_
    obtain ⟨_, hclaimed⟩ := (mem_zonesOf _ z).mp hz
    rw [Peers.contested_congr (p := n.pau) src fun hlt => by
      rw [Net.reportClaims_owners]
      exact Net.relinquish_owners_of_claimed (z := ⟨z, hlt⟩) hclaimed src n, Bool.and_comm, Option.not_isSome]
  rw [Net.ownerBeacon_of_station hother hlow hhigh, Net.claimZones_flt n, hcontested, Net.reportClaims_flt e n,
    List.foldl_append, Net.relinquish_flt]
  · exact fun z hz => ((mem_zonesOf _ z).mp (List.mem_filter.mp hz).1).1
  · exact (zonesOf_nodup f.zones).filter _

end beacon

/-! ### A beacon not used for time (R29) -/

theorem State.timeBeacon_of_unused {f : BeaconFrame} (h : f.timeCapable = false ∨ 86400000 ≤ f.time) (src : Nat)
    (s : State) : s.timeBeacon src f = s := by
  refine dif_neg fun hused => ?_
  obtain ⟨hcapable, htime, _⟩ := hused
  rcases h with hnot | hlate
  · rw [hnot] at hcapable
    cases hcapable
  · exact absurd htime (Nat.not_lt.mpr hlate)

/-- What gathers nothing ends a quiet command as it is. -/
theorem State.Quiet.onNet {s : State} (h : s.Quiet) {f : Env → Net → Net} (hf : ∀ e (n : Net), n.SameOutcomes (f e n)) :
    (s.onNet f).Quiet := by
  obtain ⟨houtbox, hheld, hgate⟩ := h
  exact ⟨(hf _ _).outbox.trans houtbox, (hf _ _).held.trans hheld, hgate⟩

/-- Settles O22: the place of each zone after the three steps of R107, and the conflicts over the own zones and then over
those that another station holds. -/
theorem ownerMapTakesBeacon : Obligations.OwnerMapTakesBeacon := by
  unfold Obligations.OwnerMapTakesBeacon
  refine ⟨fun e src f n hother hlow hhigh => ⟨fun z => ⟨fun hclaimed hown => ?_, fun hclaimed hforeign => ?_,
    fun hleft => ?_⟩, Net.ownerBeacon_flt hother hlow hhigh f n⟩, fun s env f htakes hquiet hload hunused => ?_⟩
  · rw [Net.ownerBeacon_owners hother hlow hhigh, if_neg fun h => Bool.false_ne_true (h.2.symm.trans hown),
      Net.relinquish_owners_of_claimed hclaimed]
  · have hplace : (n.ownerBeacon e src f).pau.owners.get z =
        takeClaim src e.elapsed f.evacActive (n.pau.owners.get z) := by
      rw [Net.ownerBeacon_owners hother hlow hhigh, if_pos ⟨hclaimed, by rw [← Option.not_isNone, hforeign]; rfl⟩,
        Net.relinquish_owners_of_claimed hclaimed]
    refine ⟨fun o ho hlower => ?_, fun hnot => ?_⟩
    · rw [hplace, ho, takeClaim_of_lower hlower]
    · rw [hplace, takeClaim_of_not_lower hnot]
  · have hplace : (n.ownerBeacon e src f).pau.owners.get z =
        (n.pau.owners.get z).filter fun o => !decide (o.owner = src) := by
      rw [Net.ownerBeacon_owners hother hlow hhigh, if_neg fun h => Bool.false_ne_true (hleft.symm.trans h.1),
        Net.relinquish_owners, hleft]
      simp
    rw [hplace]
    refine ⟨fun o ho hsrc => ?_, fun hnot => ?_⟩
    · rw [ho, Option.filter_some, if_neg (by simp [hsrc])]
    · cases hget : n.pau.owners.get z with
      | none => rfl
      | some o => rw [Option.filter_some, if_pos (by simp [hnot o hget])]
  · have hgood : (s.tookGood.onNet fun e n => n.ownerBeacon e env.src f).Quiet :=
      hquiet.tookGood.onNet fun e n => .ownerBeacon e env.src f n
    rw [exec_beacon_running htakes hload, State.timeBeacon_of_unused hunused, State.finish_of_quiet hgood]

end Sys2Proof.Machine
end

section
/-! PROOFS. Obligation O17: ZONE_REPORTs at the originator, entry by entry (R108, R111, R113). -/
namespace Sys2Proof.Machine

/-! ### Lists without repetition -/

theorem find?_of_nodup_map {α β : Type} [DecidableEq β] {f : α → β} {l : List α} (h : (l.map f).Nodup) {a : α}
    (ha : a ∈ l) : l.find? (fun x => decide (f x = f a)) = some a := by
  cases hfind : l.find? fun x => decide (f x = f a) with
  | none => exact absurd (decide_eq_true rfl) (List.find?_eq_none.mp hfind a ha)
  | some b =>
    have hb : f b = f a := of_decide_eq_true (List.find?_some hfind :)
    rw [List.inj_on_of_nodup_map h (List.mem_of_find?_eq_some hfind) ha hb]

/-! ### The origination entry of an id (R108) -/

section find
variable {p : Peers} {id : AnnId} {o : Origination}

theorem Peers.mem_of_find (h : p.find id = some o) : o ∈ p.table ∧ o.id = id :=
  ⟨List.mem_of_find?_eq_some h, of_decide_eq_true (List.find?_some h :)⟩

theorem Peers.find_of_mem (hids : (p.table.map (·.id)).Nodup) (ho : o ∈ p.table) : p.find o.id = some o :=
  find?_of_nodup_map hids ho

theorem Peers.eq_of_find (hids : (p.table.map (·.id)).Nodup) (h : p.find id = some o) {x : Origination}
    (hx : x ∈ p.table) (hid : x.id = id) : x = o := by
  obtain ⟨ho, hoid⟩ := Peers.mem_of_find h
  exact List.inj_on_of_nodup_map hids hx ho (hid.trans hoid.symm)

/-- A table whose entries of an id are open loses none of them (R113). -/
theorem Peers.revise_of_open (h : ∀ x ∈ p.table, x.id = id → x.settled = false) : (p.revise id fun o => o) = p := by
  have hmap : (p.table.map fun x => if x.id = id then x else x) = p.table := by
    simp only [ite_self, List.map_id']
  have hfilter : p.table.filter (fun x => !(decide (x.id = id) && x.settled)) = p.table :=
    List.filter_eq_self.mpr fun x hx => by
      by_cases hid : x.id = id
      · rw [h x hx hid, Bool.and_false]; rfl
      · rw [decide_eq_false hid]; rfl
  unfold Peers.revise
  rw [hmap, hfilter]

end find

/-! ### The zones of an entry (R111) -/

/-- A zone of the list takes an outcome, and the others stand. -/
def setOutcome (zone : Nat) (r : Outcome) (l : List OrigZone) : List OrigZone :=
  l.map fun x => if x.zone = zone then { x with outcome := r } else x

/-- The zone list after one entry of a report (R111). -/
def zonesAfter (src : Nat) (i : ReportItem) (r : Outcome) (l : List OrigZone) : List OrigZone :=
  match r with
  | .redirected n => addRedirect src n (setOutcome i.zone r l)
  | _ => setOutcome i.zone r l

section zones
variable {zone src : Nat} {r : Outcome} {i : ReportItem} {l : List OrigZone} {z : OrigZone}

theorem setOutcome_zones : (setOutcome zone r l).map (·.zone) = l.map (·.zone) := by
  rw [setOutcome, List.map_map]
  refine List.map_congr_left fun x _ => ?_
  rw [Function.comp_apply]
  split
  · rfl
  · rfl

theorem mem_setOutcome_of_ne (hz : z ∈ l) (hne : z.zone ≠ zone) : z ∈ setOutcome zone r l :=
  List.mem_map.mpr ⟨z, hz, if_neg hne⟩

theorem setOutcome_any_open (hz : z ∈ l) (hzone : z.zone = zone) (hr : r.final = false) :
    ∃ x ∈ setOutcome zone r l, x.outcome.final = false :=
  ⟨_, List.mem_map_of_mem hz, by rw [if_pos hzone]; exact hr⟩

theorem addRedirect_eq (n : Nat) : addRedirect src n l =
    l ++ if n ≤ 63 ∧ ∀ x ∈ l, x.zone ≠ n then [⟨n, some src, .queued⟩] else [] := by
  unfold addRedirect
  by_cases h : n ≤ 63 ∧ ∀ x ∈ l, x.zone ≠ n
  · have hnew : ¬ (decide (63 < n) || l.any fun x => decide (x.zone = n)) = true := by simpa using h
    rw [if_pos h, if_neg hnew]
  · have hheld : (decide (63 < n) || l.any fun x => decide (x.zone = n)) = true := by
      by_contra hnot
      exact h (by simpa using hnot)
    rw [if_neg h, if_pos hheld, List.append_nil]

theorem addRedirect_nodup (n : Nat) (h : (l.map (·.zone)).Nodup) : ((addRedirect src n l).map (·.zone)).Nodup := by
  rw [addRedirect_eq]
  split
  · next hnew =>
    obtain ⟨_, hnew⟩ := hnew
    rw [List.map_append, List.nodup_append_comm]
    refine List.nodup_cons.mpr ⟨fun hmem => ?_, h⟩
    obtain ⟨x, hx, hxn⟩ := List.mem_map.mp hmem
    exact hnew x hx hxn
  · rwa [List.append_nil]

theorem zonesAfter_nodup (h : (l.map (·.zone)).Nodup) : ((zonesAfter src i r l).map (·.zone)).Nodup := by
  have hset : ((setOutcome i.zone r l).map (·.zone)).Nodup := by rwa [setOutcome_zones]
  unfold zonesAfter
  split
  · exact addRedirect_nodup _ hset
  · exact hset

theorem mem_zonesAfter (hz : z ∈ setOutcome i.zone r l) : z ∈ zonesAfter src i r l := by
  unfold zonesAfter
  split
  · rw [addRedirect_eq]
    exact List.mem_append_left _ hz
  · exact hz

/-- A REDIRECTED entry adds the new zone unless the list holds it, and no other entry adds one (R111). -/
theorem zonesAfter_eq (hr : i.outcome = 3 ∧ r = .done ∨ i.outcome = 4 ∧ r = .dropped i.detail ∨
    i.outcome = 5 ∧ r = .redirected i.detail) : zonesAfter src i r l = setOutcome i.zone r l ++
      if i.outcome = 5 ∧ i.detail ≤ 63 ∧ ∀ x ∈ l, x.zone ≠ i.detail then [⟨i.detail, some src, .queued⟩] else [] := by
  have hheld : (∀ x ∈ setOutcome i.zone r l, x.zone ≠ i.detail) ↔ ∀ x ∈ l, x.zone ≠ i.detail := by
    have hmap : ∀ m : List OrigZone, (∀ x ∈ m, x.zone ≠ i.detail) ↔ ∀ n ∈ m.map (·.zone), n ≠ i.detail := fun m => by
      simp only [List.forall_mem_map]
    rw [hmap, hmap, setOutcome_zones]
  rcases hr with ⟨ho, rfl⟩ | ⟨ho, rfl⟩ | ⟨ho, rfl⟩
  · rw [if_neg (by rw [ho]; omega), List.append_nil]
    rfl
  · rw [if_neg (by rw [ho]; omega), List.append_nil]
    rfl
  · rw [zonesAfter, addRedirect_eq]
    simp only [hheld, ho, true_and]

end zones

/-! ### One entry of a report (R111) -/

/-- The zone list and the count that an entry of a report leaves. -/
def Peers.settleItem (id : AnnId) (zones : List OrigZone) (r : Outcome) (p : Peers) : Peers :=
  { p with
    table := p.table.map fun x => if x.id = id then { x with zones := zones } else x
    counts := p.counts.countOutcome r }

section item
variable {p : Peers} {id : AnnId} {src : Nat} {i : ReportItem} {o : Origination} {r : Outcome} {z : OrigZone}

theorem Peers.applyItem_of_open (hfind : p.find id = some o) (hr : reportResult i = some r)
    (hz : o.zones.find? (fun x => x.zone = i.zone) = some z) (hopen : z.outcome.final = false) :
    p.applyItem id src i = p.settleItem id (zonesAfter src i r o.zones) r := by
  unfold Peers.applyItem
  rw [hfind, hr]
  dsimp only
  rw [hz]
  dsimp only
  rw [if_neg (Bool.eq_false_iff.mp hopen)]
  cases r <;> rfl

theorem Peers.applyItem_of_final (hfind : p.find id = some o) (hz : o.zones.find? (fun x => x.zone = i.zone) = some z)
    (hfinal : z.outcome.final = true) : p.applyItem id src i = p := by
  unfold Peers.applyItem
  rw [hfind]
  cases reportResult i with
  | none => rfl
  | some r =>
    dsimp only
    rw [hz]
    exact if_pos hfinal

theorem Peers.applyItem_of_stray (hfind : p.find id = some o) (hr : reportResult i = some r)
    (hz : ∀ x ∈ o.zones, x.zone ≠ i.zone) : p.applyItem id src i =
      { p with counts := { p.counts with strayOutcome := bump p.counts.strayOutcome } } := by
  have hnone : o.zones.find? (fun x => x.zone = i.zone) = none :=
    List.find?_eq_none.mpr fun x hx => by simpa using hz x hx
  unfold Peers.applyItem
  rw [hfind, hr]
  dsimp only
  rw [hnone]

/-- An entry of a report counts at most, or gives an open zone of the list its outcome. -/
theorem Peers.applyItem_cases (p : Peers) (id : AnnId) (src : Nat) (i : ReportItem) :
    (∃ counts, p.applyItem id src i = { p with counts := counts }) ∨
    ∃ o r z, p.find id = some o ∧ o.zones.find? (fun x => x.zone = i.zone) = some z ∧ z.outcome.final = false ∧
      p.applyItem id src i = p.settleItem id (zonesAfter src i r o.zones) r := by
  cases hfind : p.find id with
  | none => exact .inl ⟨p.counts, by rw [Peers.applyItem, hfind]⟩
  | some o =>
    cases hr : reportResult i with
    | none => exact .inl ⟨p.counts, by rw [Peers.applyItem, hfind, hr]⟩
    | some r =>
      cases hz : o.zones.find? fun x => x.zone = i.zone with
      | none =>
        have hstray := List.find?_eq_none.mp hz
        exact .inl ⟨_, Peers.applyItem_of_stray hfind hr fun x hx => by simpa using hstray x hx⟩
      | some z =>
        cases hfinal : z.outcome.final with
        | true => exact .inl ⟨p.counts, Peers.applyItem_of_final hfind hz hfinal⟩
        | false => exact .inr ⟨o, r, z, rfl, hz, hfinal, Peers.applyItem_of_open hfind hr hz hfinal⟩

theorem Peers.applyItem_frame (p : Peers) (id : AnnId) (src : Nat) (i : ReportItem) :
    (p.applyItem id src i).table.map (·.id) = p.table.map (·.id) ∧ (p.applyItem id src i).outbox = p.outbox ∧
      (p.applyItem id src i).held = p.held := by
  rcases p.applyItem_cases id src i with ⟨_, h⟩ | ⟨_, _, _, _, _, _, h⟩
  · rw [h]
    exact ⟨rfl, rfl, rfl⟩
  · rw [h]
    refine ⟨?_, rfl, rfl⟩
    rw [Peers.settleItem, List.map_map]
    refine List.map_congr_left fun x _ => ?_
    rw [Function.comp_apply]
    split
    · rfl
    · rfl

/-- An entry of a report finds the origination entries it found before. -/
theorem Peers.applyItem_find_isSome (p : Peers) (id : AnnId) (src : Nat) (i : ReportItem) :
    ((p.applyItem id src i).find id).isSome = (p.find id).isSome := by
  have hmem : ∀ q : Peers, (q.find id).isSome = true ↔ id ∈ q.table.map (·.id) := fun q => by
    rw [Peers.find, List.find?_isSome, List.mem_map]
    simp
  rw [Bool.eq_iff_iff, hmem, hmem, (p.applyItem_frame id src i).1]

end item

/-! ### Final outcomes stand (R108) -/

/-- Every entry of an id lists its zones once each, and holds one of them as it is. -/
def Peers.Lists (id : AnnId) (z : OrigZone) (p : Peers) : Prop :=
  ∀ o ∈ p.table, o.id = id → (o.zones.map (·.zone)).Nodup ∧ z ∈ o.zones

section lists
variable {p : Peers} {id : AnnId} {z : OrigZone}

theorem Peers.Lists.applyItem (h : p.Lists id z) (hfinal : z.outcome.final = true) (src : Nat) (i : ReportItem) :
    (p.applyItem id src i).Lists id z := by
  rcases p.applyItem_cases id src i with ⟨_, heq⟩ | ⟨o, r, x, hfind, hx, hopen, heq⟩
  · rw [heq]
    exact h
  · rw [heq]
    intro y hy hyid
    obtain ⟨w, hw, rfl⟩ := List.mem_map.mp hy
    by_cases hwid : w.id = id
    · obtain ⟨ho, hoid⟩ := Peers.mem_of_find hfind
      obtain ⟨hnodup, hz⟩ := h o ho hoid
      have hxzone : x.zone = i.zone := of_decide_eq_true (List.find?_some hx :)
      have hne : z.zone ≠ i.zone := fun hzone => by
        rw [List.inj_on_of_nodup_map hnodup hz (List.mem_of_find?_eq_some hx) (hzone.trans hxzone.symm), hopen] at hfinal
        cases hfinal
      rw [if_pos hwid]
      exact ⟨zonesAfter_nodup hnodup, mem_zonesAfter (mem_setOutcome_of_ne hz hne)⟩
    · rw [if_neg hwid] at hyid
      exact absurd hyid hwid

theorem Peers.Lists.retire (h : p.Lists id z) : (p.revise id fun o => o).Lists id z := fun o ho hoid => by
  obtain ⟨y, hy, rfl⟩ := Peers.mem_revise ho
  rw [ite_self] at hoid ⊢
  exact h y hy hoid

end lists

/-! ### A report (R111, R113) -/

section report
variable {p : Peers} {own src : Nat} {f : ZoneReportFrame}

theorem Peers.zoneReport_of_other (h : f.origin ≠ own) : p.zoneReport own src f = p := if_pos h

theorem Peers.zoneReport_of_late (h : f.origin = own) (hfind : p.find ⟨f.origin, f.seq⟩ = none) :
    p.zoneReport own src f = { p with counts := { p.counts with lateReport := bump p.counts.lateReport } } := by
  unfold Peers.zoneReport
  dsimp only
  rw [if_neg (not_not.mpr h), hfind]

theorem Peers.zoneReport_of_found (h : f.origin = own) (hfind : (p.find ⟨f.origin, f.seq⟩).isSome = true) :
    p.zoneReport own src f =
      (f.items.foldl (Peers.applyItem ⟨f.origin, f.seq⟩ src) p).revise ⟨f.origin, f.seq⟩ fun o => o := by
  obtain ⟨o, ho⟩ := Option.isSome_iff_exists.mp hfind
  unfold Peers.zoneReport
  dsimp only
  rw [if_neg (not_not.mpr h), ho]

theorem Peers.zoneReport_of_one (h : f.origin = own) {o : Origination} (hfind : p.find ⟨f.origin, f.seq⟩ = some o)
    {i : ReportItem} (hone : f.items = [i]) : p.zoneReport own src f =
      (p.applyItem ⟨f.origin, f.seq⟩ src i).revise ⟨f.origin, f.seq⟩ fun o => o := by
  rw [Peers.zoneReport_of_found h (by rw [hfind]; rfl), hone]
  rfl

/-- A report gathers no outcome. -/
theorem Peers.zoneReport_outcomes (own src : Nat) (f : ZoneReportFrame) (p : Peers) :
    (p.zoneReport own src f).outbox = p.outbox ∧ (p.zoneReport own src f).held = p.held := by
  have hitems : (f.items.foldl (Peers.applyItem ⟨f.origin, f.seq⟩ src) p).outbox = p.outbox ∧
      (f.items.foldl (Peers.applyItem ⟨f.origin, f.seq⟩ src) p).held = p.held :=
    List.foldlRecOn (motive := fun q : Peers => q.outbox = p.outbox ∧ q.held = p.held) f.items _ ⟨rfl, rfl⟩
      fun q hq i _ => by
        obtain ⟨_, houtbox, hheld⟩ := q.applyItem_frame ⟨f.origin, f.seq⟩ src i
        exact ⟨houtbox.trans hq.1, hheld.trans hq.2⟩
  by_cases h : f.origin = own
  · cases hfind : p.find ⟨f.origin, f.seq⟩ with
    | none =>
      rw [Peers.zoneReport_of_late h hfind]
      exact ⟨rfl, rfl⟩
    | some o =>
      rw [Peers.zoneReport_of_found h (by rw [hfind]; rfl)]
      exact hitems
  · rw [Peers.zoneReport_of_other h]
    exact ⟨rfl, rfl⟩

/-- A zone of final outcome keeps it for as long as the entry is held (R108). -/
theorem Peers.zoneReport_keeps_final {o o' : Origination} {z : OrigZone} (hids : (p.table.map (·.id)).Nodup)
    (hfind : p.find ⟨f.origin, f.seq⟩ = some o) (hnodup : (o.zones.map (·.zone)).Nodup) (hz : z ∈ o.zones)
    (hfinal : z.outcome.final = true) (hfind' : (p.zoneReport own src f).find ⟨f.origin, f.seq⟩ = some o') :
    z ∈ o'.zones := by
  by_cases h : f.origin = own
  · have hlists : p.Lists ⟨f.origin, f.seq⟩ z := fun x hx hid => by
      rw [Peers.eq_of_find hids hfind hx hid]
      exact ⟨hnodup, hz⟩
    rw [Peers.zoneReport_of_found h (by rw [hfind]; rfl)] at hfind'
    have hitems := List.foldlRecOn (motive := fun q : Peers => q.Lists ⟨f.origin, f.seq⟩ z) f.items _ hlists
      fun q hq i _ => hq.applyItem hfinal src i
    obtain ⟨ho', hid'⟩ := Peers.mem_of_find hfind'
    exact (hitems.retire o' ho' hid').2
  · rw [Peers.zoneReport_of_other h, hfind] at hfind'
    cases hfind'
    exact hz

/-- A report of several entries whose first leaves the entry held is the report of the first and then of the rest
(R111, R113). -/
theorem Peers.zoneReport_cons {i : ReportItem} {rest : List ReportItem} {o : Origination}
    (hids : (p.table.map (·.id)).Nodup) (hitems : f.items = i :: rest) (h : f.origin = own)
    (hfind : (p.zoneReport own src { f with items := [i] }).find ⟨f.origin, f.seq⟩ = some o) :
    p.zoneReport own src f =
      (p.zoneReport own src { f with items := [i] }).zoneReport own src { f with items := rest } := by
  cases hfirst : p.find ⟨f.origin, f.seq⟩ with
  | none =>
    rw [Peers.zoneReport_of_late (f := { f with items := [i] }) h hfirst] at hfind
    exact nomatch hfirst.symm.trans hfind
  | some x =>
    rw [Peers.zoneReport_of_one (f := { f with items := [i] }) h hfirst rfl] at hfind
    generalize hq : p.applyItem ⟨f.origin, f.seq⟩ src i = q at hfind
    have hqids : (q.table.map (·.id)).Nodup := by
      rw [← hq, (p.applyItem_frame ⟨f.origin, f.seq⟩ src i).1]
      exact hids
    have hqfind : (q.find ⟨f.origin, f.seq⟩).isSome = true := by
      rw [← hq, p.applyItem_find_isSome, hfirst]
      rfl
    have hkept : (q.revise ⟨f.origin, f.seq⟩ fun o => o) = q := Peers.revise_of_open fun y hy hyid => by
      obtain ⟨ho, hoid⟩ := Peers.mem_of_find hfind
      obtain ⟨hmem, hopen⟩ := List.mem_filter.mp ho
      obtain ⟨w, hw, rfl⟩ := List.mem_map.mp hmem
      rw [ite_self] at hopen hoid
      rw [List.inj_on_of_nodup_map hqids hy hw (hyid.trans hoid.symm)]
      simpa [hoid] using hopen
    rw [Peers.zoneReport_of_one (f := { f with items := [i] }) h hfirst rfl, hq, hkept,
      Peers.zoneReport_of_found (f := { f with items := rest }) h hqfind,
      Peers.zoneReport_of_found h (by rw [hfirst]; rfl), hitems, List.foldl_cons, hq]

/-- The table after an entry for an open zone: the origination entry stands with its zones, or retires (R113). -/
theorem Peers.settleItem_retire (id : AnnId) (zones : List OrigZone) (r : Outcome) (p : Peers) :
    ((p.settleItem id zones r).revise id fun o => o) = { p with
      table := if ∀ x ∈ zones, x.outcome.final = true then p.table.filter fun x => x.id ≠ id
        else p.table.map fun x => if x.id = id then { x with zones := zones } else x
      counts := p.counts.countOutcome r } := by
  by_cases hfinal : ∀ x ∈ zones, x.outcome.final = true
  · have hsettled : zones.all (fun x => x.outcome.final) = true := List.all_eq_true.mpr hfinal
    have htable : ((p.table.map fun x => if x.id = id then { x with zones := zones } else x).map
        fun x => if x.id = id then x else x).filter (fun x => !(decide (x.id = id) && x.settled)) =
        p.table.filter fun x => x.id ≠ id := by
      simp only [ite_self, List.map_id']
      induction p.table with
      | nil => rfl
      | cons x rest ih =>
        rw [List.map_cons]
        by_cases hid : x.id = id
        · rw [if_pos hid, List.filter_cons_of_neg (by simp [hid, Origination.settled, hsettled]),
            List.filter_cons_of_neg (by simp [hid]), ih]
        · rw [if_neg hid, List.filter_cons_of_pos (by simp [hid]), List.filter_cons_of_pos (by simp [hid]), ih]
    unfold Peers.revise Peers.settleItem
    rw [if_pos hfinal, htable]
  · rw [if_neg hfinal, Peers.revise_of_open]
    · rfl
    · intro x hx hid
      obtain ⟨w, hw, rfl⟩ := List.mem_map.mp hx
      by_cases hwid : w.id = id
      · rw [if_pos hwid]
        exact Bool.eq_false_iff.mpr fun hall => hfinal (List.all_eq_true.mp hall)
      · rw [if_neg hwid] at hid
        exact absurd hid hwid

end report

/-! ### The command -/

/-- A ZONE_REPORT that RUNNING takes is settled by the Peer Announcement Unit, and nothing follows (R111). -/
theorem exec_zoneReport {s : State} {env : Envelope} (h : s.TakesFrame env) (hquiet : s.Quiet) (f : ZoneReportFrame) :
    exec (.zoneReport env f) s =
      .next (s.tookGood.onNet fun _ n => n.onPau fun p => p.zoneReport s.cfl.own env.src f) := by
  have hdone : (s.tookGood.onNet fun _ n => n.onPau fun p => p.zoneReport s.cfl.own env.src f).Quiet :=
    hquiet.tookGood.onNet fun _ n => by
      obtain ⟨houtbox, hheld⟩ := n.pau.zoneReport_outcomes s.cfl.own env.src f
      exact ⟨houtbox, hheld⟩
  have hexec : exec (.zoneReport env f) s = .next (s.receive env true (State.whenRunning fun s =>
      s.onNet fun e n => n.onPau fun p => p.zoneReport e.own env.src f)).finish := rfl
  rw [hexec, State.receive_takes _ h]
  exact congrArg Host.Outcome.next (State.finish_of_quiet hdone)

theorem State.sameTables_took (s : State) (f : Env → Net → Net) : s.SameTables (s.tookGood.onNet f) :=
  ⟨rfl, rfl, rfl, rfl, rfl, rfl⟩

section item
variable {s : State} {env : Envelope} {f : ZoneReportFrame} {o : Origination} {i : ReportItem} {z : OrigZone} {r : Outcome}

theorem reportResult_isSome (hlow : 1 ≤ i.outcome) (hhigh : i.outcome ≤ 5) : ∃ r, reportResult i = some r := by
  obtain h | h | h | h | h : i.outcome = 1 ∨ i.outcome = 2 ∨ i.outcome = 3 ∨ i.outcome = 4 ∨ i.outcome = 5 := by omega
  all_goals exact ⟨_, by rw [reportResult, h]; rfl⟩

/-- An entry of QUEUED or PLAYING for an open zone (R111). -/
theorem exec_zoneReport_under_way (htakes : s.TakesFrame env) (hquiet : s.Quiet) (horigin : f.origin = s.cfl.own)
    (hfind : s.play.net.pau.find ⟨f.origin, f.seq⟩ = some o) (hone : f.items = [i])
    (hr : i.outcome = 1 ∧ r = .queued ∨ i.outcome = 2 ∧ r = .playing) (hnodup : (o.zones.map (·.zone)).Nodup)
    (hz : z ∈ o.zones) (hzone : z.zone = i.zone) (hopen : z.outcome.final = false) :
    ∃ t o', exec (.zoneReport env f) s = .next t ∧ t.play.net.pau.find ⟨f.origin, f.seq⟩ = some o' ∧
      o'.zones = setOutcome i.zone r o.zones ∧ o'.deadline = o.deadline ∧ s.SameTables t := by
  have hresult : reportResult i = some r ∧ r.final = false ∧ zonesAfter env.src i r o.zones = setOutcome i.zone r o.zones := by
    rcases hr with ⟨ho, rfl⟩ | ⟨ho, rfl⟩
    · exact ⟨by rw [reportResult, ho]; rfl, rfl, rfl⟩
    · exact ⟨by rw [reportResult, ho]; rfl, rfl, rfl⟩
  obtain ⟨hresult, hrOpen, hafter⟩ := hresult
  have hzones : o.zones.find? (fun x => x.zone = i.zone) = some z := hzone ▸ find?_of_nodup_map hnodup hz
  have hnotFinal : ¬ ∀ x ∈ setOutcome i.zone r o.zones, x.outcome.final = true := fun hall => by
    obtain ⟨x, hx, hxOpen⟩ := setOutcome_any_open hz hzone hrOpen
    exact Bool.false_ne_true (hxOpen.symm.trans (hall x hx))
  refine ⟨_, { o with zones := setOutcome i.zone r o.zones }, exec_zoneReport htakes hquiet f, ?_, rfl, rfl,
    s.sameTables_took _⟩
  change (s.play.net.pau.zoneReport s.cfl.own env.src f).find _ = _
  rw [Peers.zoneReport_of_one horigin hfind hone, Peers.applyItem_of_open hfind hresult hzones hopen,
    Peers.settleItem_retire, hafter, if_neg hnotFinal]
  have hkept : ((fun x : Origination => decide (x.id = (⟨f.origin, f.seq⟩ : AnnId))) ∘ fun x : Origination =>
      if x.id = ⟨f.origin, f.seq⟩ then { x with zones := setOutcome i.zone r o.zones } else x) =
      fun x => decide (x.id = ⟨f.origin, f.seq⟩) := funext fun x => by
    rw [Function.comp_apply]
    split
    · rfl
    · rfl
  obtain ⟨_, hoid⟩ := Peers.mem_of_find hfind
  rw [Peers.find, List.find?_map, hkept]
  exact (congrArg (Option.map _) hfind).trans (by rw [Option.map_some, if_pos hoid])

/-- An entry of DONE, DROPPED or REDIRECTED for an open zone (R111, R113). -/
theorem exec_zoneReport_final (htakes : s.TakesFrame env) (hquiet : s.Quiet) (horigin : f.origin = s.cfl.own)
    (hfind : s.play.net.pau.find ⟨f.origin, f.seq⟩ = some o) (hone : f.items = [i])
    (hresult : reportResult i = some r) (hnodup : (o.zones.map (·.zone)).Nodup) (hz : z ∈ o.zones)
    (hzone : z.zone = i.zone) (hopen : z.outcome.final = false) :
    exec (.zoneReport env f) s = .next (s.tookGood.onNet fun _ n => n.onPau fun p => { p with
      table := if ∀ x ∈ zonesAfter env.src i r o.zones, x.outcome.final = true
        then p.table.filter fun x => x.id ≠ ⟨f.origin, f.seq⟩
        else p.table.map fun x => if x.id = ⟨f.origin, f.seq⟩ then { x with zones := zonesAfter env.src i r o.zones } else x
      counts := p.counts.countOutcome r }) := by
  have hzones : o.zones.find? (fun x => x.zone = i.zone) = some z := hzone ▸ find?_of_nodup_map hnodup hz
  have hpau : s.play.net.pau.zoneReport s.cfl.own env.src f = _ := Peers.zoneReport_of_one horigin hfind hone
  rw [Peers.applyItem_of_open hfind hresult hzones hopen, Peers.settleItem_retire] at hpau
  rw [exec_zoneReport htakes hquiet]
  exact congrArg (fun p => Host.Outcome.next (s.tookGood.onNet fun _ n => n.onPau fun _ => p)) hpau

/-- With an open zone and each id held once, a report that changes no zone retires no entry (R113). -/
theorem Peers.revise_of_open_zone {p : Peers} {id : AnnId} (hids : (p.table.map (·.id)).Nodup)
    (hfind : p.find id = some o) (hopen : ∃ z ∈ o.zones, z.outcome.final = false) : (p.revise id fun o => o) = p :=
  Peers.revise_of_open fun x hx hid => by
    obtain ⟨y, hy, hyOpen⟩ := hopen
    rw [Peers.eq_of_find hids hfind hx hid]
    exact Bool.eq_false_iff.mpr fun hall => Bool.false_ne_true (hyOpen.symm.trans (List.all_eq_true.mp hall y hy))

end item

/-- Settles O17: what stands of final outcomes, a late report, and each kind of entry by what it does to the zone list. -/
theorem zoneReportsApply : Obligations.ZoneReportsApply := by
  unfold Obligations.ZoneReportsApply
  refine ⟨⟨fun p own src f o o' z hids hfind hnodup hz hfinal hfind' =>
      Peers.zoneReport_keeps_final hids hfind hnodup hz hfinal hfind',
    fun s env f htakes hquiet horigin => ⟨fun hlate => ?_, fun o i z r hfind hone hr hnodup hz hzone hopen =>
      exec_zoneReport_under_way htakes hquiet horigin hfind hone hr hnodup hz hzone hopen⟩⟩,
    fun s env f o i htakes hquiet horigin hids ho hid hopen hone hlow hhigh => ?_,
    fun p own src f i rest o hids hitems horigin hfind => Peers.zoneReport_cons hids hitems horigin hfind⟩
  · exact ⟨_, exec_zoneReport htakes hquiet f, Peers.zoneReport_of_late horigin hlate, s.sameTables_took _⟩
  · have hfind : s.play.net.pau.find ⟨f.origin, f.seq⟩ = some o := hid ▸ Peers.find_of_mem hids ho
    obtain ⟨result, hresult⟩ := reportResult_isSome hlow hhigh
    have hpau := Peers.zoneReport_of_one (src := env.src) horigin hfind hone
    refine ⟨fun z r zones hz hzone hnodup hzopen hr hzones => ?_, fun hstray => ?_, fun z hz hzone hnodup hfinal => ?_⟩
    · have hafter : zonesAfter env.src i r o.zones = zones := (zonesAfter_eq hr).trans hzones.symm
      have hkind : reportResult i = some r ∧ s.play.net.pau.counts.countOutcome r =
          if i.outcome = 3 then { s.play.net.pau.counts with done := bump s.play.net.pau.counts.done }
          else if i.outcome = 4 then { s.play.net.pau.counts with dropped := bump s.play.net.pau.counts.dropped }
          else { s.play.net.pau.counts with redirected := bump s.play.net.pau.counts.redirected } := by
        rcases hr with ⟨ho, rfl⟩ | ⟨ho, rfl⟩ | ⟨ho, rfl⟩
        all_goals exact ⟨by rw [reportResult, ho]; rfl, by rw [ho]; rfl⟩
      obtain ⟨hkind, hcounts⟩ := hkind
      have hexec := exec_zoneReport_final htakes hquiet horigin hfind hone hkind hnodup hz hzone hzopen
      rw [hafter] at hexec
      refine ⟨_, hexec, s.sameTables_took _, ?_⟩
      rw [← hcounts]
      rfl
    · rw [Peers.applyItem_of_stray hfind hresult hstray] at hpau
      rw [exec_zoneReport htakes hquiet]
      refine congrArg (fun p => Host.Outcome.next (s.tookGood.onNet fun _ n => n.onPau fun _ => p)) (hpau.trans ?_)
      exact Peers.revise_of_open_zone hids hfind hopen
    · have hzones : o.zones.find? (fun x => x.zone = i.zone) = some z := hzone ▸ find?_of_nodup_map hnodup hz
      rw [Peers.applyItem_of_final hfind hzones hfinal, Peers.revise_of_open_zone hids hfind hopen] at hpau
      rw [exec_zoneReport htakes hquiet]
      exact congrArg (fun p => Host.Outcome.next (s.tookGood.onNet fun _ n => n.onPau fun _ => p)) hpau

end Sys2Proof.Machine
end

section
/-! PROOFS. Obligation O27: what a withdrawal request takes out, stops and reports, and how it is answered (R87, R93, R94,
R117, R119 to R121). -/
namespace Sys2Proof.Machine

/-! ### The outcomes of the entries taken out (R94, R117) -/

/-- An entry of another station's announcement. -/
def Entry.isRemote (en : Entry) : Bool :=
  match en.origin with
  | .remote _ => true
  | _ => false

/-- What is told of entries taken out by a withdrawal: the drop of each REMOTE one. -/
def withdrawnOutcomes (l : List Entry) : List ReportedOutcome :=
  (l.filter Entry.isRemote).map fun en => ⟨en.id, en.cls, en.reported, .dropped 1⟩

/-- The outcomes told join what is gathered, and nothing else is sent. -/
def Net.gather (l : List ReportedOutcome) (n : Net) : Net := n.onPau fun u => { u with outbox := u.outbox ++ l }

theorem Net.gather_nil (n : Net) : n.gather [] = n := by
  simp only [Net.gather, Net.onPau, List.append_nil]

theorem Net.gather_gather (l m : List ReportedOutcome) (n : Net) : (n.gather l).gather m = n.gather (l ++ m) := by
  simp only [Net.gather, Net.onPau, List.append_assoc]

theorem Entry.Tells.gather {en : Entry} {p q : Play} (h : en.Tells [⟨en.id, en.cls, en.reported, .dropped 1⟩] p q) :
    q.net = p.net.gather (withdrawnOutcomes [en]) := by
  cases horigin : en.origin with
  | remote a =>
    have htold : withdrawnOutcomes [en] = [⟨en.id, en.cls, en.reported, .dropped 1⟩] := by
      simp [withdrawnOutcomes, Entry.isRemote, horigin]
    rw [htold]
    exact h.remote a horigin
  | own | evac =>
    have hlocal : withdrawnOutcomes [en] = [] := by simp [withdrawnOutcomes, Entry.isRemote, horigin]
    rw [hlocal, Net.gather_nil]
    exact h.silent fun a ha => by rw [horigin] at ha; cases ha

/-! ### A withdrawal in one zone (R93, R94) -/

/-- A withdrawal has left one zone with a queue, so many entries gone and counted and so many outcomes told; the other
zones, the channels and the start gate stand. -/
structure Play.Withdraws (o : Out) (queue : List Entry) (gone : Nat) (told : List ReportedOutcome) (p q : Play) : Prop where
  zone : q.zone o = { p.zone o with queue := queue }
  others : ∀ k, k ≠ o → q.zone k = p.zone k
  counts : q.zpc.counts = { p.zpc.counts with withdrawn := bump^[gone] p.zpc.counts.withdrawn }
  cfu : q.cfu = p.cfu
  gate : q.evl.gateClosed = p.evl.gateClosed
  net : q.net = p.net.gather told

section zone
variable {e : Env} {p q r : Play} {o : Out} {sel : Entry → Bool}

theorem Play.Withdraws.refl (p : Play) (o : Out) : p.Withdraws o (p.zone o).queue 0 [] p :=
  ⟨rfl, fun _ _ => rfl, rfl, rfl, rfl, (Net.gather_nil _).symm⟩

theorem Play.Withdraws.trans {queue queue' : List Entry} {gone gone' : Nat} {told told' : List ReportedOutcome}
    (h : p.Withdraws o queue gone told q) (k : q.Withdraws o queue' gone' told' r) :
    p.Withdraws o queue' (gone' + gone) (told ++ told') r where
  zone := by rw [k.zone, h.zone]
  others x hx := (k.others x hx).trans (h.others x hx)
  counts := by rw [k.counts, h.counts, Function.iterate_add_apply]
  cfu := k.cfu.trans h.cfu
  gate := k.gate.trans h.gate
  net := by rw [k.net, h.net, Net.gather_gather]

theorem Play.hasRequest_of_cfu (h : q.cfu = p.cfu) (o : Out) (served : Served) :
    q.hasRequest o served = p.hasRequest o served := by
  unfold Play.hasRequest Play.chanOf Play.findChan Play.chan
  rw [h]

/-- One QUEUED entry without a request is taken out (R94). -/
theorem Play.Withdraws.dropWaiting {en : Entry} (hstate : en.state = .queued)
    (hrequest : p.hasRequest o (.body en.id) = false) : p.Withdraws o ((p.zone o).queue.filter fun x => x.id ≠ en.id) 1
      (withdrawnOutcomes [en]) (p.dropWaiting e o .withdrawn en) := by
  obtain ⟨hzone, hothers, hcounts, hcfu, hgate, htells⟩ :=
    Play.takeOut_noteDrop (p := p) (o := o) (en := en) (r := .withdrawn) (by decide)
  rw [Play.dropWaiting_of_queued hstate hrequest]
  exact ⟨hzone, hothers, hcounts, hcfu, hgate, htells.gather⟩

/-- QUEUED entries without a request are taken out one after the other (R94). -/
theorem Play.Withdraws.dropAll {l : List Entry} (hstate : ∀ en ∈ l, en.state = .queued)
    (hrequest : ∀ en ∈ l, p.hasRequest o (.body en.id) = false) :
    p.Withdraws o ((p.zone o).queue.filter fun x => !(l.any fun en => en.id = x.id)) l.length (withdrawnOutcomes l)
      (l.foldl (Play.dropWaiting e o .withdrawn) p) := by
  induction l generalizing p with
  | nil =>
    have hsame : ((p.zone o).queue.filter fun x => !(([] : List Entry).any fun en => decide (en.id = x.id))) =
        (p.zone o).queue := List.filter_eq_self.mpr fun _ _ => rfl
    rw [hsame]
    exact .refl p o
  | cons en rest ih =>
    obtain ⟨hen, hrest⟩ := List.forall_mem_cons.mp hstate
    obtain ⟨henRequest, hrestRequest⟩ := List.forall_mem_cons.mp hrequest
    have hone := Play.Withdraws.dropWaiting (e := e) hen henRequest
    have hmore := ih (p := p.dropWaiting e o .withdrawn en) hrest fun x hx => by
      rw [Play.hasRequest_of_cfu hone.cfu]
      exact hrestRequest x hx
    have hqueue : ((p.zone o).queue.filter fun x => !((en :: rest).any fun y => decide (y.id = x.id))) =
        ((p.dropWaiting e o .withdrawn en).zone o).queue.filter fun x => !(rest.any fun y => decide (y.id = x.id)) := by
      rw [hone.zone, List.filter_filter]
      refine List.filter_congr fun x _ => ?_
      rw [List.any_cons, Bool.not_or, Bool.and_comm, decide_not, decide_eq_decide.mpr (eq_comm (a := x.id))]
    have htold : withdrawnOutcomes (en :: rest) = withdrawnOutcomes [en] ++ withdrawnOutcomes rest := by
      simp only [withdrawnOutcomes, ← List.map_append, ← List.filter_append, List.singleton_append]
    rw [hqueue, htold, List.foldl_cons]
    exact hone.trans hmore

/-- The entries of a zone that a withdrawal takes out: the selected ones that wait in QUEUED. -/
def Zone.withdrawn (z : Zone) (sel : Entry → Bool) : List Entry := z.queue.filter fun en => sel en && en.state = .queued

/-- What a withdrawal leaves in a queue: the others, the selected ones with the reason (R87). -/
def Zone.afterWithdrawal (z : Zone) (sel : Entry → Bool) : List Entry :=
  (z.queue.filter fun en => !(sel en && en.state = .queued)).map fun en =>
    if sel en = true then en.addCause (StopCause.giveDrop .withdrawn) else en

/-- A withdrawal can be settled in a zone without starting an entry: each selected entry sounds, or is QUEUED with no
request of its own and alone of its id. -/
structure Play.Withdrawable (o : Out) (sel : Entry → Bool) (p : Play) : Prop where
  ready : ∀ en ∈ (p.zone o).queue, sel en = true →
    en.sounding = true ∨ en.state = .queued ∧ p.hasRequest o (.body en.id) = false
  alone : ∀ en ∈ (p.zone o).queue, sel en = true → en.state = .queued → ∀ x ∈ (p.zone o).queue, x.id = en.id → x = en

theorem Entry.not_sounding_of_queued {en : Entry} (h : en.state = .queued) : en.sounding = false :=
  en.sounding_eq_false_iff.mpr (.inl h)

/-- No STARTING entry is selected: the ones taken out are the QUEUED ones. -/
theorem Play.Withdrawable.waiting (h : p.Withdrawable o sel) : (p.zone o).waiting sel = (p.zone o).withdrawn sel := by
  have hstarting : ((p.zone o).queue.filter fun en => sel en && en.state = .starting) = [] :=
    List.filter_eq_nil_iff.mpr fun en hen hboth => by
      obtain ⟨hsel, hstate⟩ := Bool.and_eq_true_iff.mp hboth
      rcases h.ready en hen hsel with hsounds | ⟨hqueued, _⟩
      · rw [en.sounding_eq_false_iff.mpr (.inr (of_decide_eq_true hstate))] at hsounds
        cases hsounds
      · exact nomatch hqueued.symm.trans (of_decide_eq_true hstate)
  rw [Zone.waiting, hstarting, List.append_nil, Zone.withdrawn]

/-- A withdrawal in one zone takes out the QUEUED entries selected and gives the reason to the sounding ones (R93). -/
theorem Play.Withdrawable.removeIn (h : p.Withdrawable o sel) (e : Env) :
    p.Withdraws o ((p.zone o).afterWithdrawal sel) ((p.zone o).withdrawn sel).length
      (withdrawnOutcomes ((p.zone o).withdrawn sel)) (p.removeIn e sel .withdrawn true o) := by
  have hmem : ∀ en, en ∈ (p.zone o).withdrawn sel ↔ en ∈ (p.zone o).queue ∧ sel en = true ∧ en.state = .queued := fun en => by
    simp only [Zone.withdrawn, List.mem_filter, Bool.and_eq_true, decide_eq_true_eq]
  have hdropped := Play.Withdraws.dropAll (e := e) (p := p) (o := o) (l := (p.zone o).withdrawn sel)
    (fun en hen => ((hmem en).mp hen).2.2) fun en hen => by
      obtain ⟨hqueue, hsel, hstate⟩ := (hmem en).mp hen
      rcases h.ready en hqueue hsel with hsounds | ⟨_, hrequest⟩
      · rw [Entry.not_sounding_of_queued hstate] at hsounds
        cases hsounds
      · exact hrequest
  have hleft : ((p.zone o).queue.filter fun x => !(((p.zone o).withdrawn sel).any fun en => en.id = x.id)) =
      (p.zone o).queue.filter fun en => !(sel en && en.state = .queued) := by
    refine List.filter_congr fun x hx => congrArg _ ?_
    rw [Bool.eq_iff_iff, List.any_eq_true]
    constructor
    · rintro ⟨en, hen, hid⟩
      obtain ⟨hqueue, hsel, hstate⟩ := (hmem en).mp hen
      rw [h.alone en hqueue hsel hstate x hx (of_decide_eq_true hid).symm, hsel, hstate]
      rfl
    · intro hboth
      obtain ⟨hsel, hstate⟩ := Bool.and_eq_true_iff.mp hboth
      exact ⟨x, (hmem x).mpr ⟨hx, hsel, of_decide_eq_true hstate⟩, decide_eq_true rfl⟩
  rw [hleft] at hdropped
  unfold Play.removeIn
  rw [h.waiting]
  dsimp only
  generalize ((p.zone o).withdrawn sel).foldl (Play.dropWaiting e o .withdrawn) p = q at hdropped ⊢
  refine ⟨?_, fun k hk => (Play.onZone_zone_of_ne _ _ _ _ hk).trans (hdropped.others k hk), hdropped.counts, hdropped.cfu,
    hdropped.gate, hdropped.net⟩
  rw [Play.onZone_zone_self, hdropped.zone]
  unfold Zone.onEntries Zone.afterWithdrawal
  dsimp only
  refine congrArg (fun queue => { p.zone o with queue := queue }) (List.map_congr_left fun en hen => ?_)
  obtain ⟨hqueue, hnot⟩ := List.mem_filter.mp hen
  by_cases hsel : sel en = true
  · rcases h.ready en hqueue hsel with hsounds | ⟨hqueued, _⟩
    · simp [hsel, hsounds]
    · simp [hsel, hqueued] at hnot
  · simp [hsel]

end zone

/-! ### A WITHDRAW in every zone (R119, R120) -/

/-- The entries that a WITHDRAW selects in a zone. -/
def Play.selects (f : WithdrawFrame) (p : Play) (o : Out) : Entry → Bool := withdrawSelects f (p.zone o).id

/-- What a WITHDRAW does in one zone. -/
def Play.withdrawIn (e : Env) (f : WithdrawFrame) (p : Play) (o : Out) : Play :=
  p.removeIn e (p.selects f o) .withdrawn true o

/-- What a WITHDRAW tells of some zones. -/
def Play.withdrawalTold (f : WithdrawFrame) (l : List Out) (p : Play) : List ReportedOutcome :=
  l.flatMap fun o => withdrawnOutcomes ((p.zone o).withdrawn (p.selects f o))

/-- A WITHDRAW has been settled in some zones. -/
structure Play.WithdrawsAll (f : WithdrawFrame) (l : List Out) (p q : Play) : Prop where
  zones : ∀ o ∈ l, q.zone o = { p.zone o with queue := (p.zone o).afterWithdrawal (p.selects f o) }
  others : ∀ o, o ∉ l → q.zone o = p.zone o
  counts : q.zpc.counts = { p.zpc.counts with withdrawn :=
    bump^[(l.map fun o => ((p.zone o).withdrawn (p.selects f o)).length).sum] p.zpc.counts.withdrawn }
  cfu : q.cfu = p.cfu
  gate : q.evl.gateClosed = p.evl.gateClosed
  net : q.net = p.net.gather (p.withdrawalTold f l)

section all
variable {e : Env} {f : WithdrawFrame} {p q : Play} {o : Out}

theorem Play.Withdrawable.congr {sel : Entry → Bool} (h : p.Withdrawable o sel) (hzone : q.zone o = p.zone o)
    (hcfu : q.cfu = p.cfu) : q.Withdrawable o sel where
  ready en hen hsel := by
    rw [hzone] at hen
    rw [Play.hasRequest_of_cfu hcfu]
    exact h.ready en hen hsel
  alone := by
    rw [hzone]
    exact h.alone

/-- The zones are settled one by one, each as it stood before (log entry 67). -/
theorem Play.WithdrawsAll.foldl {l : List Out} (hl : l.Nodup) (h : ∀ o ∈ l, p.Withdrawable o (p.selects f o)) :
    p.WithdrawsAll f l (l.foldl (Play.withdrawIn e f) p) := by
  induction l generalizing p with
  | nil =>
    exact ⟨fun _ ho => absurd ho List.not_mem_nil, fun _ _ => rfl, rfl, rfl, rfl, (Net.gather_nil _).symm⟩
  | cons o rest ih =>
    obtain ⟨hnew, hrestNodup⟩ := List.nodup_cons.mp hl
    obtain ⟨ho, hrest⟩ := List.forall_mem_cons.mp h
    have hone : p.Withdraws o _ _ _ (p.withdrawIn e f o) := ho.removeIn e
    have hzone : ∀ k ∈ rest, (p.withdrawIn e f o).zone k = p.zone k := fun k hk =>
      hone.others k fun hko => hnew (hko ▸ hk)
    have hselects : ∀ k ∈ rest, (p.withdrawIn e f o).selects f k = p.selects f k := fun k hk => by
      rw [Play.selects, Play.selects, hzone k hk]
    have hmore := ih (p := p.withdrawIn e f o) hrestNodup fun k hk => by
      rw [hselects k hk]
      exact (hrest k hk).congr (hzone k hk) hone.cfu
    have hlengths : (rest.map fun k =>
        (((p.withdrawIn e f o).zone k).withdrawn ((p.withdrawIn e f o).selects f k)).length) =
        rest.map fun k => ((p.zone k).withdrawn (p.selects f k)).length :=
      List.map_congr_left fun k hk => by rw [hzone k hk, hselects k hk]
    have htold : (p.withdrawIn e f o).withdrawalTold f rest = p.withdrawalTold f rest :=
      List.flatMap_congr fun k hk => by rw [hzone k hk, hselects k hk]
    rw [List.foldl_cons]
    refine ⟨fun k hk => ?_, fun k hk => ?_, ?_, hmore.cfu.trans hone.cfu, hmore.gate.trans hone.gate, ?_⟩
    · rcases List.mem_cons.mp hk with rfl | hk
      · rw [hmore.others k hnew, hone.zone]
      · rw [hmore.zones k hk, hzone k hk, hselects k hk]
    · obtain ⟨hko, hk⟩ := not_or.mp (mt List.mem_cons.mpr hk)
      rw [hmore.others k hk, hone.others k hko]
    · rw [hmore.counts, hone.counts, hlengths, List.map_cons, List.sum_cons, Nat.add_comm, Function.iterate_add_apply]
    · rw [hmore.net, hone.net, htold, Net.gather_gather]
      rfl

end all

/-! ### The answer (R117, R120) -/

theorem performedGranularity_eq (f : WithdrawFrame) :
    performedGranularity f = if f.granularity = 2 ∧ f.code = 0 then 0 else f.granularity := by
  simp [performedGranularity]

/-- The WITHDRAW_DONE that answers a WITHDRAW. -/
def withdrawAnswer (env : Envelope) (f : WithdrawFrame) (count : Nat) : TxFrame :=
  ⟨1, env.src, .withdrawDone ⟨f.granularity, performedGranularity f, f.origin, f.seq, f.code, f.zones, f.threshold, count⟩⟩

/-- The outcomes gathered in a command that began with none are reported and leave nothing gathered. -/
theorem Net.flush_gather {e : Env} {l : List ReportedOutcome} {n : Net} (hrun : e.load = .running)
    (hnone : n.pau.outbox = []) (hroom : n.lki.queue.length + (l.map (·.id)).eraseDups.length ≤ 16) :
    (n.gather l).flush e = n.reported l (l.map (·.id)).eraseDups := by
  have hgathered : (n.gather l).pau.outbox = l := by
    rw [Net.gather, Net.onPau_pau, hnone, List.nil_append]
  have hemptied : ((n.gather l).onPau fun p => { p with outbox := [] }) = n := by
    simp only [Net.gather, Net.onPau, ← hnone]
  rw [Net.flush, hgathered, hemptied, Net.reportAll_of_room hrun hroom]

/-- The part after a WITHDRAW of another station that selects some entries: what stands in the zones, what is counted,
and what joins the transmit queue. -/
structure State.Withdrew (env : Envelope) (f : WithdrawFrame) (s t : State) : Prop where
  zones : ∀ o, t.play.zone o = { s.play.zone o with queue := (s.play.zone o).afterWithdrawal (s.play.selects f o) }
  counts : t.play.zpc.counts = { s.play.zpc.counts with withdrawn :=
    bump^[(allOuts.map fun o => ((s.play.zone o).withdrawn (s.play.selects f o)).length).sum] s.play.zpc.counts.withdrawn }
  received : t.play.net.pau.counts.withdrawReceived = bump s.play.net.pau.counts.withdrawReceived
  queue : t.play.net.lki.queue =
    if env.dst = 31 ∧ s.play.countSelected (s.play.selects f) = 0 then s.play.net.lki.queue
    else insertFrame (Net.reportAll s.env (s.play.withdrawalTold f allOuts) s.play.net).lki.queue
      (withdrawAnswer env f (s.play.countSelected (s.play.selects f)))
  tables : s.SameTables t

/-- Where no entry is counted none is QUEUED, and nothing is told. -/
theorem Play.withdrawalTold_of_none {p : Play} {f : WithdrawFrame} (h : p.countSelected (p.selects f) = 0) :
    p.withdrawalTold f allOuts = [] := by
  refine List.flatMap_eq_nil_iff.mpr fun o ho => ?_
  have hnone : ((p.zone o).queue.filter fun en => p.selects f o en && !en.dropHeld) = [] :=
    List.eq_nil_of_length_eq_zero (List.sum_eq_zero_iff.mp h _ (List.mem_map_of_mem ho))
  have hwithdrawn : (p.zone o).withdrawn (p.selects f o) = [] := List.filter_eq_nil_iff.mpr fun en hen hboth => by
    obtain ⟨hsel, hstate⟩ := Bool.and_eq_true_iff.mp hboth
    refine List.filter_eq_nil_iff.mp hnone en hen ?_
    rw [hsel, Entry.dropHeld, of_decide_eq_true hstate]
    rfl
  rw [hwithdrawn]
  rfl

/-- The blocks of `Play` once a WITHDRAW has been counted and before it is settled. -/
def State.countedWithdraw (s : State) : Play :=
  s.tookGood.play.onPauCounts fun c => { c with withdrawReceived := bump c.withdrawReceived }

section answer
variable {s : State} {env : Envelope} {f : WithdrawFrame}

/-- A good WITHDRAW of another station is counted and settled in every zone, and then answered, unless it was broadcast
and removed nothing. -/
theorem State.withdraw_play (hsrc : env.src ≠ s.cfl.own) :
    (s.tookGood.onPlay fun e p => p.withdraw e env f).play =
      let settled := allOuts.foldl (Play.withdrawIn s.env f) s.countedWithdraw
      let count := s.play.countSelected (s.play.selects f)
      if count = 0 && env.dst = 31 then settled
      else settled.onNet fun n => Net.enqueue s.env (withdrawAnswer env f count) (n.flush s.env) := if_neg hsrc

/-- A WITHDRAW that starts no entry, once every zone is settled and before it is answered. -/
theorem State.withdraw_settled (hready : ∀ o, s.play.Withdrawable o (s.play.selects f o)) :
    s.countedWithdraw.WithdrawsAll f allOuts (allOuts.foldl (Play.withdrawIn s.env f) s.countedWithdraw) :=
  .foldl (List.nodup_finRange 8) fun o _ => (hready o).congr rfl rfl

/-- The reports of a withdrawal and then its answer, where there is room for them. -/
theorem State.flush_then_enqueue {told : List ReportedOutcome} (hrun : s.cfl.load = .running) (hquiet : s.Quiet)
    (hroom : s.play.net.lki.queue.length + told.length < 16) (a : TxFrame) :
    let n := Net.enqueue s.env a ((s.countedWithdraw.net.gather told).flush s.env)
    n.lki.queue = insertFrame (Net.reportAll s.env told s.play.net).lki.queue a ∧
      n.pau.counts.withdrawReceived = bump s.play.net.pau.counts.withdrawReceived ∧
      n.pau.outbox = [] ∧ n.pau.held = [] := by
  obtain ⟨houtbox, hheld, _⟩ := hquiet
  have hids := ids_length_le told
  have hlength := joinReport_foldl_length_le told (told.map (·.id)).eraseDups s.play.net.lki.queue
  have hflush : (s.countedWithdraw.net.gather told).flush s.env =
      s.countedWithdraw.net.reported told (told.map (·.id)).eraseDups :=
    Net.flush_gather hrun houtbox (Nat.le_of_lt (lt_of_le_of_lt (Nat.add_le_add_left hids _) hroom))
  have hanswer := Net.enqueue_room (n := s.countedWithdraw.net.reported told (told.map (·.id)).eraseDups) a
    (State.env_running hrun)
    (lt_of_le_of_lt (hlength.trans (Nat.add_le_add_left hids _)) hroom)
  rw [Net.reportAll_of_room hrun (Nat.le_of_lt (lt_of_le_of_lt (Nat.add_le_add_left hids _) hroom))]
  dsimp only
  rw [hflush, hanswer]
  exact ⟨rfl, rfl, houtbox, hheld⟩

/-- A good WITHDRAW of another station that leaves no outcome gathered. -/
theorem exec_withdraw_of_quiet (htakes : s.TakesFrame env) (hok : withdrawOk f = true)
    (hquiet : (s.tookGood.onPlay fun e p => p.withdraw e env f).Quiet) :
    exec (.withdraw env f) s = .next (s.tookGood.onPlay fun e p => p.withdraw e env f) := by
  simp only [exec, execWithdraw, hok, State.receive_takes _ htakes]
  rw [State.finish_of_quiet hquiet]

/-- What a WITHDRAW leaves where it starts no entry and its reports and its answer find room. -/
theorem exec_withdraw (htakes : s.TakesFrame env) (hquiet : s.Quiet) (hsrc : env.src ≠ s.cfl.own)
    (hok : withdrawOk f = true) (hready : ∀ o, s.play.Withdrawable o (s.play.selects f o))
    (hroom : s.play.net.lki.queue.length + (s.play.withdrawalTold f allOuts).length < 16) :
    ∃ t, exec (.withdraw env f) s = .next t ∧ State.Withdrew env f s t := by
  suffices h : (s.tookGood.onPlay fun e p => p.withdraw e env f).Quiet ∧
      State.Withdrew env f s (s.tookGood.onPlay fun e p => p.withdraw e env f) from
    ⟨_, exec_withdraw_of_quiet htakes hok h.1, h.2⟩
  have hplay := State.withdraw_play (s := s) (env := env) (f := f) hsrc
  have htables : s.SameTables (s.tookGood.onPlay fun e p => p.withdraw e env f) := ⟨rfl, rfl, rfl, rfl, rfl, rfl⟩
  have hsettled := State.withdraw_settled hready
  obtain ⟨houtbox, hheld, hgate⟩ := id hquiet
  dsimp only at hplay
  generalize (s.tookGood.onPlay fun e p => p.withdraw e env f) = t at hplay htables ⊢
  generalize allOuts.foldl (Play.withdrawIn s.env f) s.countedWithdraw = settled at hplay hsettled
  have hzones : ∀ o, settled.zone o = { s.play.zone o with
      queue := (s.play.zone o).afterWithdrawal (s.play.selects f o) } := fun o => hsettled.zones o (mem_allOuts o)
  have hnet : settled.net = s.countedWithdraw.net.gather (s.play.withdrawalTold f allOuts) := hsettled.net
  by_cases hnone : env.dst = 31 ∧ s.play.countSelected (s.play.selects f) = 0
  · rw [if_pos (by simp [hnone])] at hplay
    rw [Play.withdrawalTold_of_none hnone.2, Net.gather_nil] at hnet
    rw [← hplay] at hsettled hzones hnet
    refine ⟨⟨?_, ?_, hsettled.gate.trans hgate⟩, hzones, hsettled.counts, ?_, ?_, htables⟩
    · rw [hnet]; exact houtbox
    · rw [hnet]; exact hheld
    · rw [hnet]; rfl
    · rw [hnet, if_pos hnone]; rfl
  · rw [if_neg (by simpa [and_comm] using hnone)] at hplay
    obtain ⟨hqueue, hreceived, hnoOutbox, hnoHeld⟩ := State.flush_then_enqueue htakes.1 hquiet hroom
      (withdrawAnswer env f (s.play.countSelected (s.play.selects f)))
    rw [← hnet] at hqueue hreceived hnoOutbox hnoHeld
    refine ⟨?_, ?_, ?_, ?_, ?_, htables⟩
    · rw [State.Quiet, hplay]; exact ⟨hnoOutbox, hnoHeld, hsettled.gate.trans hgate⟩
    · rw [hplay]; exact hzones
    · rw [hplay]; exact hsettled.counts
    · rw [hplay]; exact hreceived
    · rw [hplay, if_neg hnone]; exact hqueue

end answer

/-! ### The parts of the obligation -/

section parts
variable {s : State} {env : Envelope} {f : WithdrawFrame}

/-- A withdrawal that selects nothing in a zone leaves its queue. -/
theorem Zone.afterWithdrawal_of_none {z : Zone} {sel : Entry → Bool} (h : ∀ en ∈ z.queue, sel en = false) :
    z.afterWithdrawal sel = z.queue := by
  have hstay : (z.queue.filter fun en => !(sel en && en.state = .queued)) = z.queue :=
    List.filter_eq_self.mpr fun en hen => by simp [h en hen]
  rw [Zone.afterWithdrawal, hstay]
  exact (List.map_congr_left fun en hen => if_neg (by simp [h en hen])).trans (List.map_id _)

/-- A WITHDRAW that selects nothing is counted and answered with a count of 0, unless it was broadcast (R119, R120). -/
theorem exec_withdraw_of_none (htakes : s.TakesFrame env) (hquiet : s.Quiet) (hsrc : env.src ≠ s.cfl.own)
    (hok : withdrawOk f = true) (hroom : s.play.net.lki.queue.length < 16)
    (hnone : ∀ o, ∀ en ∈ (s.play.zone o).queue, s.play.selects f o en = false) :
    ∃ t, exec (.withdraw env f) s = .next t ∧ t.play.zpc = s.play.zpc ∧ s.SameTables t ∧
      t.play.net.pau.counts.withdrawReceived = bump s.play.net.pau.counts.withdrawReceived ∧
      t.play.net.lki.queue = if env.dst = 31 then s.play.net.lki.queue
        else insertFrame s.play.net.lki.queue (withdrawAnswer env f 0) := by
  have hcount : s.play.countSelected (s.play.selects f) = 0 := List.sum_eq_zero fun n hn => by
    obtain ⟨o, _, rfl⟩ := List.mem_map.mp hn
    exact List.length_eq_zero_iff.mpr (List.filter_eq_nil_iff.mpr fun en hen => by simp [hnone o en hen])
  have htold : s.play.withdrawalTold f allOuts = [] := Play.withdrawalTold_of_none hcount
  have hgone : (allOuts.map fun o => ((s.play.zone o).withdrawn (s.play.selects f o)).length).sum = 0 :=
    List.sum_eq_zero fun n hn => by
      obtain ⟨o, _, rfl⟩ := List.mem_map.mp hn
      exact List.length_eq_zero_iff.mpr (List.filter_eq_nil_iff.mpr fun en hen => by simp [hnone o en hen])
  obtain ⟨t, hexec, hzones, hcounts, hreceived, hqueue, htables⟩ := exec_withdraw htakes hquiet hsrc hok
    (fun o => ⟨fun en hen hsel => absurd hsel (by simp [hnone o en hen]),
      fun en hen hsel => absurd hsel (by simp [hnone o en hen])⟩) (by rw [htold]; exact hroom)
  rw [hgone] at hcounts
  rw [hcount, htold] at hqueue
  refine ⟨t, hexec, ?_, htables, hreceived, hqueue.trans ?_⟩
  · have hsame : t.play.zpc.zones = s.play.zpc.zones := vector_ext fun o => by
      have hzone := hzones o
      rw [Zone.afterWithdrawal_of_none (hnone o)] at hzone
      exact hzone
    exact congrArg₂ Playout.mk hsame hcounts
  · simp only [and_true]
    rfl

/-- A WITHDRAW_DONE that RUNNING takes is counted by the Peer Announcement Unit, and nothing follows (R121). -/
theorem exec_withdrawDone {f : WithdrawDoneFrame} (htakes : s.TakesFrame env) (hquiet : s.Quiet) :
    exec (.withdrawDone env f) s =
      .next (s.tookGood.onNet fun _ n => n.onPau fun p => p.withdrawDone s.cfl.own env f) := by
  have hdone : (s.tookGood.onNet fun _ n => n.onPau fun p => p.withdrawDone s.cfl.own env f).Quiet :=
    hquiet.tookGood.onNet fun _ n => by
      unfold Peers.withdrawDone
      constructor <;> rw [Net.onPau_pau] <;> split <;> rfl
  have hexec : exec (.withdrawDone env f) s = .next (s.receive env true (State.whenRunning fun s =>
      s.onNet fun e n => n.onPau fun p => p.withdrawDone e.own env f)).finish := rfl
  rw [hexec, State.receive_takes _ htakes]
  exact congrArg Host.Outcome.next (State.finish_of_quiet hdone)

/-- A withdrawal that selects sounding entries alone takes none out of the zone (R87, R93). -/
theorem Play.removeIn_of_sounding {e : Env} {p : Play} {o : Out} {sel : Entry → Bool}
    (h : ∀ en ∈ (p.zone o).queue, sel en = true → en.sounding = true) :
    ((p.removeIn e sel .withdrawn true o).zone o).queue = (p.zone o).queue.map fun en =>
      if sel en = true then en.addCause (StopCause.giveDrop .withdrawn) else en := by
  have hnotQueued : ∀ en ∈ (p.zone o).queue, sel en = true → en.state ≠ .queued := fun en hen hsel hstate => by
    have hsounds := h en hen hsel
    rw [Entry.not_sounding_of_queued hstate] at hsounds
    cases hsounds
  have hready : p.Withdrawable o sel :=
    ⟨fun en hen hsel => .inl (h en hen hsel), fun en hen hsel hstate => absurd hstate (hnotQueued en hen hsel)⟩
  rw [(hready.removeIn e).zone]
  refine congrArg _ (List.filter_eq_self.mpr fun en hen => ?_)
  by_cases hsel : sel en = true
  · simp [hnotQueued en hen hsel]
  · simp [hsel]

/-- A withdrawal that selects one QUEUED entry without a request takes it out, and the others stand (R94). -/
theorem Play.removeIn_of_queued {e : Env} {p : Play} {o : Out} {sel : Entry → Bool} {en : Entry}
    (hone : (p.zone o).queue.filter sel = [en]) (hstate : en.state = .queued)
    (hrequest : p.hasRequest o (.body en.id) = false) (halone : ∀ x ∈ (p.zone o).queue, x.id = en.id → x = en) :
    ((p.removeIn e sel .withdrawn true o).zone o).queue = (p.zone o).queue.filter (fun x => x.id ≠ en.id) ∧
      (p.removeIn e sel .withdrawn true o).zpc.counts.withdrawn = bump p.zpc.counts.withdrawn := by
  have hselected : ∀ x ∈ (p.zone o).queue, sel x = true → x = en := fun x hx hsel =>
    List.mem_singleton.mp (hone ▸ List.mem_filter.mpr ⟨hx, hsel⟩)
  have hsel : sel en = true := (List.mem_filter.mp (hone ▸ List.mem_singleton_self en)).2
  have hwithdrawn : (p.zone o).withdrawn sel = [en] := by
    rw [Zone.withdrawn, ← hone]
    refine List.filter_congr fun x hx => ?_
    by_cases hx' : sel x = true
    · simp [hselected x hx hx', hstate]
    · simp [hx']
  have hready : p.Withdrawable o sel := by
    refine ⟨fun x hx hx' => ?_, fun x hx hx' _ => ?_⟩ <;> rw [hselected x hx hx']
    · exact .inr ⟨hstate, hrequest⟩
    · exact halone
  have hdone := hready.removeIn e
  rw [hwithdrawn] at hdone
  refine ⟨?_, by rw [hdone.counts]; rfl⟩
  have hleft : ((p.zone o).queue.filter fun x => !(sel x && x.state = .queued)) =
      (p.zone o).queue.filter fun x => x.id ≠ en.id := List.filter_congr fun x hx => by
    by_cases hid : x.id = en.id
    · rw [halone x hx hid, hsel, hstate]
      simp
    · have hnot : sel x = false := Bool.eq_false_iff.mpr fun hx' => hid (congrArg Entry.id (hselected x hx hx'))
      simp [hnot, hid]
  rw [hdone.zone]
  dsimp only [Zone.afterWithdrawal]
  rw [hleft]
  refine (List.map_congr_left fun x hx => if_neg fun hx' => ?_).trans (List.map_id _)
  obtain ⟨hx, hid⟩ := List.mem_filter.mp hx
  exact of_decide_eq_true hid (congrArg Entry.id (hselected x hx hx'))

/-- Entries of distinct ids can be withdrawn where those selected sound or are QUEUED without a request. -/
theorem Play.Withdrawable.of_nodup {p : Play} {o : Out} {sel : Entry → Bool} (hnodup : ((p.zone o).queue.map (·.id)).Nodup)
    (hready : ∀ en ∈ (p.zone o).queue, sel en = true →
      en.sounding = true ∨ en.state = .queued ∧ p.hasRequest o (.body en.id) = false) : p.Withdrawable o sel where
  ready := hready
  alone _ hen _ _ _ hx hid := List.inj_on_of_nodup_map hnodup hx hen hid

/-- What is told of the entries taken out, in one filter. -/
theorem withdrawnOutcomes_withdrawn (z : Zone) (sel : Entry → Bool) :
    withdrawnOutcomes (z.withdrawn sel) = (z.queue.filter fun en =>
      sel en && en.state = .queued && (match en.origin with | .remote _ => true | _ => false)).map
        fun en => ⟨en.id, en.cls, en.reported, .dropped 1⟩ := by
  rw [withdrawnOutcomes, Zone.withdrawn, List.filter_filter]
  exact congrArg _ (List.filter_congr fun en _ => Bool.and_comm _ _)

end parts

/-- Settles O27: a WITHDRAW that selects nothing, a WITHDRAW_DONE, a withdrawal in one zone, and then one in every zone
with its reports and its answer. -/
theorem withdrawalsSettle : Obligations.WithdrawalsSettle := by
  refine ⟨⟨⟨?_, ?_⟩, ?_⟩, ?_⟩
  · intro s env f htakes hquiet hsrc hok hroom hnone
    have h := exec_withdraw_of_none htakes hquiet hsrc hok hroom hnone
    rwa [withdrawAnswer, performedGranularity_eq] at h
  · intro s env f htakes hquiet
    rw [exec_withdrawDone htakes hquiet]
    refine ⟨fun hanswer => ⟨_, rfl, ?_, rfl, s.sameTables_took _⟩, fun hother => congrArg Host.Outcome.next ?_⟩
    · exact if_pos (by simp [hanswer])
    · have hstand : ∀ p : Peers, p.withdrawDone s.cfl.own env f = p := fun p => if_neg (by simpa [and_assoc] using hother)
      simp only [hstand]
      rfl
  · exact fun e p o sel => ⟨Play.removeIn_of_sounding, fun en => Play.removeIn_of_queued⟩
  · intro s env f sel count gone told htakes hquiet hsrc hok hsel hnodup hready hcount hgone htold hroom hbound
    obtain rfl : sel = fun o => s.play.selects f o := funext fun o => funext fun en => hsel o en
    have htold : told = s.play.withdrawalTold f allOuts := by
      rw [htold]
      exact List.flatMap_congr fun o _ => (withdrawnOutcomes_withdrawn (s.play.zone o) (s.play.selects f o)).symm
    rw [htold] at hroom ⊢
    obtain ⟨t, hexec, hzones, hcounts, hreceived, hqueue, htables⟩ := exec_withdraw htakes hquiet hsrc hok
      (fun o => .of_nodup (hnodup o) (hready o)) hroom
    rw [bump_iterate hbound] at hcounts
    rw [withdrawAnswer, performedGranularity_eq] at hqueue
    rw [hgone, hcount]
    exact ⟨t, hexec, htables, fun o => by rw [hzones o]; rfl, fun o => by rw [hzones o], hcounts, hreceived, hqueue⟩

end Sys2Proof.Machine
end

section
/-! PROOFS. Feeding a channel, read by read (R131, R134 to R136), and obligation O41: the read completions (R127, R129,
R131, R134 to R136, R138). -/
namespace Sys2Proof.Machine

/-! ### What feeding changes of a channel (R131, R134, R135) -/

/-- A channel after it was fed: its block and its read may have come, and a PREPARING channel may thereby have been
granted. -/
structure Channel.Fed (c d : Channel) : Prop where
  same : d = { c with state := d.state, next := d.next, read := d.read, boundary := d.boundary }
  full : c.next.isSome = true → d.next = c.next
  started : c.state ≠ .preparing → d.state = c.state ∧ d.boundary = c.boundary
  busy : c.state ≠ .free → d.state ≠ .free

theorem Channel.Fed.refl (c : Channel) : c.Fed c := ⟨rfl, fun _ => rfl, fun _ => ⟨rfl, rfl⟩, id⟩

theorem Channel.Fed.trans {c d x : Channel} (h : c.Fed d) (k : d.Fed x) : c.Fed x where
  same := by
    rw [k.same, h.same]
  full hfull := by
    have hnext := h.full hfull
    exact (k.full (hnext ▸ hfull)).trans hnext
  started hstate := by
    obtain ⟨hs, hb⟩ := h.started hstate
    obtain ⟨ks, kb⟩ := k.started (hs ▸ hstate)
    exact ⟨ks.trans hs, kb.trans hb⟩
  busy hstate := k.busy (h.busy hstate)

theorem Channel.Fed.fill (c : Channel) (b : Block) (taken : Nat) (hempty : c.next = none) : c.Fed (c.fill b taken) := by
  have hfull : c.next.isSome ≠ true := by rw [hempty]; exact nofun
  rcases c.fill_cases b taken with ⟨hstate, h⟩ | ⟨hstate, h⟩ <;> rw [h]
  · exact ⟨rfl, fun k => absurd k hfull, fun k => absurd hstate k, fun _ => nofun⟩
  · exact ⟨rfl, fun k => absurd k hfull, fun _ => ⟨rfl, rfl⟩, id⟩

theorem Channel.Fed.ask (c : Channel) (r : Option ChanRead) : c.Fed { c with read := r } :=
  ⟨rfl, fun _ => rfl, fun _ => ⟨rfl, rfl⟩, id⟩

/-- A full next-block place wants nothing (R134). -/
theorem Play.wantBlock_of_full (p : Play) {c : Channel} {b : Block} (h : c.next = some b) :
    p.wantBlock c = .nothing := by
  unfold Play.wantBlock
  rw [h]
  cases c.served <;> rfl

theorem Play.fillNext_fed (ch : Chan) (p : Play) : (p.chan ch).Fed ((p.fillNext ch).chan ch) := by
  unfold Play.fillNext
  split
  · next hzero =>
    rw [Play.onChan_chan_self]
    refine .fill _ _ _ ?_
    cases hnext : (p.chan ch).next with
    | none => rfl
    | some b => rw [p.wantBlock_of_full hnext] at hzero; cases hzero
  · exact .refl _

theorem Play.askRead_fed (ch : Chan) (p : Play) : (p.chan ch).Fed ((p.askRead ch).chan ch) := by
  unfold Play.askRead
  dsimp only
  split
  · exact .refl _
  · split
    · rw [Play.onChan_chan_self]
      exact .ask _ _
    · split
      · rw [Play.onChan_chan_self]
        exact .ask _ _
      · exact .refl _

/-- A grant of the port changes no channel (R136). -/
theorem Play.grantPort_chan (p : Play) (d : Chan) : p.grantPort.chan d = p.chan d := by
  unfold Play.grantPort
  split
  · rfl
  · split <;> rfl

theorem Play.pump_fed (ch : Chan) (p : Play) : (p.chan ch).Fed ((p.pump ch).chan ch) := by
  unfold Play.pump
  rw [Play.grantPort_chan]
  exact (p.fillNext_fed ch).trans ((p.fillNext ch).askRead_fed ch)

/-- A channel that wants no block and no directory entry stands as it is. -/
theorem Play.pump_chan_of_nothing {ch : Chan} {p : Play} (hblock : p.wantBlock (p.chan ch) = .nothing)
    (hentry : p.wantEntry (p.chan ch) = none) : (p.pump ch).chan ch = p.chan ch := by
  have hfill : p.fillNext ch = p := if_neg (by rw [hblock]; nofun)
  have hask : p.askRead ch = p := by
    unfold Play.askRead
    simp only [hblock, hentry, ite_self]
  unfold Play.pump
  rw [hfill, hask, Play.grantPort_chan]

/-- A FREE channel wants nothing (R129). -/
theorem Play.pump_chan_of_free {ch : Chan} {p : Play} (hfree : (p.chan ch).state = .free) :
    (p.pump ch).chan ch = p.chan ch := by
  refine Play.pump_chan_of_nothing ?_ ?_
  · unfold Play.wantBlock
    rw [hfree]
    cases (p.chan ch).served <;> cases (p.chan ch).next <;> rfl
  · unfold Play.wantEntry
    rw [hfree]
    cases (p.chan ch).served <;> rfl

/-- A GRANTED channel with its first block wants nothing (R131). -/
theorem Play.pump_chan_of_granted {ch : Chan} {p : Play} {b : Block} (hstate : (p.chan ch).state = .granted)
    (hnext : (p.chan ch).next = some b) : (p.pump ch).chan ch = p.chan ch := by
  refine Play.pump_chan_of_nothing (p.wantBlock_of_full hnext) ?_
  unfold Play.wantEntry
  rw [hstate]
  cases (p.chan ch).served <;> rfl

/-! ### Commands on one channel -/

/-- What a read completion leaves: the other channels, the requests, and every block but what is sent and the Clip Fetch
Unit; the counts and what is sent are given. -/
structure Play.Reads (ch : Chan) (counts : CfuCounts) (net : Net) (p q : Play) : Prop where
  blocks : q = { p with net := net, cfu := q.cfu }
  others : ∀ d, d ≠ ch → q.chan d = p.chan d
  waiting : q.cfu.waiting = p.cfu.waiting
  counts : q.cfu.counts = counts

section reads
variable {ch : Chan} {counts : CfuCounts} {sent : Net} {p q : Play}

theorem Play.Reads.net (h : p.Reads ch counts sent q) : q.net = sent := by rw [h.blocks]

theorem Play.Reads.zpc (h : p.Reads ch counts sent q) : q.zpc = p.zpc := by rw [h.blocks]

theorem Play.Reads.cmu (h : p.Reads ch counts sent q) : q.cmu = p.cmu := by rw [h.blocks]

theorem Play.Reads.lvc (h : p.Reads ch counts sent q) : q.lvc = p.lvc := by rw [h.blocks]

theorem Play.Reads.evl (h : p.Reads ch counts sent q) : q.evl = p.evl := by rw [h.blocks]

theorem Play.Reads.onChan (h : p.Reads ch counts sent q) (f : Channel → Channel) :
    p.Reads ch counts sent (q.onChan ch f) where
  blocks := congrArg (fun r : Play => { r with cfu := (q.onChan ch f).cfu }) h.blocks
  others d hd := by rw [Play.onChan_chan, if_neg hd, h.others d hd]
  waiting := h.waiting
  counts := h.counts

theorem Play.pump_blocks (ch : Chan) (q : Play) : q.pump ch = { q with cfu := (q.pump ch).cfu } := by
  obtain ⟨hnet, hcmu, hlvc, hlsu, hvsu, hevl, _⟩ := q.pump_sameBeside ch
  have hzpc := q.pump_zpc ch
  generalize q.pump ch = r at *
  cases r
  simp_all only

theorem Play.Reads.pump (h : p.Reads ch counts sent q) : p.Reads ch counts sent (q.pump ch) where
  blocks := (q.pump_blocks ch).trans (congrArg (fun r : Play => { r with cfu := (q.pump ch).cfu }) h.blocks)
  others d hd := ((Play.Feeds.pump ch q).others d hd).trans (h.others d hd)
  waiting := (Play.Feeds.pump ch q).waiting.trans h.waiting
  counts := (Play.Feeds.pump ch q).counts.trans h.counts

/-- A count is changed. -/
theorem Play.Reads.onCounts (h : p.Reads ch counts sent q) (f : CfuCounts → CfuCounts) :
    p.Reads ch (f counts) sent (q.onCfu fun c => { c with counts := f c.counts }) where
  blocks := congrArg (fun r : Play => { r with cfu := { q.cfu with counts := f q.cfu.counts } }) h.blocks
  others := h.others
  waiting := h.waiting
  counts := congrArg f h.counts

/-- Something is sent. -/
theorem Play.Reads.onNet (h : p.Reads ch counts sent q) (f : Net → Net) : p.Reads ch counts (f sent) (q.onNet f) where
  blocks := by
    rw [Play.onNet, h.net]
    exact congrArg (fun r : Play => { r with net := f sent }) h.blocks
  others := h.others
  waiting := h.waiting
  counts := h.counts

theorem Play.readDone_reads (ch : Chan) (p : Play) : p.Reads ch p.cfu.counts p.net (p.readDone ch) where
  blocks := rfl
  others d hd := (p.onChan_chan ch d _).trans (if_neg hd)
  waiting := rfl
  counts := rfl

theorem Play.readDone_chan (ch : Chan) (p : Play) : (p.readDone ch).chan ch = { p.chan ch with read := none } :=
  p.onChan_chan_self ch _

/-- Reports of one kind for several outputs are made to the fault log alone (R194). -/
theorem Play.foldl_fault (e : Env) (k : FaultKind) (source : Out → Nat) (l : List Out) (p : Play) :
    l.foldl (fun p o => p.fault e k (source o)) p =
      p.onNet fun n => l.foldl (fun n o => Net.report e k (source o) n) n := by
  induction l generalizing p with
  | nil => rfl
  | cons o rest ih => rw [List.foldl_cons, ih]; rfl

theorem Play.underrunFaults_eq (e : Env) (c : Channel) (p : Play) : p.underrunFaults e c =
    p.onNet fun n => (outsOf c.members).foldl (fun n o => Net.report e .underrun (e.faultSource o) n) n :=
  Play.foldl_fault e .underrun e.faultSource _ p

theorem Net.SameOutcomes.reports (e : Env) (k : FaultKind) (source : Out → Nat) (l : List Out) (n : Net) :
    n.SameOutcomes (l.foldl (fun n o => Net.report e k (source o) n) n) :=
  .foldl (fun m o => .report e k (source o) m) l n

end reads

/-! ### Block reads (R131, R134, R136, R138) -/

/-- The counts after a block read: a failed one is counted (R138). -/
def CfuCounts.afterRead (result : Option (List Int)) (c : CfuCounts) : CfuCounts :=
  if result.isSome then c else { c with readFailures := bump c.readFailures }

/-- The block that a read brings: zeros where it failed (R138). -/
def Block.ofRead : Option (List Int) → Block
  | some samples => .audio samples
  | none => .zero

/-- What is sent at a wanted block read: UNDERRUN for each member where it failed (R138; log entries 53 and 72). -/
def Net.afterRead (e : Env) (members : OutSet) (result : Option (List Int)) (n : Net) : Net :=
  if result.isSome then n
  else (outsOf members).foldl (fun n o => Net.report e .underrun (e.faultSource o) n) n

theorem Net.SameOutcomes.afterRead (e : Env) (members : OutSet) (result : Option (List Int)) (n : Net) :
    n.SameOutcomes (n.afterRead e members result) := by
  unfold Net.afterRead
  split
  · exact .refl n
  · exact .reports e _ _ _ n

section port
variable {e : Env} {p : Play} {ch : Chan} {r : ChanRead}

theorem Play.portRead_of_port (hport : p.cfu.port = some (.channel ch)) (hread : (p.chan ch).read = some r)
    {kind : ReadKind → Bool} (hkind : kind r.kind = true) : p.portRead kind = some (ch, r) := by
  unfold Play.portRead
  rw [hport]
  dsimp only
  rw [hread]
  exact if_pos hkind

theorem Play.countRead_chan (result : Option (List Int)) (p : Play) (d : Chan) :
    (p.countRead result).chan d = p.chan d := by
  unfold Play.countRead
  split <;> rfl

theorem Play.Reads.countRead {counts : CfuCounts} {sent : Net} {q : Play} (h : p.Reads ch counts sent q)
    (result : Option (List Int)) : p.Reads ch (counts.afterRead result) sent (q.countRead result) := by
  cases result with
  | none => exact h.onCounts fun c => { c with readFailures := bump c.readFailures }
  | some _ => exact h

/-- A block read has completed, and its failure is counted and reported; its block has not been taken yet. -/
def Play.tookRead (e : Env) (ch : Chan) (result : Option (List Int)) (p : Play) : Play :=
  ((p.readDone ch).countRead result).onNet (Net.afterRead e (p.chan ch).members result)

theorem Play.tookRead_chan (result : Option (List Int)) :
    (p.tookRead e ch result).chan ch = { p.chan ch with read := none } :=
  ((p.readDone ch).countRead_chan result ch).trans (p.readDone_chan ch)

theorem Play.tookRead_reads (result : Option (List Int)) : p.Reads ch (p.cfu.counts.afterRead result)
    (p.net.afterRead e (p.chan ch).members result) (p.tookRead e ch result) :=
  ((p.readDone_reads ch).countRead result).onNet _

/-- A wanted block read fills the next-block place (R131, R134, R138). -/
theorem Play.blockRead_of_wanted (hport : p.cfu.port = some (.channel ch)) (hread : (p.chan ch).read = some r)
    (hblock : r.kind.isBlock = true) (hwanted : r.discard = false) (result : Option (List Int)) :
    p.blockRead e result =
      ((p.tookRead e ch result).onChan ch (Channel.fill (Block.ofRead result) p.cfu.boundaryAt)).pump ch := by
  unfold Play.blockRead
  simp only [Play.portRead_of_port hport hread hblock, hwanted, Bool.false_eq_true, if_false]
  cases result with
  | some samples => rfl
  | none =>
    rw [Play.underrunFaults_eq, Play.countRead_chan, Play.readDone_chan]
    rfl

theorem Play.blockRead_reads (hport : p.cfu.port = some (.channel ch)) (hread : (p.chan ch).read = some r)
    (hblock : r.kind.isBlock = true) (hwanted : r.discard = false) (result : Option (List Int)) :
    p.Reads ch (p.cfu.counts.afterRead result) (p.net.afterRead e (p.chan ch).members result)
      (p.blockRead e result) := by
  rw [Play.blockRead_of_wanted hport hread hblock hwanted]
  exact ((Play.tookRead_reads result).onChan _).pump

/-- A block that a PREPARING channel wants grants it (R131). -/
theorem Play.blockRead_preparing (hport : p.cfu.port = some (.channel ch)) (hread : (p.chan ch).read = some r)
    (hblock : r.kind.isBlock = true) (hwanted : r.discard = false) (result : Option (List Int))
    (hstate : (p.chan ch).state = .preparing) : (p.blockRead e result).chan ch = { p.chan ch with
      read := none, next := some (Block.ofRead result), state := .granted, boundary := p.cfu.boundaryAt } := by
  rw [Play.blockRead_of_wanted hport hread hblock hwanted]
  generalize hq : (p.tookRead e ch result).onChan ch _ = q
  have hfilled : q.chan ch = { p.chan ch with
      read := none, next := some (Block.ofRead result), state := .granted, boundary := p.cfu.boundaryAt } := by
    rw [← hq, Play.onChan_chan_self, Play.tookRead_chan]
    exact if_pos hstate
  rw [Play.pump_chan_of_granted (b := Block.ofRead result) (by rw [hfilled]) (by rw [hfilled]), hfilled]

/-- A block that a PLAYING channel wants fills its next-block place; the next read may be asked for (R134). -/
theorem Play.blockRead_playing (hport : p.cfu.port = some (.channel ch)) (hread : (p.chan ch).read = some r)
    (hblock : r.kind.isBlock = true) (hwanted : r.discard = false) (result : Option (List Int))
    (hstate : (p.chan ch).state = .playing) : (p.blockRead e result).chan ch = { p.chan ch with
      next := some (Block.ofRead result), read := ((p.blockRead e result).chan ch).read } := by
  rw [Play.blockRead_of_wanted hport hread hblock hwanted]
  generalize hq : (p.tookRead e ch result).onChan ch _ = q
  have hfilled : q.chan ch = { p.chan ch with read := none, next := some (Block.ofRead result) } := by
    rw [← hq, Play.onChan_chan_self, Play.tookRead_chan]
    exact if_neg (by rw [hstate]; nofun)
  have hfed := q.pump_fed ch
  obtain ⟨hs, hb⟩ := hfed.started (by rw [hfilled, hstate]; nofun)
  rw [hfed.same, hs, hb, hfed.full (by rw [hfilled]; rfl), hfilled]

/-- A discarded block read is counted where it failed, and brings nothing (R129, R136, R138). -/
theorem Play.blockRead_of_discarded (hport : p.cfu.port = some (.channel ch)) (hread : (p.chan ch).read = some r)
    (hblock : r.kind.isBlock = true) (hdiscard : r.discard = true) (result : Option (List Int)) :
    p.blockRead e result = ((p.readDone ch).countRead result).pump ch := by
  unfold Play.blockRead
  simp only [Play.portRead_of_port hport hread hblock, hdiscard, if_true]

/-! ### Directory reads (R127, R131, R135) -/

/-- A directory entry as a channel holds it: as its next entry while it plays, and for its first segment before. -/
def Channel.hold (found : Lookup) (c : Channel) : Channel :=
  if c.state = .playing then { c with nextEntry := some found } else { c with segEntry := some found }

/-- A wanted directory read that finds its phrase. -/
theorem Play.directoryRead_of_found {f b : Nat} {k : AnnClass} (hport : p.cfu.port = some (.channel ch))
    (hread : (p.chan ch).read = some ⟨.directory f b, k, false⟩) {result : Option DirEntry} {d : DirEntry}
    (hfound : lookupOf p.cfu.size result = .found d) :
    p.directoryRead e result = ((p.readDone ch).onChan ch (Channel.hold (.found d))).pump ch := by
  have hsize : (p.readDone ch).cfu.size = p.cfu.size := rfl
  unfold Play.directoryRead
  simp only [Play.portRead_of_port (kind := fun k => !k.isBlock) hport hread rfl, hsize, hfound, reduceCtorEq,
    Bool.false_eq_true, if_false]
  rfl

/-- A wanted directory read whose phrase is missing, which is reported and counted. -/
theorem Play.directoryRead_of_missing {f b : Nat} {k : AnnClass} (hport : p.cfu.port = some (.channel ch))
    (hread : (p.chan ch).read = some ⟨.directory f b, k, false⟩) {result : Option DirEntry}
    (hmissing : lookupOf p.cfu.size result = .missing) : p.directoryRead e result =
      ((((p.readDone ch).onNet (Net.report e .phraseMissing f)).onCfu fun c =>
        { c with counts := { c.counts with missing := bump c.counts.missing } }).onChan ch
          (Channel.hold .missing)).pump ch := by
  have hsize : (p.readDone ch).cfu.size = p.cfu.size := rfl
  unfold Play.directoryRead
  simp only [Play.portRead_of_port (kind := fun k => !k.isBlock) hport hread rfl, hsize, hmissing, if_true,
    Bool.false_eq_true, if_false]
  rfl

theorem Play.directoryRead_of_discarded (hport : p.cfu.port = some (.channel ch)) (hread : (p.chan ch).read = some r)
    (hblock : r.kind.isBlock = false) (hdiscard : r.discard = true) (result : Option DirEntry) :
    p.directoryRead e result = (p.readDone ch).pump ch := by
  unfold Play.directoryRead
  simp only [Play.portRead_of_port (kind := fun k => !k.isBlock) hport hread (by rw [hblock]; rfl), hdiscard, if_true]

/-- The entry held stands where the channel held it, whatever else feeding brings. -/
theorem Channel.hold_fed {c d x : Channel} {found : Lookup} (hx : x = { c with read := none })
    (h : (x.hold found).Fed d) :
    (if c.state = .playing then d.nextEntry else d.segEntry) = some found := by
  rw [h.same, hx]
  unfold Channel.hold
  by_cases hplaying : c.state = .playing
  · simp only [if_pos hplaying]
  · simp only [if_neg hplaying]

/-- A phrase is found where its entry is present, starts at block 129 or later and ends within the store (R127). -/
theorem lookupOf_found {size : Nat} {d : DirEntry} (hpresent : d.present = true) (hstart : 129 ≤ d.start)
    (hend : d.start + (if d.count = 0 then 65536 else d.count) ≤ size) : lookupOf size (some d) = .found d := by
  refine if_neg ?_
  simp only [hpresent, Bool.not_true, Bool.false_or, Bool.or_eq_true, decide_eq_true_eq, not_or, Nat.not_lt]
  exact ⟨hstart, hend⟩

theorem lookupOf_missing {size : Nat} {result : Option DirEntry}
    (h : ∀ d : DirEntry, result = some d → d.present = false ∨ d.start < 129 ∨
      size < d.start + (if d.count = 0 then 65536 else d.count)) : lookupOf size result = .missing := by
  cases result with
  | none => rfl
  | some d =>
    refine if_pos ?_
    simp only [Bool.or_eq_true, Bool.not_eq_true', decide_eq_true_eq, or_assoc]
    exact h d rfl

end port

/-! ### The commands -/

theorem exec_blockReadComplete (result : Option (List Int)) (s : State) :
    exec (.blockReadComplete result) s = .next (s.onPlay fun e p => p.blockRead e result).finish := rfl

theorem exec_directoryReadComplete (result : Option DirEntry) (s : State) :
    exec (.directoryReadComplete result) s = .next (s.onPlay fun e p => p.directoryRead e result).finish := rfl

/-- A command on one channel ends quietly where it tells no outcome. -/
theorem Play.Reads.finish {s : State} {f : Env → Play → Play} {ch : Chan} {counts : CfuCounts} {sent : Net}
    (h : s.play.Reads ch counts sent (f s.env s.play)) (hquiet : s.Quiet) (hnet : s.play.net.SameOutcomes sent) :
    (s.onPlay f).finish = s.onPlay f := by
  obtain ⟨houtbox, hheld, hgate⟩ := hquiet
  refine State.finish_of_quiet ⟨?_, ?_, ?_⟩
  · rw [State.onPlay_play, h.net]
    exact hnet.outbox.trans houtbox
  · rw [State.onPlay_play, h.net]
    exact hnet.held.trans hheld
  · rw [State.onPlay_play, h.evl]
    exact hgate

/-- A wanted block read, its command whole: what it leaves beside its channel. -/
theorem exec_blockRead {s : State} {ch : Chan} {r : ChanRead} (hquiet : s.Quiet)
    (hport : s.play.cfu.port = some (.channel ch)) (hread : (s.play.chan ch).read = some r)
    (hblock : r.kind.isBlock = true) (hwanted : r.discard = false) (result : Option (List Int)) :
    exec (.blockReadComplete result) s = .next (s.onPlay fun e p => p.blockRead e result) ∧
      s.play.Reads ch (s.play.cfu.counts.afterRead result)
        (s.play.net.afterRead s.env (s.play.chan ch).members result) (s.play.blockRead s.env result) := by
  have hreads := Play.blockRead_reads (e := s.env) hport hread hblock hwanted result
  exact ⟨by rw [exec_blockReadComplete,
    hreads.finish (f := fun e p => p.blockRead e result) hquiet (.afterRead _ _ _ _)], hreads⟩

/-- A wanted directory read, its command whole, once its entry has been looked up. -/
theorem exec_directoryRead {s : State} {ch : Chan} {counts : CfuCounts} {sent : Net} {q : Play} {found : Lookup}
    {result : Option DirEntry} (hquiet : s.Quiet)
    (hplay : s.play.directoryRead s.env result = (q.onChan ch (Channel.hold found)).pump ch)
    (hreads : s.play.Reads ch counts sent q) (hchan : q.chan ch = { s.play.chan ch with read := none })
    (hsent : s.play.net.SameOutcomes sent) :
    exec (.directoryReadComplete result) s = .next (s.onPlay fun e p => p.directoryRead e result) ∧
      s.play.Reads ch counts sent (s.play.directoryRead s.env result) ∧
      (if (s.play.chan ch).state = .playing then ((s.play.directoryRead s.env result).chan ch).nextEntry
        else ((s.play.directoryRead s.env result).chan ch).segEntry) = some found := by
  have h := (hreads.onChan (Channel.hold found)).pump
  have hfed := (q.onChan ch (Channel.hold found)).pump_fed ch
  rw [Play.onChan_chan_self] at hfed
  rw [← hplay] at h hfed
  exact ⟨by rw [exec_directoryReadComplete, h.finish (f := fun e p => p.directoryRead e result) hquiet hsent], h,
    Channel.hold_fed hchan hfed⟩

/-- A channel whose discarded read is done: it holds the entries it held, and stands as it is where it is FREE. -/
theorem Play.pump_chan_of_discarded {q : Play} {ch : Chan} {c : Channel} (hchan : q.chan ch = { c with read := none }) :
    (c.state = .free → (q.pump ch).chan ch = { c with read := none }) ∧
      ((q.pump ch).chan ch).segEntry = c.segEntry ∧ ((q.pump ch).chan ch).nextEntry = c.nextEntry := by
  have hfed := q.pump_fed ch
  refine ⟨fun hfree => ?_, ?_, ?_⟩
  · rw [Play.pump_chan_of_free (by rw [hchan]; exact hfree), hchan]
  · rw [hfed.same, hchan]
  · rw [hfed.same, hchan]

/-- Settles O41: a block read by whether its channel is PREPARING or PLAYING, a directory read by what it finds, and the
discarded reads. -/
theorem readsComplete : Obligations.ReadsComplete := by
  unfold Obligations.ReadsComplete
  intro s ch k hquiet hport
  refine ⟨fun a hread => ⟨fun hstate => ⟨fun samples => ?_, ?_⟩, fun hstate => ⟨fun samples => ?_, ?_⟩⟩,
    fun f b result hread hstate => ?_, fun kind hread => ⟨fun hblock result => ?_, fun hblock result => ?_⟩⟩
  · obtain ⟨hexec, h⟩ := exec_blockRead hquiet hport hread rfl rfl (some samples)
    exact ⟨_, hexec, Play.blockRead_preparing hport hread rfl rfl _ hstate, h.others, h.counts, h.waiting, h.zpc, h.net,
      h.cmu, h.lvc, s.sameTables_onPlay _⟩
  · obtain ⟨hexec, h⟩ := exec_blockRead hquiet hport hread rfl rfl none
    exact ⟨_, hexec, Play.blockRead_preparing hport hread rfl rfl _ hstate, h.counts, h.net, h.zpc,
      s.sameTables_onPlay _⟩
  · obtain ⟨hexec, h⟩ := exec_blockRead hquiet hport hread rfl rfl (some samples)
    exact ⟨_, hexec, Play.blockRead_playing hport hread rfl rfl _ hstate, h.others, h.counts, h.zpc, h.net, h.lvc,
      s.sameTables_onPlay _⟩
  · obtain ⟨hexec, h⟩ := exec_blockRead hquiet hport hread rfl rfl none
    exact ⟨_, hexec, Play.blockRead_playing hport hread rfl rfl _ hstate, h.counts, h.net, h.zpc, s.sameTables_onPlay _⟩
  · cases hlookup : lookupOf s.play.cfu.size result with
    | found d =>
      obtain ⟨hexec, h, hheld⟩ := exec_directoryRead hquiet (Play.directoryRead_of_found hport hread hlookup)
        (s.play.readDone_reads ch) (s.play.readDone_chan ch) (.refl _)
      refine ⟨_, hexec, fun x hx hpresent hstart hend => ?_, fun hmissing => ?_, h.others, h.zpc, s.sameTables_onPlay _⟩
      · rw [hx, lookupOf_found hpresent hstart hend] at hlookup
        cases hlookup
        exact ⟨hheld, h.counts, h.net⟩
      · rw [lookupOf_missing hmissing] at hlookup
        cases hlookup
    | missing =>
      obtain ⟨hexec, h, hheld⟩ := exec_directoryRead hquiet (Play.directoryRead_of_missing hport hread hlookup)
        (((s.play.readDone_reads ch).onNet _).onCounts fun c => { c with missing := bump c.missing })
        (s.play.readDone_chan ch) (.report s.env .phraseMissing f _)
      refine ⟨_, hexec, fun x hx hpresent hstart hend => ?_, fun _ => ⟨hheld, h.counts, h.net⟩, h.others, h.zpc,
        s.sameTables_onPlay _⟩
      rw [hx, lookupOf_found hpresent hstart hend] at hlookup
      cases hlookup
  · have hplay := Play.blockRead_of_discarded (e := s.env) hport hread hblock rfl result
    have h := ((s.play.readDone_reads ch).countRead result).pump
    have hchan := Play.pump_chan_of_discarded
      (((s.play.readDone ch).countRead_chan result ch).trans (s.play.readDone_chan ch))
    rw [← hplay] at h hchan
    obtain ⟨hfree, hseg, hnext⟩ := hchan
    exact ⟨_, by rw [exec_blockReadComplete, h.finish (f := fun e p => p.blockRead e result) hquiet (.refl _)],
      h.counts, hfree, hseg, hnext, h.others, h.zpc, h.net, s.sameTables_onPlay _⟩
  · have hplay := Play.directoryRead_of_discarded (e := s.env) hport hread hblock rfl result
    have h := (s.play.readDone_reads ch).pump
    have hchan := Play.pump_chan_of_discarded (s.play.readDone_chan ch)
    rw [← hplay] at h hchan
    obtain ⟨hfree, hseg, hnext⟩ := hchan
    exact ⟨_, by rw [exec_directoryReadComplete, h.finish (f := fun e p => p.directoryRead e result) hquiet (.refl _)],
      h.counts, hfree, hseg, hnext, h.others, h.zpc, h.net, s.sameTables_onPlay _⟩

end Sys2Proof.Machine
end

section
/-! PROOFS. Obligation O42: channels that start, and that play on from block to block (R83, R131, R134, R137). -/
namespace Sys2Proof.Machine

/-! ### A channel at a block boundary -/

/-- What a channel that plays on leaves: what is sent, the zones, the start gate and the other channels. -/
structure Play.PlaysOn (ch : Chan) (p q : Play) : Prop where
  net : q.net = p.net
  zpc : q.zpc = p.zpc
  evl : q.evl = p.evl
  others : ∀ d, d ≠ ch → q.chan d = p.chan d

section playing
variable {ch : Chan} {p q r : Play}

theorem Play.PlaysOn.refl (ch : Chan) (p : Play) : p.PlaysOn ch p := ⟨rfl, rfl, rfl, fun _ _ => rfl⟩

theorem Play.PlaysOn.trans (h : p.PlaysOn ch q) (k : q.PlaysOn ch r) : p.PlaysOn ch r :=
  ⟨k.net.trans h.net, k.zpc.trans h.zpc, k.evl.trans h.evl, fun d hd => (k.others d hd).trans (h.others d hd)⟩

theorem Play.PlaysOn.onChan (ch : Chan) (f : Channel → Channel) (p : Play) : p.PlaysOn ch (p.onChan ch f) :=
  ⟨rfl, rfl, rfl, fun d hd => (p.onChan_chan ch d f).trans (if_neg hd)⟩

theorem Play.PlaysOn.takeBoundary (ch : Chan) (e : Env) (p : Play) : p.PlaysOn ch (p.takeBoundary e) :=
  ⟨rfl, rfl, rfl, fun _ _ => rfl⟩

theorem Play.PlaysOn.pump (ch : Chan) (p : Play) : p.PlaysOn ch (p.pump ch) where
  net := by rw [p.pump_blocks ch]
  zpc := by rw [p.pump_blocks ch]
  evl := by rw [p.pump_blocks ch]
  others := (Play.Feeds.pump ch p).others

/-- A block carried to the outputs changes the Level Controller alone (R150, R151). -/
theorem Play.carryAll_blocks (c : Channel) (b : Block) (p : Play) :
    p.carryAll c b = { p with lvc := (p.carryAll c b).lvc } :=
  List.foldlRecOn (motive := fun q : Play => q = { p with lvc := q.lvc }) (outsOf c.members)
    (fun p o => p.carry o b) rfl fun q hq o _ =>
      (q.carry_only o b).1.trans (congrArg (fun r : Play => { r with lvc := (q.carry o b).lvc }) hq)

theorem Play.carryAll_cfu (c : Channel) (b : Block) (p : Play) : (p.carryAll c b).cfu = p.cfu := by
  rw [p.carryAll_blocks c b]

theorem Play.carryAll_chan (c : Channel) (b : Block) (p : Play) (d : Chan) : (p.carryAll c b).chan d = p.chan d :=
  congrArg (fun f : Clips => f.channels.get d) (p.carryAll_cfu c b)

theorem Play.PlaysOn.carryAll (ch : Chan) (c : Channel) (b : Block) (p : Play) : p.PlaysOn ch (p.carryAll c b) where
  net := by rw [p.carryAll_blocks c b]
  zpc := by rw [p.carryAll_blocks c b]
  evl := by rw [p.carryAll_blocks c b]
  others d _ := p.carryAll_chan c b d

/-- An output that carries silence, or is one of those that are to, carries silence after a zero-valued block. -/
theorem Play.foldl_carry_zero {l : List Out} {o : Out} (h : o ∈ l ∨ (p.levelAt o).out = .zero) :
    ((l.foldl (fun p o => p.carry o .zero) p).levelAt o).out = .zero := by
  induction l generalizing p with
  | nil => exact h.resolve_left List.not_mem_nil
  | cons x rest ih =>
    rw [List.foldl_cons]
    refine ih ?_
    by_cases hx : o = x
    · right
      subst hx
      exact congrArg Level.out (p.onLevel_levelAt_self o _)
    · exact h.imp (fun hmem => (List.mem_cons.mp hmem).resolve_left hx) fun hzero =>
        (congrArg Level.out ((p.carry_only x .zero).2.1 o hx)).trans hzero

theorem Play.carryAll_zero (c : Channel) {o : Out} (ho : o ∈ outsOf c.members) (p : Play) :
    ((p.carryAll c .zero).levelAt o).out = .zero := Play.foldl_carry_zero (.inl ho)

end playing

/-! ### Starts (R83, R131) -/

section starting
variable {e : Env} {p : Play} {ch : Chan} {id : AnnId} {o : Out} {en : Entry}

/-- A GRANTED channel of no evacuation body starts at a block boundary not taken before its grant (R131). -/
theorem Play.startDue_of_granted (hstate : (p.chan ch).state = .granted) (hmultiple : e.elapsed % 16 = 0)
    (hpast : 0 < e.elapsed) (hboundary : (p.chan ch).boundary ≠ e.elapsed) (hcls : (p.chan ch).cls ≠ .evac) :
    p.startDue e ch = true := by
  simp only [Play.startDue, Env.atBoundary, hstate, hmultiple, hpast, hboundary, hcls, decide_true, decide_false, ne_eq,
    not_false_eq_true, Bool.and_self, Bool.false_and, Bool.not_false]

/-- A STARTING entry enters RENDERING with its channel; what is told and its gain beside (R83). -/
theorem Play.memberStart_of_starting {c : Channel} (hserved : c.served = some (.body id))
    (hfind : (p.zone o).queue.find? (fun x => x.id = id) = some en) (hstate : en.state = .starting) :
    (p.memberStart e c o).cfu = p.cfu ∧ (p.memberStart e c o).zpc = (p.onEntry o en.id fun x =>
      { x with state := .rendering, seg := 0, pass := 0, sync := none }).zpc := by
  unfold Play.memberStart
  simp only [(Play.fedEntry_of_served hserved).trans hfind, hstate, if_true]
  generalize hq : Play.tellEntry en .playing _ = q
  obtain ⟨_, hzpc, hcfu, _⟩ := (Play.gainAtStart_only e o en.cls (!((p.onEntry o en.id fun x =>
    { x with state := .rendering, seg := 0, pass := 0, sync := none }).zone o).backToBack e en) q).blocks
  rw [hcfu, hzpc, ← hq, Play.tellEntry_cfu, Play.tellEntry_zpc]
  exact ⟨rfl, rfl⟩

/-- A channel as it starts, before it is fed: its first block is in play (R131). -/
def Channel.begin (now : Nat) (half : Bool) (c : Channel) : Channel := { c with
  state := .playing, start := some now, boundary := now, playing := c.next, next := none, seg := 0, pass := 0, blk := 0
  dirWanted := half }

/-- A channel that serves a body starts once its members have (R131). -/
theorem Play.channelStart_of_due (hdue : p.startDue e ch = true) (hserved : (p.chan ch).served = some (.body id))
    {q : Play} (hq : (outsOf (p.chan ch).members).foldl (Play.memberStart e (p.chan ch)) (p.takeBoundary e) = q) :
    q.PlaysOn ch (p.channelStart e ch) ∧
      ∃ half, (Channel.begin e.elapsed half (q.chan ch)).Fed ((p.channelStart e ch).chan ch) := by
  have hchan : (p.takeBoundary e).chan ch = p.chan ch := rfl
  unfold Play.channelStart
  rw [hdue, Bool.not_true, if_neg Bool.false_ne_true]
  dsimp only
  rw [hchan, hserved]
  dsimp only
  rw [hq]
  generalize Play.halfBegun _ _ = half
  refine ⟨(((Play.PlaysOn.onChan ch _ q).trans (.onChan ch _ _)).trans (.carryAll ch _ _ _)).trans (.pump ch _),
    half, ?_⟩
  have hfed := Play.pump_fed ch (Play.carryAll (p.chan ch) ((p.chan ch).next.getD .zero)
    ((q.onChan ch fun c => { c with
        state := .playing, start := some e.elapsed, boundary := e.elapsed, playing := c.next, next := none
        seg := 0, pass := 0, blk := 0 }).onChan ch fun c => { c with dirWanted := half }))
  rw [Play.carryAll_chan, Play.onChan_chan_self, Play.onChan_chan_self] at hfed
  exact hfed

end starting

/-! ### Block advances (R134, R137) -/

section advance
variable {e : Env} {p : Play} {ch : Chan} {id : AnnId}

theorem Env.boundaryOpen_of_playing {c : Channel} (hstate : c.state = .playing) (hmultiple : e.elapsed % 16 = 0)
    (hpast : 0 < e.elapsed) (hboundary : c.boundary ≠ e.elapsed) : e.boundaryOpen c = true := by
  simp only [Env.boundaryOpen, Env.atBoundary, hstate, hmultiple, hpast, hboundary, decide_true, ne_eq,
    not_false_eq_true, Bool.and_self]

/-- A channel whose next block comes into play (R134). -/
def Channel.playNext (now : Nat) (b : Block) (c : Channel) : Channel := { c with
  playing := some b, next := none, silent := false, passEnded := false, boundary := now
  blk := if c.passEnded then c.blk else c.blk + 1 }

/-- A channel between boundaries of its body takes its next block, and the following read is asked for (R134, R135). -/
theorem Play.blockAdvance_of_next {b : Block} (hopen : e.boundaryOpen (p.chan ch) = true)
    (hpass : p.passEndDue e ch = false) (hstop : p.stopDue e ch = [])
    (hserved : (p.chan ch).served = some (.body id)) (hnext : (p.chan ch).next = some b) :
    p.PlaysOn ch (p.blockAdvance e ch) ∧ ∃ want,
      Channel.Fed { Channel.playNext e.elapsed b (p.chan ch) with dirWanted := want }
        ((p.blockAdvance e ch).chan ch) := by
  unfold Play.blockAdvance
  simp only [hopen, hpass, hstop, hserved, hnext, Bool.not_true, List.isEmpty_nil, Bool.or_self, Bool.false_eq_true,
    if_false]
  generalize Play.halfBegun _ _ = half
  refine ⟨((((Play.PlaysOn.takeBoundary ch e p).trans (.onChan ch _ _)).trans
    (.onChan ch _ _)).trans (.carryAll ch _ _ _)).trans (.pump ch _), (p.chan ch).dirWanted || half, ?_⟩
  have hfed := Play.pump_fed ch (Play.carryAll (p.chan ch) b
    (((p.takeBoundary e).onChan ch (Channel.playNext e.elapsed b)).onChan ch fun c =>
      { c with dirWanted := c.dirWanted || half }))
  rw [Play.carryAll_chan, Play.onChan_chan_self, Play.onChan_chan_self] at hfed
  exact hfed

/-- What is sent at an underrun: UNDERRUN for each member, unless the channel plays inserted blocks already (R137). -/
def Net.afterUnderrun (e : Env) (c : Channel) (n : Net) : Net :=
  if c.silent then n else (outsOf c.members).foldl (fun n o => Net.report e .underrun (e.faultSource o) n) n

theorem Net.SameOutcomes.afterUnderrun (e : Env) (c : Channel) (n : Net) : n.SameOutcomes (n.afterUnderrun e c) := by
  unfold Net.afterUnderrun
  split
  · exact .refl n
  · exact .reports e _ _ _ n

/-- A channel without its next block plays silence, and the underrun is counted (R137). -/
theorem Play.blockAdvance_of_underrun (hopen : e.boundaryOpen (p.chan ch) = true) (hpass : p.passEndDue e ch = false)
    (hstop : p.stopDue e ch = []) (hserved : (p.chan ch).served = some (.body id)) (hnext : (p.chan ch).next = none) :
    p.blockAdvance e ch = ((((p.takeBoundary e).onNet (Net.afterUnderrun e (p.chan ch))).onCfu fun f =>
      { f with counts := { f.counts with underruns := bump f.counts.underruns } }).onChan ch fun c =>
        { c with playing := some .zero, silent := true, boundary := e.elapsed }).carryAll (p.chan ch) .zero := by
  have hfaults : (if (p.chan ch).silent = true then p.takeBoundary e
      else (p.takeBoundary e).underrunFaults e (p.chan ch)) =
      (p.takeBoundary e).onNet (Net.afterUnderrun e (p.chan ch)) := by
    unfold Net.afterUnderrun
    split
    · rfl
    · exact Play.underrunFaults_eq e _ _
  unfold Play.blockAdvance
  simp only [hopen, hpass, hstop, hserved, hnext, Bool.not_true, List.isEmpty_nil, Bool.or_self, Bool.false_eq_true,
    if_false, hfaults]

end advance

/-! ### The commands -/

theorem exec_channelStart (ch : Chan) (s : State) :
    exec (.channelStart ch) s = .next (s.onPlay fun e p => p.channelStart e ch).finishBoundary := rfl

theorem exec_channelBlockAdvance (ch : Chan) (s : State) :
    exec (.channelBlockAdvance ch) s = .next (s.onPlay fun e p => p.blockAdvance e ch).finishBoundary := rfl

/-- The end of a command of a block boundary changes no channel (R117, R172). -/
theorem Play.finishBoundary_chan (e : Env) (p : Play) (d : Chan) : (p.finishBoundary e).chan d = p.chan d := by
  have hgate : ∀ q : Play, q.gateCheck.cfu = q.cfu := fun q => by rw [q.gateCheck_frame.1]
  unfold Play.finishBoundary
  extract_lets q
  rw [Play.chan, hgate]
  split <;> rfl

/-- Settles O42: a start through its one member, and an advance by whether the next block has come. -/
theorem channelsPlay : Obligations.ChannelsPlay := by
  unfold Obligations.ChannelsPlay
  intro s ch id hmultiple hpast hserved
  refine ⟨fun o en hstate hcls hboundary hmembers hfind hstarting => ?_,
    fun hquiet hstate hboundary hpass hstop => ⟨fun b hnext => ?_, fun hnext => ?_⟩⟩
  · obtain ⟨rfl, _⟩ := Play.find_id hfind
    have hdue := Play.startDue_of_granted (e := s.env) hstate hmultiple hpast hboundary hcls
    obtain ⟨hcfu, hzpc⟩ :=
      Play.memberStart_of_starting (e := s.env) (p := s.play.takeBoundary s.env) hserved hfind hstarting
    generalize hq : (s.play.takeBoundary s.env).memberStart s.env (s.play.chan ch) o = q at hcfu hzpc
    have hchan : ∀ d, q.chan d = s.play.chan d := fun d => by rw [Play.chan, hcfu]; rfl
    obtain ⟨hon, half, hfed⟩ := Play.channelStart_of_due hdue hserved (q := q) (by rw [hmembers]; exact hq)
    obtain ⟨hplaying, _⟩ := hfed.started (by nofun)
    rw [hchan] at hfed
    have hzone : ∀ k, (s.onPlay fun e p => p.channelStart e ch).finishBoundary.play.zone k =
        ((s.play.takeBoundary s.env).onEntry o en.id fun x =>
          { x with state := .rendering, seg := 0, pass := 0, sync := none }).zone k := fun k =>
      Play.zone_of_zpc ((Play.finishBoundary_zpc s.env _).trans (hon.zpc.trans hzpc)) k
    refine ⟨_, exec_channelStart ch s, ?_⟩
    simp only [hzone]
    simp only [State.boundary_play, Play.finishBoundary_chan]
    refine ⟨hplaying, ?_, ?_, ?_, ?_, ?_, ?_, Play.onEntry_zone_self _ _ _ _,
      fun k hk => Play.onEntry_zone_of_ne _ _ _ _ _ hk, fun d hd => (hon.others d hd).trans (hchan d),
      s.sameTables_boundary _⟩
    iterate 6
      rw [hfed.same]
      rfl
  · have hopen := Env.boundaryOpen_of_playing (e := s.env) hstate hmultiple hpast hboundary
    obtain ⟨hon, want, hfed⟩ := Play.blockAdvance_of_next hopen hpass hstop hserved hnext
    obtain ⟨_, hat⟩ := hfed.started (show (s.play.chan ch).state ≠ .preparing by rw [hstate]; nofun)
    refine ⟨s.onPlay fun e p => p.blockAdvance e ch,
      by rw [exec_channelBlockAdvance, State.boundary_of_quiet hquiet hon.net hon.evl],
      ?_, ?_, ?_, hat, ?_, hon.zpc, hon.net, hon.others, s.sameTables_onPlay _⟩
    iterate 4
      rw [State.onPlay_play, hfed.same]
      rfl
  · have hopen := Env.boundaryOpen_of_playing (e := s.env) hstate hmultiple hpast hboundary
    have hplay := Play.blockAdvance_of_underrun hopen hpass hstop hserved hnext
    have hcarried := Play.PlaysOn.carryAll ch (s.play.chan ch) .zero
      ((((s.play.takeBoundary s.env).onNet (Net.afterUnderrun s.env (s.play.chan ch))).onCfu fun f =>
        { f with counts := { f.counts with underruns := bump f.counts.underruns } }).onChan ch fun c =>
          { c with playing := some .zero, silent := true, boundary := s.env.elapsed })
    rw [← hplay] at hcarried
    have hnet : (s.play.blockAdvance s.env ch).net = s.play.net.afterUnderrun s.env (s.play.chan ch) := hcarried.net
    have hsame := Net.SameOutcomes.afterUnderrun s.env (s.play.chan ch) s.play.net
    obtain ⟨houtbox, hheld, hgate⟩ := hquiet
    have hquiet' : (s.onPlay fun e p => p.blockAdvance e ch).Quiet :=
      ⟨(congrArg (fun n => n.pau.outbox) hnet).trans (hsame.outbox.trans houtbox),
        (congrArg (fun n => n.pau.held) hnet).trans (hsame.held.trans hheld),
        (congrArg Evac.gateClosed hcarried.evl).trans hgate⟩
    refine ⟨s.onPlay fun e p => p.blockAdvance e ch,
      by rw [exec_channelBlockAdvance, State.finishBoundary_of_quiet hquiet'],
      ?_, ?_, fun hsilent => hnet.trans (if_pos hsilent), fun o ho => ?_, hcarried.zpc, s.sameTables_onPlay _⟩
    · rw [State.onPlay_play, hplay, Play.carryAll_chan, Play.onChan_chan_self]
      rfl
    · rw [State.onPlay_play, hplay, Play.carryAll_cfu]
      rfl
    · rw [State.onPlay_play, hplay]
      exact Play.carryAll_zero _ ho _

end Sys2Proof.Machine
end

section
/-! PROOFS. Obligation O13: the victim of a theft, the read granted next, and the theft itself (R84, R90, R130, R131,
R133, R136). -/
namespace Sys2Proof.Machine

/-! ### The victim (R133) -/

/-- Where a better element has the greater value, the element picked has the greatest. -/
theorem pickBy_greatest {α : Type} {better : α → α → Bool} {value : α → Nat}
    (hbetter : ∀ x y, better x y = true → value y ≤ value x) (hworse : ∀ x y, better x y = false → value x ≤ value y)
    {l : List α} {b : α} (h : pickBy better l = some b) : b ∈ l ∧ ∀ x ∈ l, value x ≤ value b := by
  induction l using List.reverseRecOn generalizing b with
  | nil => cases h
  | append_singleton l y ih =>
    rw [pickBy_append_one] at h
    cases hp : pickBy better l with
    | none =>
      obtain rfl := (pickBy_eq_none_iff _ _).mp hp
      cases h
      simp
    | some a =>
      obtain ⟨ha, hgreatest⟩ := ih hp
      rw [hp, Option.elim_some] at h
      cases hy : better y a with
      | true =>
        rw [hy, if_pos rfl] at h
        cases h
        refine ⟨by simp, List.forall_mem_append.mpr ⟨fun x hx => ?_, by simp⟩⟩
        exact (hgreatest x hx).trans (hbetter _ _ hy)
      | false =>
        rw [hy, if_neg Bool.false_ne_true] at h
        cases h
        exact ⟨List.mem_append_left _ ha, List.forall_mem_append.mpr ⟨hgreatest, by simpa using hworse _ _ hy⟩⟩

theorem eligibleVictim_iff (cls : AnnClass) (c : Channel) :
    eligibleVictim cls c = true ↔ c.state ≠ .free ∧ c.mark = none ∧ classCode cls < classCode c.cls := by
  simp [eligibleVictim, moreUrgent, and_assoc]

/-- One channel is the better victim: it serves a less urgent class, or the same and is newer. -/
def betterVictim (x y : Channel) : Bool := moreUrgent y.cls x.cls || (y.cls = x.cls && newer x y)

theorem classCode_le_of_betterVictim {x y : Channel} (h : betterVictim x y = true) :
    classCode y.cls ≤ classCode x.cls := by
  simp only [betterVictim, moreUrgent, Bool.or_eq_true, Bool.and_eq_true, decide_eq_true_eq] at h
  rcases h with hless | ⟨hsame, _⟩
  · exact hless.le
  · rw [hsame]

theorem classCode_le_of_not_betterVictim {x y : Channel} (h : betterVictim x y = false) :
    classCode x.cls ≤ classCode y.cls := by
  simp only [betterVictim, moreUrgent, Bool.or_eq_false_iff, decide_eq_false_iff_not, Nat.not_lt] at h
  exact h.1

theorem Play.victim_eq (p : Play) (cls : AnnClass) : p.victim cls =
    pickBy (fun x y => betterVictim (p.chan x) (p.chan y))
      (allChans.filter fun ch => eligibleVictim cls (p.chan ch)) := by
  unfold Play.victim pickBy
  congr 1
  funext best ch
  cases best <;> rfl

/-- A victim is eligible, and no eligible channel serves a less urgent class (R133). -/
theorem Play.victim_some {p : Play} {cls : AnnClass} {ch : Chan} (h : p.victim cls = some ch) :
    eligibleVictim cls (p.chan ch) = true ∧
      ∀ c : Chan, eligibleVictim cls (p.chan c) = true → classCode (p.chan c).cls ≤ classCode (p.chan ch).cls := by
  rw [Play.victim_eq] at h
  obtain ⟨hmem, hgreatest⟩ := pickBy_greatest (value := fun ch => classCode (p.chan ch).cls)
    (fun _ _ => classCode_le_of_betterVictim) (fun _ _ => classCode_le_of_not_betterVictim) h
  exact ⟨(List.mem_filter.mp hmem).2, fun c hc => hgreatest c (List.mem_filter.mpr ⟨List.mem_finRange c, hc⟩)⟩

theorem Play.victim_eq_none_iff (p : Play) (cls : AnnClass) :
    p.victim cls = none ↔ ∀ c : Chan, eligibleVictim cls (p.chan c) = false := by
  rw [Play.victim_eq, pickBy_eq_none_iff, List.filter_eq_nil_iff]
  simp [allChans]

/-- No class is less urgent than INFO (R1, R133). -/
theorem Play.victim_info (p : Play) : p.victim .info = none := by
  refine (p.victim_eq_none_iff .info).mpr fun c => Bool.eq_false_iff.mpr fun h => ?_
  obtain ⟨_, _, hless⟩ := (eligibleVictim_iff _ _).mp h
  cases hcls : (p.chan c).cls <;> rw [hcls] at hless <;> exact absurd hless (by decide)

/-! ### The read granted next (R136) -/

theorem mem_arbiterOrder : ∀ last d : Chan, d ∈ arbiterOrder last := by decide

/-- The classes in the order in which the arbiter serves them. -/
theorem classes_ascending :
    [AnnClass.evac, .alert, .service, .info].Pairwise fun a b => classCode a < classCode b := by decide

theorem mem_classes (k : AnnClass) : k ∈ [AnnClass.evac, .alert, .service, .info] := by cases k <;> decide

/-- The channel granted next has a read of a class than which no channel's is more urgent. -/
theorem Clips.nextRead_some {c : Clips} {ch : Chan} (h : c.nextRead = some ch) : ∃ k, c.readClass ch = some k ∧
    ∀ (d : Chan) (j : AnnClass), c.readClass d = some j → classCode k ≤ classCode j := by
  unfold Clips.nextRead at h
  obtain ⟨before, k, after, hclasses, hfound, hnone⟩ := List.findSome?_eq_some_iff.mp h
  have hread := List.find?_some (p := fun ch => decide (c.readClass ch = some k)) hfound
  refine ⟨k, of_decide_eq_true hread, fun d j hd => ?_⟩
  have hordered := classes_ascending
  have hj := mem_classes j
  rw [hclasses] at hordered hj
  rcases List.mem_append.mp hj with hbefore | hrest
  · exact absurd (decide_eq_true hd) (List.find?_eq_none.mp (hnone j hbefore) d (mem_arbiterOrder _ d))
  · rcases List.mem_cons.mp hrest with rfl | hafter
    · exact le_refl _
    · exact ((List.pairwise_cons.mp (List.pairwise_append.mp hordered).2.1).1 j hafter).le

theorem Clips.nextRead_of_read {c : Clips} {d : Chan} {j : AnnClass} (h : c.readClass d = some j) :
    ∃ ch, c.nextRead = some ch := by
  refine Option.ne_none_iff_exists'.mp fun hnone => ?_
  have hfind := List.findSome?_eq_none_iff.mp hnone j (mem_classes j)
  exact List.find?_eq_none.mp hfind d (mem_arbiterOrder _ d) (decide_eq_true h)

/-! ### The rounds of the allocator (R130, R133) -/

section rounds
variable {p : Play} {r w : ChanRequest} {rest : List ChanRequest} {n : Nat}

theorem Play.findFree_of_busy (hbusy : ∀ d, (p.chan d).state ≠ .free) :
    (p.findChan fun c => decide (c.state = .free)) = none :=
  (Play.findChan_eq_none_iff p _).mpr fun d => decide_eq_false (hbusy d)

/-- A request that seeks no more (R133). -/
def Play.sought (w : ChanRequest) (p : Play) : Play := p.onCfu fun f =>
  { f with waiting := f.waiting.map fun q => if q.serial = w.serial then { q with seek := false } else q }

theorem Play.allocate_incoming (hbusy : ∀ d, (p.chan d).state ≠ .free) :
    Play.allocate (n + 1) (r :: rest) p = Play.allocate n rest (p.newRequest r) := by
  rw [Play.allocate, Play.findFree_of_busy hbusy]

/-- With no FREE channel, nothing to be made and no request that is to seek, the allocator ends. -/
theorem Play.allocate_idle (hbusy : ∀ d, (p.chan d).state ≠ .free) (hidle : p.cfu.waiting.find? (·.seek) = none) :
    Play.allocate n [] p = p := by
  cases n with
  | zero => rfl
  | succ n => rw [Play.allocate, Play.findFree_of_busy hbusy]; simp only [hidle]

theorem Play.allocate_no_victim (hbusy : ∀ d, (p.chan d).state ≠ .free)
    (hseeks : p.cfu.waiting.find? (·.seek) = some w) (hnone : p.victim w.cls = none) :
    Play.allocate (n + 1) [] p = Play.allocate n [] (p.sought w) := by
  have hvictim : (p.sought w).victim w.cls = none := hnone
  rw [Play.allocate, Play.findFree_of_busy hbusy]
  simp only [hseeks]
  unfold Play.sought at hvictim ⊢
  rw [hvictim]

/-- A theft counted, and the victim's mark for the taker's request (R133). -/
def Play.marks (v : Chan) (w : ChanRequest) (p : Play) : Play :=
  (p.onCfu fun f => { f with counts := { f.counts with thefts := bump f.counts.thefts } }).onChan v fun c =>
    { c with mark := some w.serial }

/-- The members of an unstarted victim make their requests again (R84, R133). -/
def Play.retake (v : Chan) (w : ChanRequest) (p : Play) : Play :=
  ((p.marks v w).freeChan v).onCfu fun f =>
    { f with nextSerial := f.nextSerial + (retakenRequests (p.chan v) p.cfu.nextSerial).length }

theorem Play.allocate_victim {v : Chan} (hbusy : ∀ d, (p.chan d).state ≠ .free)
    (hseeks : p.cfu.waiting.find? (·.seek) = some w) (hvictim : p.victim w.cls = some v) :
    Play.allocate (n + 1) [] p =
      if (p.chan v).state = .playing then Play.allocate n [] (((p.sought w).marks v w).tellTheft v w.cls)
      else Play.allocate n (retakenRequests (p.chan v) p.cfu.nextSerial) ((p.sought w).retake v w) := by
  have hsought : (p.sought w).victim w.cls = some v := hvictim
  rw [Play.allocate, Play.findFree_of_busy hbusy]
  simp only [hseeks]
  unfold Play.sought at hsought ⊢
  rw [hsought]
  rfl

theorem Play.tellTheft_cfu (v : Chan) (taker : AnnClass) (p : Play) : (p.tellTheft v taker).cfu = p.cfu := by
  unfold Play.tellTheft
  dsimp only
  split
  · exact List.foldlRecOn (motive := fun q : Play => q.cfu = p.cfu) _ _ rfl fun q hq o _ => hq
  · rfl

theorem Play.marks_chan (v d : Chan) (w : ChanRequest) (p : Play) :
    (p.marks v w).chan d = if d = v then { p.chan d with mark := some w.serial } else p.chan d :=
  Play.onChan_chan _ v d _

end rounds

/-! ### A request that finds every channel taken (R130, R133) -/

section taken
variable {p : Play} {o : Out} {cls : AnnClass} {s : Served}

/-- One request waits alone. -/
def Play.waitsAlone (o : Out) (cls : AnnClass) (s : Served) (seek : Bool) (p : Play) : Play :=
  { p with cfu := { p.cfu with
    waiting := [⟨p.cfu.nextSerial, o, cls, s, seek⟩], nextSerial := p.cfu.nextSerial + 1 } }

theorem Play.waitsAlone_chan (o : Out) (cls : AnnClass) (s : Served) (seek : Bool) (p : Play) (d : Chan) :
    (p.waitsAlone o cls s seek).chan d = p.chan d := rfl

theorem Play.sought_waitsAlone (o : Out) (cls : AnnClass) (s : Served) (p : Play) :
    (p.waitsAlone o cls s true).sought ⟨p.cfu.nextSerial, o, cls, s, true⟩ = p.waitsAlone o cls s false := by
  simp [Play.sought, Play.onCfu, Play.waitsAlone]

/-- No channel that has not started serves a body for a request to join (R132). -/
theorem Play.newRequest_of_taken {r : ChanRequest} (hbusy : ∀ d, (p.chan d).state ≠ .free)
    (halone : ∀ d, (p.chan d).state = .preparing ∨ (p.chan d).state = .granted → ∀ x, (p.chan d).served = some x →
      sameBody x r.served = false) :
    p.newRequest r = p.onCfu fun f => { f with waiting := insertRequest f.waiting r } := by
  have hjoin : (p.findChan fun c => (c.state = .preparing || c.state = .granted) &&
      (c.served.any fun s => sameBody s r.served)) = none := by
    refine (Play.findChan_eq_none_iff p _).mpr fun d => Bool.eq_false_iff.mpr fun hboth => ?_
    simp only [Bool.and_eq_true, Bool.or_eq_true, decide_eq_true_eq, Option.any_eq_true] at hboth
    obtain ⟨hstate, x, hx, hsame⟩ := hboth
    rw [halone d hstate x hx] at hsame
    cases hsame
  unfold Play.newRequest
  dsimp only
  rw [hjoin]
  dsimp only
  rw [Play.findFree_of_busy hbusy]

variable (hwaiting : p.cfu.waiting = []) (hbusy : ∀ d, (p.chan d).state ≠ .free)
  (halone : ∀ d, (p.chan d).state = .preparing ∨ (p.chan d).state = .granted → ∀ x, (p.chan d).served = some x →
    sameBody x s = false)
include hwaiting hbusy halone

/-- A request with none before it that finds every channel taken seeks a victim at once. -/
theorem Play.requestChan_seeks : p.requestChan o cls s = Play.allocate 255 [] (p.waitsAlone o cls s true) := by
  have hnew := Play.newRequest_of_taken (p := p.onCfu fun f => { f with nextSerial := f.nextSerial + 1 })
    (r := ⟨p.cfu.nextSerial, o, cls, s, true⟩) hbusy halone
  unfold Play.requestChan
  dsimp only
  rw [show allocRounds = 255 + 1 from rfl,
    Play.allocate_incoming (p := p.onCfu fun f => { f with nextSerial := f.nextSerial + 1 }) hbusy, hnew]
  simp only [Play.onCfu, hwaiting]
  rfl

theorem Play.requestChan_of_no_victim (hnone : p.victim cls = none) :
    p.requestChan o cls s = p.waitsAlone o cls s false := by
  rw [Play.requestChan_seeks hwaiting hbusy halone,
    Play.allocate_no_victim (p := p.waitsAlone o cls s true) hbusy rfl hnone, Play.sought_waitsAlone,
    Play.allocate_idle (p := p.waitsAlone o cls s false) hbusy rfl]

/-- A victim that plays is marked, and its members are told (R90, R133). -/
theorem Play.requestChan_of_playing {v : Chan} (hvictim : p.victim cls = some v)
    (hstate : (p.chan v).state = .playing) : p.requestChan o cls s =
      ((p.waitsAlone o cls s false).marks v ⟨p.cfu.nextSerial, o, cls, s, true⟩).tellTheft v cls := by
  rw [Play.requestChan_seeks hwaiting hbusy halone,
    Play.allocate_victim (p := p.waitsAlone o cls s true) hbusy rfl hvictim,
    Play.waitsAlone_chan, if_pos hstate, Play.sought_waitsAlone]
  generalize hq : ((p.waitsAlone o cls s false).marks v ⟨p.cfu.nextSerial, o, cls, s, true⟩).tellTheft v cls = q
  have hcfu : q.cfu = ((p.waitsAlone o cls s false).marks v ⟨p.cfu.nextSerial, o, cls, s, true⟩).cfu := by
    rw [← hq, Play.tellTheft_cfu]
  refine Play.allocate_idle (fun d => ?_) (by rw [hcfu]; rfl)
  rw [Play.chan, hcfu]
  have hchan := Play.marks_chan v d ⟨p.cfu.nextSerial, o, cls, s, true⟩ (p.waitsAlone o cls s false)
  rw [Play.chan] at hchan
  rw [hchan]
  split
  · exact hbusy d
  · exact hbusy d

/-- A victim that has not started is taken back, and its members make their requests again (R84, R131, R133). -/
theorem Play.requestChan_of_unstarted {v : Chan} (hvictim : p.victim cls = some v)
    (hstate : (p.chan v).state ≠ .playing) : p.requestChan o cls s =
      Play.allocate 254 (retakenRequests (p.chan v) (p.cfu.nextSerial + 1))
        ((p.waitsAlone o cls s false).retake v ⟨p.cfu.nextSerial, o, cls, s, true⟩) := by
  rw [Play.requestChan_seeks hwaiting hbusy halone,
    Play.allocate_victim (p := p.waitsAlone o cls s true) hbusy rfl hvictim,
    Play.waitsAlone_chan, if_neg hstate, Play.sought_waitsAlone]
  rfl

end taken

/-! ### The members of a victim that plays (R90) -/

/-- Zones changed in turn, each once. -/
theorem Play.foldl_onZone_zone (f : Zone → Zone) {l : List Out} (hnodup : l.Nodup) (p : Play) (q : Out) :
    (l.foldl (fun p o => p.onZone o f) p).zone q = if q ∈ l then f (p.zone q) else p.zone q := by
  induction l generalizing p with
  | nil => rfl
  | cons x rest ih =>
    obtain ⟨hx, hrest⟩ := List.nodup_cons.mp hnodup
    rw [List.foldl_cons, ih hrest, Play.onZone_zone]
    by_cases hqx : q = x
    · subst hqx
      rw [if_neg hx, if_pos rfl, if_pos List.mem_cons_self]
    · simp only [hqx, if_false, List.mem_cons, false_or]

theorem outsOf_nodup (m : OutSet) : (outsOf m).Nodup := (List.nodup_finRange 8).filter _

/-- Each sounding entry that the victim feeds is to stop for the theft (R90). -/
theorem Play.tellTheft_zone {p : Play} {v : Chan} {id : AnnId} (hserved : (p.chan v).served = some (.body id))
    (taker : AnnClass) (q : Out) : (p.tellTheft v taker).zone q =
      if (p.chan v).members.getLsbD q.val = true then { p.zone q with
        queue := (p.zone q).queue.map fun x => if x.id = id ∧ x.sounding = true then
          x.addCause fun c => { c with theft := true, atBlock := c.atBlock || decide (taker = .evac) } else x }
      else p.zone q := by
  unfold Play.tellTheft
  dsimp only
  rw [hserved]
  dsimp only
  rw [Play.foldl_onZone_zone _ (outsOf_nodup _)]
  simp only [mem_outsOf, Zone.onEntries, Bool.and_eq_true, decide_eq_true_eq]

/-! ### Requests made again (R84, R130, R132, R133) -/

theorem Play.hasRequest_iff (p : Play) (o : Out) (s : Served) : p.hasRequest o s = true ↔
    (∃ w ∈ p.cfu.waiting, w.output = o ∧ w.served = s) ∨
      ∃ d, (p.chan d).served = some s ∧ (p.chan d).members.getLsbD o.val = true := by
  unfold Play.hasRequest
  rw [Bool.or_eq_true, List.any_eq_true, ← Option.ne_none_iff_isSome, Ne, Play.chanOf, Play.findChan_eq_none_iff]
  simp only [Bool.and_eq_true, decide_eq_true_eq, not_forall, Bool.not_eq_false]

/-- Requests that find no channel to take leave each channel as it is but for members that joined, and every
request that waited waiting. -/
structure Play.Queues (p q : Play) : Prop where
  chans : ∀ d, ∃ m, q.chan d = { p.chan d with members := m } ∧
    ∀ o : Out, (p.chan d).members.getLsbD o.val = true → m.getLsbD o.val = true
  waiting : ∀ w ∈ p.cfu.waiting, ∃ x ∈ q.cfu.waiting, x.output = w.output ∧ x.served = w.served
  thefts : q.cfu.counts.thefts = p.cfu.counts.thefts
  zpc : q.zpc = p.zpc
  net : q.net = p.net

section queues
variable {p q u : Play} {k : AnnClass} {r w : ChanRequest}

theorem Play.Queues.refl (p : Play) : p.Queues p :=
  ⟨fun _ => ⟨_, rfl, fun _ => id⟩, fun w hw => ⟨w, hw, rfl, rfl⟩, rfl, rfl, rfl⟩

theorem Play.Queues.trans (h : p.Queues q) (g : q.Queues u) : p.Queues u where
  chans d := by
    obtain ⟨m, hm, hsub⟩ := h.chans d
    obtain ⟨m', hm', hsub'⟩ := g.chans d
    rw [hm] at hm' hsub'
    exact ⟨m', hm', fun o ho => hsub' o (hsub o ho)⟩
  waiting w hw := by
    obtain ⟨x, hx, ho, hs⟩ := h.waiting w hw
    obtain ⟨y, hy, ho', hs'⟩ := g.waiting x hx
    exact ⟨y, hy, ho'.trans ho, hs'.trans hs⟩
  thefts := g.thefts.trans h.thefts
  zpc := g.zpc.trans h.zpc
  net := g.net.trans h.net

theorem Play.Queues.busy (h : p.Queues q) (hbusy : ∀ d, (p.chan d).state ≠ .free) (d : Chan) :
    (q.chan d).state ≠ .free := by
  obtain ⟨m, hm, _⟩ := h.chans d
  rw [hm]
  exact hbusy d

theorem Play.Queues.noVictim (h : p.Queues q) (hnone : ∀ d, eligibleVictim k (p.chan d) = false) (d : Chan) :
    eligibleVictim k (q.chan d) = false := by
  obtain ⟨m, hm, _⟩ := h.chans d
  rw [hm]
  exact hnone d

theorem Play.Queues.hasRequest (h : p.Queues q) {o : Out} {s : Served} (hp : p.hasRequest o s = true) :
    q.hasRequest o s = true := by
  rw [Play.hasRequest_iff] at hp ⊢
  rcases hp with ⟨w, hw, rfl, rfl⟩ | ⟨d, hs, hm⟩
  · exact .inl (h.waiting w hw)
  · obtain ⟨m, hd, hsub⟩ := h.chans d
    exact .inr ⟨d, by rw [hd]; exact hs, by rw [hd]; exact hsub o hm⟩

theorem mem_insertRequest (l : List ChanRequest) (r x : ChanRequest) : x ∈ insertRequest l r ↔ x = r ∨ x ∈ l := by
  induction l with
  | nil => simp [insertRequest]
  | cons y rest ih =>
    unfold insertRequest
    split
    · rw [List.mem_cons]
    · rw [List.mem_cons, ih, List.mem_cons]
      exact or_left_comm

/-- What two requests share is one body (R132). -/
theorem eq_of_sameBody {a b : Served} (h : sameBody a b = true) : a = b := by
  cases a with
  | body i =>
    cases b with
    | body j => simpa [sameBody, Served.bodyId] using h
    | probe _ _ => cases h
  | probe _ _ => cases h

/-- A request with no channel FREE joins a channel of its body or waits (R130, R132). -/
theorem Play.newRequest_cases (hbusy : ∀ d, (p.chan d).state ≠ .free) (r : ChanRequest) :
    (∃ d, (p.chan d).served = some r.served ∧ p.newRequest r =
      (p.onChan d fun c => { c with members := addOut c.members r.output }).onCfu fun f =>
        { f with counts := { f.counts with joined := bump f.counts.joined } }) ∨
    p.newRequest r = p.onCfu fun f => { f with waiting := insertRequest f.waiting r } := by
  unfold Play.newRequest
  dsimp only
  split
  · next d hfound =>
    obtain ⟨hjoin, _⟩ := (Play.findChan_eq_some_iff p _ d).mp hfound
    simp only [Bool.and_eq_true, Option.any_eq_true] at hjoin
    obtain ⟨_, x, hx, hsame⟩ := hjoin
    refine .inl ⟨d, ?_, rfl⟩
    rw [hx, eq_of_sameBody hsame]
  · rw [Play.findFree_of_busy hbusy]
    exact .inr rfl

theorem Play.newRequest_queues (hbusy : ∀ d, (p.chan d).state ≠ .free) (r : ChanRequest) :
    p.Queues (p.newRequest r) ∧ (p.newRequest r).hasRequest r.output r.served = true ∧
      ∀ w ∈ (p.newRequest r).cfu.waiting, w = r ∨ w ∈ p.cfu.waiting := by
  rcases p.newRequest_cases hbusy r with ⟨d, hserved, h⟩ | h <;> rw [h]
  · have hchan : ∀ c, ((p.onChan d fun c => { c with members := addOut c.members r.output }).onCfu fun f =>
        { f with counts := { f.counts with joined := bump f.counts.joined } }).chan c =
          if c = d then { p.chan c with members := addOut (p.chan c).members r.output } else p.chan c :=
      fun c => p.onChan_chan d c _
    refine ⟨⟨fun c => ?_, fun w hw => ⟨w, hw, rfl, rfl⟩, rfl, rfl, rfl⟩, ?_, fun w hw => .inr hw⟩
    · rw [hchan]
      split
      · exact ⟨_, rfl, fun o ho => by rw [addOut_has, ho, Bool.true_or]⟩
      · exact ⟨_, rfl, fun _ => id⟩
    · refine (Play.hasRequest_iff _ _ _).mpr (.inr ⟨d, ?_, ?_⟩) <;> rw [hchan, if_pos rfl]
      · exact hserved
      · rw [addOut_has, decide_eq_true rfl, Bool.or_true]
  · refine ⟨⟨fun c => ⟨_, rfl, fun _ => id⟩, fun w hw => ⟨w, ?_, rfl, rfl⟩, rfl, rfl, rfl⟩, ?_, fun w hw => ?_⟩
    · exact (mem_insertRequest _ _ _).mpr (.inr hw)
    · exact (Play.hasRequest_iff _ _ _).mpr (.inl ⟨r, (mem_insertRequest _ _ _).mpr (.inl rfl), rfl, rfl⟩)
    · exact (mem_insertRequest _ _ _).mp hw

theorem Play.sought_queues (w : ChanRequest) (p : Play) : p.Queues (p.sought w) where
  chans _ := ⟨_, rfl, fun _ => id⟩
  waiting x hx := by
    refine ⟨_, List.mem_map_of_mem hx, ?_, ?_⟩ <;> split <;> rfl
  thefts := rfl
  zpc := rfl
  net := rfl

/-- Requests of a class that finds no victim, with no channel FREE: each joins a channel or waits, and takes none (R130,
R133). -/
theorem Play.allocate_queues (n : Nat) (incoming : List ChanRequest) (p : Play) (hbusy : ∀ d, (p.chan d).state ≠ .free)
    (hnone : ∀ d, eligibleVictim k (p.chan d) = false) (hin : ∀ r ∈ incoming, r.cls = k)
    (hwait : ∀ w ∈ p.cfu.waiting, w.cls = k) : p.Queues (Play.allocate n incoming p) ∧
      (incoming.length ≤ n → ∀ r ∈ incoming, (Play.allocate n incoming p).hasRequest r.output r.served = true) := by
  induction n generalizing incoming p with
  | zero =>
    refine ⟨.refl p, fun hlen r hr => ?_⟩
    rw [List.length_eq_zero_iff.mp (Nat.le_zero.mp hlen)] at hr
    cases hr
  | succ n ih =>
    cases incoming with
    | cons r rest =>
      obtain ⟨hqueues, hhas, hwaits⟩ := p.newRequest_queues hbusy r
      obtain ⟨hr, hrest⟩ := List.forall_mem_cons.mp hin
      obtain ⟨hlater, hall⟩ := ih rest (p.newRequest r) (hqueues.busy hbusy) (hqueues.noVictim hnone) hrest fun w hw =>
        (hwaits w hw).elim (fun h => h ▸ hr) (hwait w)
      rw [Play.allocate_incoming hbusy]
      exact ⟨hqueues.trans hlater, fun hlen => List.forall_mem_cons.mpr
        ⟨hlater.hasRequest hhas, hall (Nat.le_of_succ_le_succ hlen)⟩⟩
    | nil =>
      refine ⟨?_, fun _ => List.forall_mem_nil _⟩
      cases hseeks : p.cfu.waiting.find? (·.seek) with
      | none =>
        rw [Play.allocate_idle hbusy hseeks]
        exact .refl p
      | some w =>
        have hw := hwait w (List.mem_of_find?_eq_some hseeks)
        have hsought := p.sought_queues w
        rw [Play.allocate_no_victim hbusy hseeks ((p.victim_eq_none_iff _).mpr (hw ▸ hnone))]
        refine hsought.trans (ih [] (p.sought w) (hsought.busy hbusy) (hsought.noVictim hnone)
          (List.forall_mem_nil _) fun x hx => ?_).1
        obtain ⟨y, hy, rfl⟩ := List.mem_map.mp hx
        split <;> exact hwait y hy

end queues

/-! ### A victim taken back (R84, R131, R133) -/

section retaken
variable {p : Play} {v : Chan} {w : ChanRequest} {n : Nat}

/-- A FREE channel goes to the one request that waits (R131). -/
theorem Play.allocate_free {incoming : List ChanRequest}
    (hfree : (p.findChan fun c => decide (c.state = .free)) = some v) (hwaiting : p.cfu.waiting = [w]) :
    Play.allocate (n + 1) incoming p = Play.allocate n incoming (p.assign v w) := by
  conv_lhs => unfold Play.allocate
  simp only [hfree, hwaiting]
  cases htaker : [w].find? fun q => decide ((p.chan v).mark = some q.serial) with
  | none => rfl
  | some x => rw [List.mem_singleton.mp (List.mem_of_find?_eq_some htaker), Option.getD_some]

/-- A channel given to the one request that waited. -/
structure Play.TakenBy (v : Chan) (w : ChanRequest) (p q : Play) : Prop where
  served : (q.chan v).served = some w.served
  cls : (q.chan v).cls = w.cls
  members : (q.chan v).members = addOut 0 w.output
  mark : (q.chan v).mark = none
  busy : (q.chan v).state ≠ .free
  others : ∀ d, d ≠ v → q.chan d = p.chan d
  waiting : q.cfu.waiting = []
  thefts : q.cfu.counts.thefts = p.cfu.counts.thefts
  zpc : q.zpc = p.zpc
  net : q.net = p.net

theorem Play.assign_takenBy (v : Chan) (hwaiting : p.cfu.waiting = [w]) : p.TakenBy v w (p.assign v w) := by
  have hzpc := p.assign_zpc v w
  obtain ⟨hnet, _⟩ := p.assign_sameBeside v w
  revert hzpc hnet
  unfold Play.assign
  extract_lets others left marked q blank u
  intro hzpc hnet
  have hothers : others = [] := by simp [others, hwaiting]
  have hleft : left = [] := by simp [left, hwaiting]
  have hself : u.chan v = _ := q.onChan_chan_self v _
  have hfeeds := Play.Feeds.pump v u
  have hfed := u.pump_fed v
  refine ⟨?_, ?_, ?_, ?_, ?_, fun d hd => ?_, ?_, ?_, hzpc, hnet⟩
  · rw [hfeeds.served, hself]
  · rw [hfeeds.cls, hself]
  · rw [hfeeds.members, hself, hothers]
    rfl
  · rw [hfed.same, hself]
    rfl
  · exact hfed.busy (by rw [hself]; nofun)
  · rw [hfeeds.others d hd, Play.onChan_chan, if_neg hd]
    rfl
  · rw [hfeeds.waiting]
    show left.map _ = []
    rw [hleft, List.map_nil]
  · rw [hfeeds.counts]
    rfl

/-- The requests made again: one for each member, of the class of the channel (R84). -/
theorem mem_retakenRequests {c : Channel} {serial : Nat} {r : ChanRequest} (h : r ∈ retakenRequests c serial) :
    r.cls = c.cls := by
  unfold retakenRequests at h
  split at h
  · obtain ⟨i, hi, rfl⟩ := List.mem_mapIdx.mp h
    rfl
  · cases h

theorem retakenRequests_length (c : Channel) (serial : Nat) : (retakenRequests c serial).length ≤ 8 := by
  unfold retakenRequests
  split
  · rw [List.length_mapIdx]
    exact List.length_filter_le _ _
  · exact Nat.zero_le _

theorem exists_retakenRequest {c : Channel} {s : Served} {o : Out} (hserved : c.served = some s)
    (ho : c.members.getLsbD o.val = true) (serial : Nat) :
    ∃ r ∈ retakenRequests c serial, r.output = o ∧ r.served = s := by
  obtain ⟨i, hi, hget⟩ := List.mem_iff_getElem.mp ((mem_outsOf c.members o).mpr ho)
  unfold retakenRequests
  rw [hserved]
  exact ⟨_, List.mem_mapIdx.mpr ⟨i, hi, rfl⟩, hget, rfl⟩

end retaken

section theft
variable {p : Play} {o : Out} {cls : AnnClass} {s : Served} {v : Chan}

theorem Play.retake_chan_self (w : ChanRequest) : ((p.retake v w).chan v).state = .free := by
  show (((p.marks v w).freeChan v).chan v).state = .free
  rw [Play.freeChan, Play.onChan_chan_self]
  rfl

theorem Play.retake_chan_of_ne (w : ChanRequest) {d : Chan} (hd : d ≠ v) : (p.retake v w).chan d = p.chan d := by
  show ((p.marks v w).freeChan v).chan d = p.chan d
  rw [Play.freeChan, Play.onChan_chan, if_neg hd, Play.marks_chan, if_neg hd]

/-- A victim serves a less urgent class than the taker, and no other channel serves a less urgent one than it that is
still to be taken: its members find no victim in turn (R133). -/
theorem Play.no_further_victim {q : Play} (hvictim : p.victim cls = some v) (htaken : (q.chan v).cls = cls)
    (hothers : ∀ d, d ≠ v → q.chan d = p.chan d) (d : Chan) : eligibleVictim (p.chan v).cls (q.chan d) = false := by
  obtain ⟨heligible, hgreatest⟩ := Play.victim_some hvictim
  obtain ⟨_, _, hless⟩ := (eligibleVictim_iff _ _).mp heligible
  refine Bool.eq_false_iff.mpr fun h => ?_
  obtain ⟨hbusy, hmark, hmore⟩ := (eligibleVictim_iff _ _).mp h
  by_cases hd : d = v
  · rw [hd, htaken] at hmore
    exact absurd hless hmore.asymm
  · rw [hothers d hd] at hbusy hmark hmore
    exact absurd hmore (hgreatest d ((eligibleVictim_iff _ _).mpr ⟨hbusy, hmark, hless.trans hmore⟩)).not_gt

/-- A theft from a channel that has not started: the request has it, its members have their requests made again, and
none of these takes a channel (R84, R131, R133). -/
theorem Play.requestChan_retakes (hwaiting : p.cfu.waiting = []) (hbusy : ∀ d, (p.chan d).state ≠ .free)
    (halone : ∀ d, (p.chan d).state = .preparing ∨ (p.chan d).state = .granted → ∀ x, (p.chan d).served = some x →
      sameBody x s = false)
    (hvictim : p.victim cls = some v) (hstate : (p.chan v).state ≠ .playing) :
    ∃ u, ((p.waitsAlone o cls s false).retake v ⟨p.cfu.nextSerial, o, cls, s, true⟩).TakenBy v
        ⟨p.cfu.nextSerial, o, cls, s, false⟩ u ∧ u.Queues (p.requestChan o cls s) ∧
      ∀ (k : Out) (x : Served), (p.chan v).served = some x → (p.chan v).members.getLsbD k.val = true →
        (p.requestChan o cls s).hasRequest k x = true := by
  rw [Play.requestChan_of_unstarted hwaiting hbusy halone hvictim hstate]
  generalize hq : (p.waitsAlone o cls s false).retake v ⟨p.cfu.nextSerial, o, cls, s, true⟩ = q
  have hself : (q.chan v).state = .free := by rw [← hq]; exact Play.retake_chan_self _
  have hne : ∀ d, d ≠ v → q.chan d = p.chan d := fun d hd => by rw [← hq]; exact Play.retake_chan_of_ne _ hd
  have hwaits : q.cfu.waiting = [⟨p.cfu.nextSerial, o, cls, s, false⟩] := by rw [← hq]; rfl
  have hfree : (q.findChan fun c => decide (c.state = .free)) = some v := by
    refine (Play.findChan_eq_some_iff q _ v).mpr ⟨decide_eq_true hself, fun d hd => decide_eq_false ?_⟩
    rw [hne d hd.ne]
    exact hbusy d
  have htaken := Play.assign_takenBy v hwaits
  have htakenBusy : ∀ d, ((q.assign v ⟨p.cfu.nextSerial, o, cls, s, false⟩).chan d).state ≠ .free := fun d => by
    by_cases hd : d = v
    · rw [hd]
      exact htaken.busy
    · rw [htaken.others d hd, hne d hd]
      exact hbusy d
  refine ⟨_, htaken, ?_⟩
  rw [Play.allocate_free (n := 253) hfree hwaits]
  obtain ⟨hqueues, hall⟩ := Play.allocate_queues (k := (p.chan v).cls) 253
    (retakenRequests (p.chan v) (p.cfu.nextSerial + 1)) (q.assign v ⟨p.cfu.nextSerial, o, cls, s, false⟩) htakenBusy
    (Play.no_further_victim hvictim htaken.cls fun d hd => (htaken.others d hd).trans (hne d hd))
    (fun r hr => mem_retakenRequests hr) (by rw [htaken.waiting]; exact List.forall_mem_nil _)
  refine ⟨hqueues, fun k x hx hk => ?_⟩
  obtain ⟨r, hr, rfl, rfl⟩ := exists_retakenRequest hx hk (p.cfu.nextSerial + 1)
  exact hall ((retakenRequests_length _ _).trans (by decide)) r hr

end theft

/-- Settles O13: the victim as the greatest of the eligible channels, the read as the first of the most urgent class,
and a theft by whether its victim plays. -/
theorem urgencyDecides : Obligations.UrgencyDecides := by
  unfold Obligations.UrgencyDecides
  refine ⟨⟨fun p => ⟨p.victim_info, fun cls ch h => ?_⟩,
      fun c => ⟨fun ch => Clips.nextRead_some, fun d j => Clips.nextRead_of_read⟩⟩,
    fun p o cls s hwaiting hbusy halone => ⟨Play.requestChan_of_no_victim hwaiting hbusy halone, fun v hvictim =>
      ⟨fun hstate => ?_, fun hstate => ?_⟩⟩⟩
  · obtain ⟨heligible, hgreatest⟩ := Play.victim_some h
    obtain ⟨hbusy, hmark, hless⟩ := (eligibleVictim_iff _ _).mp heligible
    exact ⟨hbusy, hmark, hless, hgreatest⟩
  · rw [Play.requestChan_of_playing hwaiting hbusy halone hvictim hstate]
    generalize hq : (p.waitsAlone o cls s false).marks v ⟨p.cfu.nextSerial, o, cls, s, true⟩ = q
    have hmarked : ∀ d, q.chan d = if d = v then { p.chan d with mark := some p.cfu.nextSerial } else p.chan d :=
      fun d => by rw [← hq, Play.marks_chan]; rfl
    obtain ⟨hnet, hcmu, _⟩ := q.tellTheft_sameBeside v cls
    have hchan : ∀ d, (q.tellTheft v cls).chan d = q.chan d := fun d => by rw [Play.chan, Play.tellTheft_cfu]; rfl
    refine ⟨?_, fun d hd => ?_, ?_, ?_, fun id k hserved => ?_, hnet.trans ?_, hcmu.trans ?_⟩
    · rw [hchan, hmarked, if_pos rfl]
    · rw [hchan, hmarked, if_neg hd]
    · rw [Play.tellTheft_cfu, ← hq]
      rfl
    · rw [Play.tellTheft_cfu, ← hq]
      rfl
    · have hzone : q.zone k = p.zone k := by rw [← hq]; rfl
      have hself : q.chan v = { p.chan v with mark := some p.cfu.nextSerial } := (hmarked v).trans (if_pos rfl)
      rw [Play.tellTheft_zone (by rw [hself]; exact hserved), hself, hzone]
    · rw [← hq]
      rfl
    · rw [← hq]
      rfl
  · have hunstarted : (p.chan v).state ≠ .playing := by rcases hstate with h | h <;> rw [h] <;> nofun
    obtain ⟨u, htaken, hqueues, hall⟩ := Play.requestChan_retakes (o := o) hwaiting hbusy halone hvictim hunstarted
    obtain ⟨m, hchan, hmembers⟩ := hqueues.chans v
    refine ⟨?_, ?_, ?_, ?_, ?_, fun k x => hall k x, fun k => ?_, ?_⟩
    · rw [hchan]
      exact htaken.served
    · rw [hchan]
      exact htaken.cls
    · rw [hchan]
      refine hmembers o ?_
      rw [htaken.members, addOut_has, decide_eq_true rfl, Bool.or_true]
    · rw [hchan]
      exact htaken.mark
    · exact hqueues.thefts.trans htaken.thefts
    · exact Play.zone_of_zpc (hqueues.zpc.trans htaken.zpc) k
    · exact hqueues.net.trans htaken.net

end Sys2Proof.Machine
end

section
/-! PROOFS. A refutation (O18). The statement takes the channels and the waiting list of LOADING as they come. Where an
output given no zone drops a waiting entry, its channel goes to a waiting request, and another request that waits then
seeks a victim (R131, R133): a channel of a less urgent class that feeds an output given a zone, whose sounding entry is
put in STOPPING for the theft (R90), while the statement keeps that output's queue. -/
namespace Sys2Proof.Machine

/-! ### The station of the counterexample -/

/-- An EVAC entry in LOADING, before the station has an address. -/
def loadingItem (seq : Nat) (st : EntryState) : Entry :=
  { newEntry ⟨0, seq⟩ .evac .evac none none none false none 0 with state := st }

/-- A channel that serves the waiting entry of output 0, and five of class INFO that play that of output 2. -/
def contendedChannel (ch : Chan) : Channel :=
  if ch = 0 then
    { Channel.reset with state := .granted, served := some (.body ⟨0, 2⟩), cls := .evac, members := addOut 0 0 }
  else { Channel.reset with state := .playing, served := some (.body ⟨0, 1⟩), members := addOut 0 2 }

/-- LOADING, with an image of one zone, on output 2, held until the header read is settled; two requests wait. -/
def contendedState : State :=
  { State.reset with
    cfl := { State.reset.cfl with config := some (.accepted (alertImage .created) 0) }
    play := ((State.reset.play.onZone 0 fun z => { z with queue := [loadingItem 2 .queued] }).onZone 2 fun z =>
      { z with queue := [loadingItem 1 .rendering] }).onCfu fun f => { f with
        channels := Vector.ofFn contendedChannel
        waiting := [⟨0, 1, .alert, .body ⟨0, 3⟩, false⟩, ⟨1, 1, .alert, .body ⟨0, 4⟩, false⟩]
        nextSerial := 2 } }

theorem contendedState_zones : ∀ o, (contendedState.play.zone o).id = none ∧
    (contendedState.play.zone o).survey = false ∧ ((contendedState.play.zone o).queue.map (·.id)).Nodup ∧
      ∀ en ∈ (contendedState.play.zone o).queue, en.origin = .evac := by
  decide +kernel

/-- The output with a zone plays before RUNNING, with nothing to stop. -/
theorem contendedState_sounds : contendedState.play.evl.active = false ∧
    (contendedState.play.zone 2).queue.any Entry.sounding = true ∧
    (contendedState.play.zone 2).queue.any Entry.isStopping = false := by
  decide +kernel

/-- After the header read its entry is to stop. -/
theorem contendedState_running_stops :
    ((contendedState.settleHeader none).finish.play.zone 2).queue.any Entry.isStopping = true := by
  decide +kernel

/-- Refutes O18: entry to RUNNING changes the queue of an output given a zone, with evacuation released, where the
channel freed by another output's drop sets off a theft. -/
theorem not_loadingSettles : ¬ Obligations.LoadingSettles := by
  unfold Obligations.LoadingSettles
  intro h
  obtain ⟨hreleased, hsounds, hnone⟩ := contendedState_sounds
  obtain ⟨t, ht, _, _, _, houts⟩ := h.2 contendedState (.headerReadComplete none) (alertImage .created) 0 rfl rfl rfl
    contendedState_zones (.inr ⟨rfl, rfl, none, rfl⟩)
  obtain ⟨hzone, _⟩ := houts 2 true hsounds.symm
  obtain ⟨_, _, hqueue, _⟩ := hzone alertZone (by decide)
  have hstops := contendedState_running_stops
  rw [Host.Outcome.next.inj ht, hqueue hreleased, hnone] at hstops
  cases hstops

end Sys2Proof.Machine
end

section
/-! PROOFS. Obligations O8 to O11: what the Level Controller computes is what R142, R144, R146 to R148 and R151 say, the
level code and the gain table as real numbers. -/
namespace Sys2Proof.Machine

/-! ### Powers of ten with a fraction for exponent -/

/-- The n-th power of a negative fractional power of ten. -/
theorem ten_rpow_pow_mul (d : Nat) {n : Nat} (hn : n ≠ 0) : ((10 : ℝ) ^ (-(d : ℝ) / n)) ^ n * 10 ^ d = 1 := by
  have hcancel : -(d : ℝ) / n * n = -(d : ℝ) := div_mul_cancel₀ _ (Nat.cast_ne_zero.mpr hn)
  rw [← Real.rpow_mul_natCast (by norm_num), hcancel, Real.rpow_neg (by norm_num), Real.rpow_natCast]
  exact inv_mul_cancel₀ (by positivity)

/-- A bound from below, raised to the n-th power. -/
theorem mul_ten_rpow_le_iff {a b : ℝ} (ha : 0 ≤ a) (hb : 0 ≤ b) (d : Nat) {n : Nat} (hn : n ≠ 0) :
    a * (10 : ℝ) ^ (-(d : ℝ) / n) ≤ b ↔ a ^ n ≤ b ^ n * 10 ^ d := by
  rw [← pow_le_pow_iff_left₀ (by positivity) hb hn, mul_pow, ← mul_le_mul_iff_left₀ (show (0 : ℝ) < 10 ^ d by positivity),
    mul_assoc, ten_rpow_pow_mul d hn, mul_one]

/-- A bound from above, raised to the n-th power. -/
theorem le_mul_ten_rpow_iff {a b : ℝ} (ha : 0 ≤ a) (hb : 0 ≤ b) (d : Nat) {n : Nat} (hn : n ≠ 0) :
    b ≤ a * (10 : ℝ) ^ (-(d : ℝ) / n) ↔ b ^ n * 10 ^ d ≤ a ^ n := by
  rw [← pow_le_pow_iff_left₀ hb (by positivity) hn, mul_pow, ← mul_le_mul_iff_left₀ (show (0 : ℝ) < 10 ^ d by positivity),
    mul_assoc, ten_rpow_pow_mul d hn, mul_one]

/-! ### The level code (R142) -/

/-- The exact integer test is the comparison of R142 with the threshold of a level code. -/
theorem levelAtLeast_iff {sum k : Nat} (hk : k ≤ 240) :
    levelAtLeast sum k = true ↔ (1073741824 : ℝ) * (10 : ℝ) ^ (((k : ℝ) - 240) / 20) ≤ (sum : ℝ) / 2048 := by
  have hexp : ((k : ℝ) - 240) / 20 = -((240 - k : Nat) : ℝ) / (20 : Nat) := by
    push_cast [Nat.cast_sub hk]
    ring
  have hscale : (1073741824 : ℝ) ^ 20 * 2048 ^ 20 = 2 ^ 820 := by
    rw [show (1073741824 : ℝ) = 2 ^ 30 by norm_num, show (2048 : ℝ) = 2 ^ 11 by norm_num, ← pow_mul, ← pow_mul, ← pow_add]
  rw [hexp, mul_ten_rpow_le_iff (by norm_num) (by positivity) _ (by norm_num), div_pow, div_mul_eq_mul_div,
    le_div_iff₀ (by positivity), hscale, levelAtLeast, decide_eq_true_iff]
  exact_mod_cast Iff.rfl

theorem levelUpTo_le (sum n : Nat) : levelUpTo sum n ≤ n := by
  induction n with
  | zero => exact Nat.le_refl 0
  | succ n ih =>
    unfold levelUpTo
    split
    · exact Nat.le_refl _
    · exact ih.trans (Nat.le_succ n)

/-- The code found is 0, or its threshold is reached. -/
theorem levelUpTo_reached (sum n : Nat) : levelUpTo sum n = 0 ∨ levelAtLeast sum (levelUpTo sum n) = true := by
  induction n with
  | zero => exact .inl rfl
  | succ n ih =>
    unfold levelUpTo
    split
    · next h => exact .inr h
    · exact ih

/-- No threshold between the code found and the bound of the search is reached. -/
theorem levelUpTo_maximal {sum n k : Nat} (hlow : levelUpTo sum n < k) (hhigh : k ≤ n) : levelAtLeast sum k = false := by
  induction n with
  | zero => exact absurd hlow (by omega)
  | succ n ih =>
    unfold levelUpTo at hlow
    split at hlow
    · omega
    · next h =>
      rcases Nat.lt_or_eq_of_le hhigh with hlt | rfl
      · exact ih hlow (Nat.lt_succ_iff.mp hlt)
      · exact Bool.eq_false_of_not_eq_true h

/-- Silence reaches no threshold. -/
theorem levelAtLeast_zero (k : Nat) : levelAtLeast 0 k = false := by
  rw [levelAtLeast, zero_pow (by norm_num), Nat.zero_mul]
  exact decide_eq_false (Nat.not_le.mpr (by positivity))

/-- Settles O8: the search finds the largest code whose threshold is reached, and its test is that of R142. -/
theorem levelIsExact : Obligations.LevelIsExact := by
  intro sum
  have hbound : levelCode sum ≤ 240 := levelUpTo_le sum 240
  have hreached : levelCode sum = 0 ∨ levelAtLeast sum (levelCode sum) = true := levelUpTo_reached sum 240
  refine ⟨hbound, ?_, hreached.imp_right (levelAtLeast_iff hbound).mp, fun k hlow hhigh => ?_⟩
  · rintro rfl
    exact hreached.resolve_right (by rw [levelAtLeast_zero]; exact Bool.false_ne_true)
  · have hnot : levelAtLeast sum k = false := levelUpTo_maximal hlow hhigh
    exact not_le.mp fun h => by simp [(levelAtLeast_iff hhigh).mpr h] at hnot

/-! ### The noise estimate (R144) -/

/-- Settles O9: the two branches of the estimate are the two signs of D. -/
theorem noiseFollowsLevel : Obligations.NoiseFollowsLevel := by
  intro n16 l hn16 hl
  have hwhole : (wholeNoise n16 : Int) = (n16 : Int) / 16 ∧ wholeNoise n16 ≤ 240 := by
    unfold wholeNoise
    omega
  rcases le_or_gt n16 (16 * l) with hup | hdown
  · have hafter : noiseAfter n16 l = n16 + (16 * l - n16) / 4 := if_pos hup
    rw [hafter]
    omega
  · have hafter : noiseAfter n16 l = n16 - (n16 - 16 * l + 32 - 1) / 32 := if_neg (Nat.not_le.mpr hdown)
    rw [hafter]
    omega

/-! ### The target (R146 to R148) -/

/-- The cap lies within the zone's limits (R147). -/
theorem upperCap_mem {z : ZoneCfg} (h : z.gmin ≤ z.gmax) (cls : AnnClass) (quiet : Bool) :
    z.gmin ≤ upperCap z cls quiet ∧ upperCap z cls quiet ≤ z.gmax := by
  unfold upperCap
  split <;> omega

theorem upperCap_evac (z : ZoneCfg) (quiet : Bool) : upperCap z .evac quiet = z.gmax := by simp [upperCap]

/-- The clamp of two natural limits is itself natural. -/
theorem clampInt_toNat (lo hi : Nat) (x : Int) : ((clampInt lo hi x).toNat : Int) = max (lo : Int) (min (hi : Int) x) :=
  Int.toNat_of_nonneg (le_max_of_le_left (Int.natCast_nonneg lo))

/-- The target of a class other than EVAC is the clamp of R148. -/
theorem gainTarget_of_ne_evac (i : Image) (z : ZoneCfg) {cls : AnnClass} (noise : Nat) (offset : Int) (quiet : Bool)
    (h : cls ≠ .evac) : (gainTarget i z cls noise offset quiet : Int) =
      max (z.gmin : Int) (min (upperCap z cls quiet : Int) (requiredLevel i z cls noise offset)) := by
  unfold gainTarget
  rw [if_neg h, clampInt_toNat]

/-- The target of EVAC is the clamp to the zone's limits, raised to the evacuation floor (R148). -/
theorem gainTarget_evac (i : Image) (z : ZoneCfg) (noise : Nat) (offset : Int) (quiet : Bool) :
    (gainTarget i z .evac noise offset quiet : Int) =
      max (max (z.gmin : Int) (min (z.gmax : Int) (requiredLevel i z .evac noise offset))) (min (i.fevac : Int) z.gmax) := by
  unfold gainTarget
  rw [if_pos rfl, upperCap_evac]
  push_cast
  rw [clampInt_toNat]

theorem gainTarget_mem (i : Image) {z : ZoneCfg} (h : z.gmin ≤ z.gmax) (cls : AnnClass) (noise : Nat) (offset : Int)
    (quiet : Bool) :
    z.gmin ≤ gainTarget i z cls noise offset quiet ∧ gainTarget i z cls noise offset quiet ≤ z.gmax := by
  obtain ⟨hlow, hhigh⟩ := upperCap_mem h cls quiet
  by_cases hcls : cls = .evac
  · subst hcls
    have htarget := gainTarget_evac i z noise offset quiet
    omega
  · have htarget := gainTarget_of_ne_evac i z noise offset quiet hcls
    omega

/-- The gain computation of an owned zone (R145, R149). -/
theorem Play.computeGain_owned {e : Env} {o : Out} {i : Image} {z : ZoneCfg} (hi : e.image = some i)
    (hz : e.zoneCfg o = some z) (cls : AnnClass) (fromIdle : Bool) (p : Play) {t : Nat}
    (ht : t = gainTarget i z cls (wholeNoise (p.levelAt o).n16) (p.surveyAt o).offset e.quiet) :
    p.computeGain e o cls fromIdle =
      p.onLevel o fun l => { l with gain := if fromIdle then t else slewGain l.gain t i.slew, target := some t } := by
  subst ht
  unfold Play.computeGain
  rw [hi, hz]

/-- Settles O10: the clamp of R148 by its two cases, stored by the gain computation. -/
theorem targetInRange : Obligations.TargetInRange := by
  intro i z cls noise offset quiet h
  refine ⟨gainTarget_mem i h cls noise offset quiet, rfl, gainTarget_of_ne_evac i z noise offset quiet, ?_, ?_⟩
  · rintro rfl
    exact gainTarget_evac i z noise offset quiet
  · intro e o fromIdle p hi hz
    rw [Play.computeGain_owned hi hz cls fromIdle p rfl, Play.onLevel_levelAt_self]

/-! ### The gain table (R151) -/

/-- The exact integer test is the rounding of R151. -/
theorem gainEntryFits_iff {g : Nat} (hg : g ≤ 200) (k : Nat) :
    gainEntryFits g k = true ↔ (k : ℝ) - 1 / 2 ≤ 32767 * (10 : ℝ) ^ (((g : ℝ) - 200) / 40) := by
  have hexp : ((g : ℝ) - 200) / 40 = -((200 - g : Nat) : ℝ) / (40 : Nat) := by
    push_cast [Nat.cast_sub hg]
    ring
  rw [gainEntryFits, decide_eq_true_iff]
  cases k with
  | zero =>
    have hentry : (0 : ℝ) ≤ 32767 * (10 : ℝ) ^ (((g : ℝ) - 200) / 40) := by positivity
    simp only [Nat.mul_zero, Nat.zero_sub, Nat.cast_zero, ne_eq, OfNat.ofNat_ne_zero, not_false_eq_true, zero_pow,
      Nat.zero_mul, Nat.zero_le, true_iff]
    linarith
  | succ k =>
    have hhalf : ((k + 1 : Nat) : ℝ) - 1 / 2 = (2 * k + 1 : Nat) / 2 := by
      push_cast
      ring
    have hscale : (32767 : ℝ) ^ 40 * 2 ^ 40 = 65534 ^ 40 := by norm_num
    rw [hexp, hhalf, le_mul_ten_rpow_iff (by norm_num) (by positivity) _ (by norm_num), div_pow, div_mul_eq_mul_div,
      div_le_iff₀ (by positivity), hscale]
    exact_mod_cast Iff.rfl

/-- The powers of two below 2 ^ n, the greatest first. -/
def bitsBelow : Nat → List Nat
  | 0 => []
  | n + 1 => 2 ^ n :: bitsBelow n

/-- A search bit by bit ends at the last value that passes, where those above it pass no more. -/
theorem bitSearch_exact {fits : Nat → Bool} {n k : Nat} (hlow : fits k = true) (hhigh : fits (k + 2 ^ n) = false) :
    ∃ m, (bitsBelow n).foldl (fun k b => if fits (k + b) then k + b else k) k = m ∧ fits m = true ∧
      fits (m + 1) = false := by
  induction n generalizing k with
  | zero => exact ⟨k, rfl, hlow, hhigh⟩
  | succ n ih =>
    rw [bitsBelow, List.foldl_cons]
    split
    · next h =>
      refine ih h ?_
      rwa [Nat.add_assoc, ← Nat.two_mul, ← Nat.pow_succ']
    · next h => exact ih hlow (Bool.eq_false_of_not_eq_true h)

/-- The table entry passes the test and its successor does not. -/
theorem gainEntry_exact (g : Nat) : gainEntryFits g (gainEntry g) = true ∧ gainEntryFits g (gainEntry g + 1) = false := by
  have hlow : gainEntryFits g 0 = true := decide_eq_true (by simp)
  have hhigh : gainEntryFits g (0 + 2 ^ 15) = false := decide_eq_false <| Nat.not_le.mpr <|
    lt_of_lt_of_le (by norm_num) (Nat.le_mul_of_pos_right _ (by positivity))
  obtain ⟨m, hm, hexact⟩ := bitSearch_exact hlow hhigh
  have hentry : gainEntry g = m := hm
  rwa [hentry]

/-- Settles O11: the entry passes the test of R151 and its successor does not; the saturation is the clamp. -/
theorem gainTableIsExact : Obligations.GainTableIsExact := by
  intro g hg
  obtain ⟨hfits, hnext⟩ := gainEntry_exact g
  refine ⟨(gainEntryFits_iff hg _).mp hfits, not_le.mp fun h => ?_, fun x => rfl⟩
  have hfitsNext : gainEntryFits g (gainEntry g + 1) = true := (gainEntryFits_iff hg _).mpr (by push_cast; linarith)
  exact Bool.false_ne_true (hnext.symm.trans hfitsNext)

end Sys2Proof.Machine
end

section
/-! PROOFS. Obligation O51: the gain applied at a start and at a boundary, and what an output carries (R83, R147, R149 to
R152). -/
namespace Sys2Proof.Machine

/-! ### The gain computation (R149, R152) -/

/-- A gain that slews moves toward the target by the clamp of R149. -/
theorem slewGain_eq (prev target slew : Nat) :
    (slewGain prev target slew : Int) = prev + clampInt (-(slew : Int)) slew ((target : Int) - prev) := by
  unfold slewGain clampInt
  split <;> omega

section gain
variable {e : Env} {o : Out} (cls : AnnClass) (idle : Bool) (p : Play)

/-- Without a configured zone nothing is computed (R152). -/
theorem Play.computeGain_unowned (hz : e.zoneCfg o = none) : p.computeGain e o cls idle = p := by
  unfold Play.computeGain
  split
  · next hsome => exact absurd (hz.symm.trans hsome) (by nofun)
  · rfl

theorem Play.gainAtStart_owned {z : ZoneCfg} (hz : e.zoneCfg o = some z) : p.gainAtStart e o cls idle =
    (p.onLevel o fun l => { l with curve := (p.surveyAt o).curve }).computeGain e o cls idle := by
  unfold Play.gainAtStart
  rw [hz]

theorem Play.gainAtStart_unowned (hz : e.zoneCfg o = none) : p.gainAtStart e o cls idle =
    p.onLevel o fun l => { l with gain := 180, curve := 0, target := none } := by
  unfold Play.gainAtStart
  rw [hz]

/-- A start latches the curve in force and takes the gain computed without it (R149, R150). -/
theorem Play.gainAtStart_level {i : Image} {z : ZoneCfg} (hi : e.image = some i) (hz : e.zoneCfg o = some z) :
    ((p.gainAtStart e o cls idle).levelAt o).curve = (p.surveyAt o).curve ∧
      ((p.gainAtStart e o cls idle).levelAt o).gain = ((p.computeGain e o cls idle).levelAt o).gain := by
  rw [Play.gainAtStart_owned cls idle p hz, Play.computeGain_level o cls idle _ hi hz,
    Play.computeGain_level o cls idle p hi hz, Play.onLevel_levelAt_self]
  exact ⟨rfl, rfl⟩

end gain

/-! ### What an output carries (R150, R151) -/

theorem Play.carry_zero_out (o : Out) (p : Play) : ((p.carry o .zero).levelAt o).out = .zero :=
  congrArg Level.out (p.onLevel_levelAt_self o _)

theorem Play.carry_audio_out (o : Out) (samples : List Int) (p : Play) :
    ((p.carry o (.audio samples)).levelAt o).out = .audio ((shapeSamples p.lvc.shapings (p.levelAt o).curve samples).map
      (scaleSample (gainEntry (p.levelAt o).gain))) :=
  congrArg Level.out (upd_get_self p.lvc.outs o _)

theorem shapeSamples_length (use curve : Nat) (block : List Int) :
    (shapeSamples use curve block).length = block.length := by
  rw [shapeSamples, List.length_map, List.length_range]

/-- What the shaping stage gives lies within the range of a sample, whatever its free value is (log entry 4). -/
theorem shapeSamples_mem {use curve : Nat} {block : List Int} {x : Int} (h : x ∈ shapeSamples use curve block) :
    -32768 ≤ x ∧ x ≤ 32767 := by
  obtain ⟨i, _, rfl⟩ := List.mem_map.mp h
  unfold clampInt
  omega

/-! ### The level values of an item that starts (R83, R131) -/

section starting
variable {e : Env} {p q : Play} {ch : Chan} {id : AnnId} {o : Out} {en : Entry}

/-- The gain computation reads and changes the level values and reads the surveys, of all blocks. -/
theorem Play.computeGain_lvc_congr (hlvc : q.lvc = p.lvc) (hvsu : q.vsu = p.vsu) (cls : AnnClass) (idle : Bool) :
    (q.computeGain e o cls idle).lvc = (p.computeGain e o cls idle).lvc := by
  unfold Play.computeGain
  split
  · simp only [Play.onLevel_lvc, Play.levelAt, Play.surveyAt, hlvc, hvsu]
  · exact hlvc

theorem Play.gainAtStart_lvc_congr (hlvc : q.lvc = p.lvc) (hvsu : q.vsu = p.vsu) (cls : AnnClass) (idle : Bool) :
    (q.gainAtStart e o cls idle).lvc = (p.gainAtStart e o cls idle).lvc := by
  unfold Play.gainAtStart
  split
  · refine Play.computeGain_lvc_congr ?_ ?_ cls idle
    · simp only [Play.onLevel_lvc, Play.surveyAt, hlvc, hvsu]
    · exact hvsu
  · simp only [Play.onLevel_lvc, hlvc]

theorem Play.carry_lvc_congr (hlvc : q.lvc = p.lvc) (b : Block) : (q.carry o b).lvc = (p.carry o b).lvc := by
  unfold Play.carry
  split <;> simp only [Play.onLevel_lvc, hlvc]

/-- A start is back-to-back where another entry of the zone ended or stopped at the boundary standing now (R83). -/
theorem Zone.backToBack_eq_true {z : Zone} {m : StopMark} (hstop : z.lastStop = some m) (hnow : m.elapsed = e.elapsed)
    (hother : m.order ≠ en.order) : z.backToBack e en = true := by
  simp [Zone.backToBack, hstop, hnow, hother]

theorem Zone.backToBack_eq_false {z : Zone} (h : ∀ m, z.lastStop = some m → m.elapsed = e.elapsed → m.order = en.order) :
    z.backToBack e en = false := by
  unfold Zone.backToBack
  cases hstop : z.lastStop with
  | none => rfl
  | some m => simpa using h m hstop

/-- A member that starts takes the gain of R149, its entry's change of state beside. -/
theorem Play.memberStart_lvc {c : Channel} (hserved : c.served = some (.body id))
    (hfind : (p.zone o).queue.find? (fun x => x.id = id) = some en) (hstate : en.state = .starting) :
    (p.memberStart e c o).lvc = (p.gainAtStart e o en.cls (!(p.zone o).backToBack e en)).lvc := by
  have hback : ∀ f : Entry → Entry, ((p.onEntry o en.id f).zone o).backToBack e en = (p.zone o).backToBack e en :=
    fun f => by rw [Play.onEntry_zone_self]; rfl
  unfold Play.memberStart
  simp only [(Play.fedEntry_of_served hserved).trans hfind, hstate, if_true, hback]
  generalize hq : Play.tellEntry en .playing _ = q
  have hblocks : q.lvc = p.lvc ∧ q.vsu = p.vsu := by
    rw [← hq]
    unfold Play.tellEntry
    split <;> exact ⟨rfl, rfl⟩
  exact Play.gainAtStart_lvc_congr hblocks.1 hblocks.2 _ _

/-- The level values that the start of a channel of one member leaves: those of the member's start, and its first block
carried. -/
theorem Play.channelStart_lvc {b : Block} (hdue : p.startDue e ch = true)
    (hserved : (p.chan ch).served = some (.body id)) (hnext : (p.chan ch).next = some b)
    (hmembers : outsOf (p.chan ch).members = [o]) :
    (p.channelStart e ch).lvc = (((p.takeBoundary e).memberStart e (p.chan ch) o).carry o b).lvc := by
  have hchan : (p.takeBoundary e).chan ch = p.chan ch := rfl
  unfold Play.channelStart
  rw [hdue, Bool.not_true, if_neg Bool.false_ne_true]
  dsimp only
  rw [hchan, hserved]
  dsimp only
  rw [hnext, Option.getD_some, hmembers, List.foldl_cons, List.foldl_nil]
  generalize Play.halfBegun _ _ = half
  rw [Play.pump_blocks]
  dsimp only
  unfold Play.carryAll
  rw [hmembers, List.foldl_cons, List.foldl_nil]
  refine Play.carry_lvc_congr ?_ b
  rfl

end starting

/-- The level values after a start: the member's gain by whether the start is back-to-back, and its first block (R83,
R149). -/
theorem exec_channelStart_lvc {s : State} {ch : Chan} {id : AnnId} {o : Out} {en : Entry} {b : Block}
    (hdue : s.play.startDue s.env ch = true) (hserved : (s.play.chan ch).served = some (.body id))
    (hnext : (s.play.chan ch).next = some b) (hmembers : outsOf (s.play.chan ch).members = [o])
    (hfind : (s.play.zone o).queue.find? (fun x => x.id = id) = some en) (hstate : en.state = .starting) :
    (s.onPlay fun e p => p.channelStart e ch).finishBoundary.play.lvc =
      ((s.play.gainAtStart s.env o en.cls (!(s.play.zone o).backToBack s.env en)).carry o b).lvc := by
  have hmember := Play.memberStart_lvc (e := s.env) (p := s.play.takeBoundary s.env) hserved hfind hstate
  have hboundary : ∀ idle, ((s.play.takeBoundary s.env).gainAtStart s.env o en.cls idle).lvc =
      (s.play.gainAtStart s.env o en.cls idle).lvc :=
    Play.gainAtStart_lvc_congr (p := s.play) (q := s.play.takeBoundary s.env) rfl rfl en.cls
  calc (s.onPlay fun e p => p.channelStart e ch).finishBoundary.play.lvc
      = (s.play.channelStart s.env ch).lvc := Play.finishBoundary_lvc s.env _
    _ = _ := Play.channelStart_lvc hdue hserved hnext hmembers
    _ = _ := Play.carry_lvc_congr (hmember.trans (hboundary _)) b

/-- Settles O51: the gain computation and the start by whether the zone is configured, the block by its kind, and the
start of an item by whether it is back-to-back. -/
theorem gainApplied : Obligations.GainApplied := by
  unfold Obligations.GainApplied
  refine ⟨fun z cls quiet _ => ⟨?_, ?_⟩, fun e o cls p => ⟨?_, ?_⟩, fun o p => ⟨p.carry_zero_out o, fun samples => ?_⟩, ?_⟩
  · rintro ⟨hcls, rfl⟩
    exact if_pos (by simpa using hcls)
  · intro h
    exact if_neg (by simpa [and_comm] using h)
  · intro i z t hi hz ht
    exact ⟨Play.computeGain_owned hi hz cls true p ht,
      ⟨_, Play.computeGain_owned hi hz cls false p ht, slewGain_eq _ _ _⟩,
      fun idle => Play.gainAtStart_level cls idle p hi hz⟩
  · intro hz
    exact ⟨p.computeGain_unowned cls true hz, p.computeGain_unowned cls false hz,
      fun idle => p.gainAtStart_unowned cls idle hz⟩
  · exact ⟨_, shapeSamples_length _ _ samples, fun _ => shapeSamples_mem, p.carry_audio_out o samples,
      (p.carry_only o (.audio samples)).2.1⟩
  · intro s ch id o en b hmultiple hpast hserved hstate hcls hboundary hnext hmembers hfind hstarting
    have hdue := Play.startDue_of_granted (e := s.env) hstate hmultiple hpast hboundary hcls
    have hlvc := exec_channelStart_lvc hdue hserved hnext hmembers hfind hstarting
    refine ⟨_, exec_channelStart ch s, fun hstop => ?_, fun m hstop hnow hother => ?_⟩
    · rw [hlvc, Zone.backToBack_eq_false (e := s.env) hstop, Bool.not_false]
    · rw [hlvc, Zone.backToBack_eq_true (e := s.env) hstop hnow hother, Bool.not_true]

end Sys2Proof.Machine
end

section
/-! PROOFS. What the meter holds of an output, the operations of the blocks of `Play`: none of them changes it (R140, R141,
R143). -/
namespace Sys2Proof.Machine

/-! ### Readings -/

/-- What the meter holds of an output: its accumulator, the last level code, and whether the window now running is
eligible (R140, R141, R143). -/
def Level.reading (l : Level) : Nat × Nat × Nat × Bool := (l.accSum, l.accCount, l.last, l.spoiled)

/-- What the meter holds of every output. -/
def Play.readings (p : Play) : Vector (Nat × Nat × Nat × Bool) 8 := p.lvc.outs.map Level.reading

section readings
variable {p q : Play}

theorem Play.readings_get (p : Play) (o : Out) : p.readings.get o = (p.levelAt o).reading := by
  exact Vector.getElem_map Level.reading o.isLt

theorem Play.readings_of_lvc (h : q.lvc = p.lvc) : q.readings = p.readings := by rw [Play.readings, h, Play.readings]

/-- Level values that change elsewhere leave what the meter holds. -/
theorem Play.readings_of_levels (h : ∀ o, (q.levelAt o).reading = (p.levelAt o).reading) : q.readings = p.readings := by
  apply Vector.ext
  intro i hi
  have ho := h ⟨i, hi⟩
  rw [← Play.readings_get, ← Play.readings_get] at ho
  exact ho

theorem Play.readings_of_level {o : Out} (h : p.OnlyLevel o q) (ho : (q.levelAt o).reading = (p.levelAt o).reading) :
    q.readings = p.readings := by
  refine Play.readings_of_levels fun k => ?_
  by_cases hk : k = o
  · rw [hk, ho]
  · rw [h.2.1 k hk]

@[simp] theorem Play.readings_ite (c : Prop) [Decidable c] (p q : Play) :
    (if c then p else q).readings = if c then p.readings else q.readings := apply_ite _ _ _ _

@[simp] theorem Play.foldl_readings {α : Type} {f : Play → α → Play} (hf : ∀ q a, (f q a).readings = q.readings)
    (l : List α) (p : Play) : (l.foldl f p).readings = p.readings :=
  List.foldlRecOn (motive := fun q : Play => q.readings = p.readings) l f rfl fun q hq a _ => (hf q a).trans hq

end readings

section operations
variable (e : Env) (o : Out) (en : Entry) (p : Play)

/-! ### Other blocks -/

@[simp] theorem Play.onNet_readings (f : Net → Net) : (p.onNet f).readings = p.readings := rfl
@[simp] theorem Play.onZone_readings (f : Zone → Zone) : (p.onZone o f).readings = p.readings := rfl
@[simp] theorem Play.onEntry_readings (id : AnnId) (f : Entry → Entry) : (p.onEntry o id f).readings = p.readings := rfl
@[simp] theorem Play.onLine_readings (f : Line → Line) : (p.onLine o f).readings = p.readings := rfl
@[simp] theorem Play.onSurvey_readings (f : Survey → Survey) : (p.onSurvey o f).readings = p.readings := rfl
@[simp] theorem Play.onWork_readings (f : SurveyWork → SurveyWork) : (p.onWork o f).readings = p.readings := rfl
@[simp] theorem Play.onChan_readings (ch : Chan) (f : Channel → Channel) : (p.onChan ch f).readings = p.readings := rfl
@[simp] theorem Play.onCfu_readings (f : Clips → Clips) : (p.onCfu f).readings = p.readings := rfl
@[simp] theorem Play.onCmu_readings (f : Composition → Composition) : (p.onCmu f).readings = p.readings := rfl
@[simp] theorem Play.onEvl_readings (f : Evac → Evac) : (p.onEvl f).readings = p.readings := rfl
@[simp] theorem Play.onLsu_readings (f : Supervision → Supervision) : (p.onLsu f).readings = p.readings := rfl
@[simp] theorem Play.onCmuCounts_readings (f : CmuCounts → CmuCounts) : (p.onCmuCounts f).readings = p.readings := rfl
@[simp] theorem Play.onPauCounts_readings (f : PauCounts → PauCounts) : (p.onPauCounts f).readings = p.readings := rfl
@[simp] theorem Play.onSurveyCounts_readings (f : SurveyCounts → SurveyCounts) :
    (p.onSurveyCounts f).readings = p.readings := rfl
@[simp] theorem Play.takeBoundary_readings : (p.takeBoundary e).readings = p.readings := rfl
@[simp] theorem Play.fault_readings (k : FaultKind) (source : Nat) : (p.fault e k source).readings = p.readings := rfl
@[simp] theorem Play.countDrop_readings (r : DropReason) : (p.countDrop r).readings = p.readings := rfl
@[simp] theorem Play.readDone_readings (ch : Chan) : (p.readDone ch).readings = p.readings := rfl

/-! ### Channels and starts (R82, R83, R129 to R137) -/

theorem Play.SameBesideChannels.readings {p q : Play} (h : p.SameBesideChannels q) : q.readings = p.readings :=
  Play.readings_of_lvc h.2.2.1

@[simp] theorem Play.pump_readings (ch : Chan) : (p.pump ch).readings = p.readings := (p.pump_sameBeside ch).readings
@[simp] theorem Play.grantPort_readings : p.grantPort.readings = p.readings := p.grantPort_sameBeside.readings
@[simp] theorem Play.requestChan_readings (cls : AnnClass) (s : Served) : (p.requestChan o cls s).readings = p.readings :=
  (p.requestChan_sameBeside o cls s).readings
@[simp] theorem Play.leaveChan_readings (ch : Chan) : (p.leaveChan o ch).readings = p.readings :=
  (p.leaveChan_sameBeside o ch).readings
@[simp] theorem Play.withdrawRequest_readings (s : Served) : (p.withdrawRequest o s).readings = p.readings :=
  (p.withdrawRequest_sameBeside o s).readings
@[simp] theorem Play.askChannel_readings : (p.askChannel e o en).readings = p.readings :=
  (p.askChannel_sameBeside e o en).readings
@[simp] theorem Play.startHead_readings : (p.startHead e o).readings = p.readings := (p.startHead_sameBeside e o).readings
@[simp] theorem Play.unstart_readings : (p.unstart o).readings = p.readings := (p.unstart_sameBeside o).readings

@[simp] theorem Play.syncStart_readings (id : AnnId) : (p.syncStart e id).readings = p.readings := by
  refine Play.foldl_readings (fun q o => ?_) _ p
  split <;> simp

@[simp] theorem Play.countRead_readings (result : Option (List Int)) : (p.countRead result).readings = p.readings := by
  simp [Play.countRead]

@[simp] theorem Play.underrunFaults_readings (c : Channel) : (p.underrunFaults e c).readings = p.readings :=
  Play.foldl_readings (fun q k => q.fault_readings e .underrun (e.faultSource k)) _ p

@[simp] theorem Play.blockRead_readings (result : Option (List Int)) : (p.blockRead e result).readings = p.readings := by
  unfold Play.blockRead
  split <;> simp

@[simp] theorem Play.directoryRead_readings (result : Option DirEntry) :
    (p.directoryRead e result).readings = p.readings := by
  unfold Play.directoryRead
  split <;> simp

/-! ### Levels (R143, R145 to R152) -/

/-- A change of the level values of one output that leaves its reading. -/
theorem Play.onLevel_readings {f : Level → Level} (hf : ∀ l, (f l).reading = l.reading) :
    (p.onLevel o f).readings = p.readings :=
  Play.readings_of_level (p.onLevel_only o f) (by rw [Play.onLevel_levelAt_self, hf])

@[simp] theorem Play.discard_readings : (p.onLevel o fun l => { l with discard := true }).readings = p.readings :=
  p.onLevel_readings o fun _ => rfl

@[simp] theorem Play.fallSilent_readings : (p.fallSilent e o).readings = p.readings := p.onLevel_readings o fun _ => rfl

@[simp] theorem Play.carry_readings (b : Block) : (p.carry o b).readings = p.readings := by
  unfold Play.carry
  split
  · exact p.onLevel_readings o fun _ => rfl
  · exact Play.onLevel_readings o _ fun _ => rfl

@[simp] theorem Play.carryAll_readings (c : Channel) (b : Block) : (p.carryAll c b).readings = p.readings := by
  simp [Play.carryAll]

@[simp] theorem Play.computeGain_readings (cls : AnnClass) (idle : Bool) :
    (p.computeGain e o cls idle).readings = p.readings := by
  unfold Play.computeGain
  split
  · exact p.onLevel_readings o fun _ => rfl
  · rfl

@[simp] theorem Play.gainAtStart_readings (cls : AnnClass) (idle : Bool) :
    (p.gainAtStart e o cls idle).readings = p.readings := by
  unfold Play.gainAtStart
  split
  · exact (Play.computeGain_readings e o _ cls idle).trans (p.onLevel_readings o fun _ => rfl)
  · exact p.onLevel_readings o fun _ => rfl

@[simp] theorem Play.gainAtProbe_readings (curve : Nat) : (p.gainAtProbe e o curve).readings = p.readings := by
  unfold Play.gainAtProbe
  split
  · exact p.onLevel_readings o fun _ => rfl
  · rfl

/-- A change of the level values of every output that leaves their readings. -/
theorem Play.mapLevels_readings {f : Out → Level → Level} (hf : ∀ k l, (f k l).reading = l.reading) :
    Play.readings { p with lvc := { p.lvc with outs := mapIdx p.lvc.outs f } } = p.readings :=
  Play.readings_of_levels fun k => by simp only [Play.levelAt, mapIdx_get, hf]

/-! ### Surveys (R163 to R168) -/

@[simp] theorem Play.releaseZone_readings : (p.releaseZone e o).readings = p.readings := by
  simp [Play.releaseZone]

@[simp] theorem Play.leaveProbe_readings : (p.leaveProbe o).readings = p.readings := by
  have hsilent : (p.onLevel o fun l => { l with out := .zero }).readings = p.readings :=
    p.onLevel_readings o fun _ => rfl
  unfold Play.leaveProbe
  dsimp only
  split <;> simp [hsilent]

@[simp] theorem Play.abortSurvey_readings (reason : AbortReason) : (p.abortSurvey e o reason).readings = p.readings := by
  unfold Play.abortSurvey
  dsimp only
  split
  · rfl
  · split <;> simp

@[simp] theorem Play.beginSurvey_readings (starter : SurveyStarter) :
    (p.beginSurvey e o starter).readings = p.readings := rfl

@[simp] theorem Play.enterProbe_readings (i : ProbeIndex) : (p.enterProbe e o i).readings = p.readings := by
  simp [Play.enterProbe]

@[simp] theorem Play.completeSurvey_readings : (p.completeSurvey e o).readings = p.readings := by
  unfold Play.completeSurvey
  dsimp only
  split
  · rfl
  · rw [Play.releaseZone_readings]
    split <;> rfl

@[simp] theorem Play.seekCandidate_readings : (p.seekCandidate e o).readings = p.readings := by
  unfold Play.seekCandidate
  dsimp only
  split
  · rfl
  · split <;> simp

@[simp] theorem Play.scoreProbe_readings (lt : Nat) : (p.scoreProbe e o lt).readings = p.readings := by
  unfold Play.scoreProbe
  dsimp only
  split <;> simp

@[simp] theorem Play.surveyWindow_readings (level : Nat) : (p.surveyWindow e o level).readings = p.readings := by
  unfold Play.surveyWindow
  dsimp only
  split
  · rfl
  · split
    · rfl
    · simp
    · simp
    · split <;> simp

@[simp] theorem Play.startProbe_readings : (p.startProbe e o).readings = p.readings := by
  unfold Play.startProbe
  dsimp only
  split <;> simp

@[simp] theorem Play.endProbe_readings : (p.endProbe e o).readings = p.readings := by
  unfold Play.endProbe
  dsimp only
  split <;> simp

@[simp] theorem Play.cutProbe_readings : (p.cutProbe e o).readings = p.readings := by
  simp [Play.cutProbe]

@[simp] theorem Play.attemptAuto_readings : (p.attemptAuto e o).readings = p.readings := by
  simp [Play.attemptAuto]

@[simp] theorem Play.refuseAuto_readings : (p.refuseAuto o).readings = p.readings := by
  simp [Play.refuseAuto]

@[simp] theorem Play.retryAuto_readings : (p.retryAuto e o).readings = p.readings := by
  simp [Play.retryAuto]

@[simp] theorem Play.surveySecond_readings : (p.surveySecond e).readings = p.readings := by
  unfold Play.surveySecond
  extract_lets minute due q
  have hq : q.readings = p.readings := Play.foldl_readings (fun r k => by simp) _ p
  exact hq

/-! ### Leaving and entering queues (R77 to R80, R94 to R100) -/

@[simp] theorem Play.addRef_readings : (p.addRef en).readings = p.readings := by
  unfold Play.addRef
  split
  · exact Play.readings_of_lvc rfl
  · exact Play.readings_of_lvc rfl

@[simp] theorem Play.releaseRef_readings : (p.releaseRef en).readings = p.readings := by
  obtain ⟨_, _, _, hlvc, _⟩ := p.releaseRef_frame en
  exact Play.readings_of_lvc hlvc

@[simp] theorem Play.tellEntry_readings (out : Outcome) : (p.tellEntry en out).readings = p.readings := by
  unfold Play.tellEntry
  split <;> rfl

@[simp] theorem Play.noteDrop_readings (r : DropReason) : (p.noteDrop en r).readings = p.readings := by
  simp [Play.noteDrop]

@[simp] theorem Play.noteDone_readings : (p.noteDone en).readings = p.readings :=
  Play.tellEntry_readings en _ .done

@[simp] theorem Play.takeOut_readings : (p.takeOut o en).readings = p.readings := by
  simp [Play.takeOut]

/-- A note of a leaving that leaves what the meter holds. -/
def KeepsReadings (note : Play → Play) : Prop := ∀ q, (note q).readings = q.readings

theorem Play.leaveWaiting_readings {note : Play → Play} (hnote : KeepsReadings note) :
    (p.leaveWaiting e o en note).readings = p.readings := by
  have h := hnote ((p.withdrawRequest o (.body en.id)).takeOut o en)
  simp [Play.leaveWaiting, h]

@[simp] theorem Play.dropWaiting_readings (r : DropReason) : (p.dropWaiting e o r en).readings = p.readings :=
  p.leaveWaiting_readings e o en fun q => q.noteDrop_readings en r

@[simp] theorem Play.headArrived_readings : (p.headArrived e o en).readings = p.readings := by
  unfold Play.headArrived
  split <;> simp

@[simp] theorem Play.enterZone_readings : (p.enterZone e o en).readings = p.readings := by
  simp [Play.enterZone]

theorem Play.settleOffer_readings {welcome : Play → Play} {refuse : DropReason → Play → Play}
    (hwelcome : KeepsReadings welcome) (hrefuse : ∀ r, KeepsReadings (refuse r)) :
    (p.settleOffer e o en welcome refuse).readings = p.readings := by
  rcases p.settleOffer_cases e o en welcome refuse with ⟨r, _, h⟩ | ⟨_, _, h⟩ | ⟨x, _, _, _, _, h⟩ <;> rw [h]
  · exact hrefuse r p
  · rw [Play.enterZone_readings, hwelcome]
  · rw [Play.enterZone_readings, hwelcome, Play.dropWaiting_readings]

@[simp] theorem Play.settleNew_readings : (p.settleNew e o en).readings = p.readings :=
  p.settleOffer_readings e o en (fun q => by simp) fun r q => q.noteDrop_readings en r

@[simp] theorem Play.redirect_readings : (p.redirect e o en).readings = p.readings := by
  unfold Play.redirect
  dsimp only
  split
  · exact p.settleOffer_readings e _ _ (fun q => by simp) fun _ q => q.noteDrop_readings en _
  · exact p.noteDrop_readings en _

@[simp] theorem Play.offer_readings : (p.offer e o en).readings = p.readings := by
  unfold Play.offer
  dsimp only
  split <;> simp

@[simp] theorem Play.moveAway_readings : (p.moveAway e o en).readings = p.readings := by
  unfold Play.moveAway
  dsimp only
  split
  · simp
  · split
    · refine (Play.settleOffer_readings e _ _ _ (fun _ => rfl) fun r q => ?_).trans (p.tellEntry_readings en _)
      simp
    · simp

/-! ### The evacuation body (R73, R171, R174, R175) -/

@[simp] theorem Play.fillEvac_readings : (p.fillEvac e).readings = p.readings := by
  unfold Play.fillEvac
  split <;> rfl

@[simp] theorem Play.offerEvac_readings : (p.offerEvac e o).readings = p.readings := by
  unfold Play.offerEvac
  split <;> simp

@[simp] theorem Play.reoffer_readings : (p.reoffer e o).readings = p.readings := by simp [Play.reoffer]

@[simp] theorem Play.offerGated_readings (l : List Out) : (p.offerGated e l).readings = p.readings := by
  simp [Play.offerGated]

@[simp] theorem Play.reofferAll_readings : (p.reofferAll e).readings = p.readings := by simp [Play.reofferAll]

@[simp] theorem Play.reofferRestart_readings : (p.reofferRestart e).readings = p.readings := by
  simp [Play.reofferRestart]

@[simp] theorem Play.recoverZone_readings : (p.recoverZone e o).readings = p.readings := by
  unfold Play.recoverZone
  dsimp only
  split
  · rw [Play.startHead_readings]
    split <;> simp
  · rfl

@[simp] theorem Play.holdZone_readings : (p.holdZone e o).readings = p.readings := by simp [Play.holdZone]

@[simp] theorem Play.assertEvac_readings : (p.assertEvac e).readings = p.readings := by
  unfold Play.assertEvac
  dsimp only
  split <;> simp

@[simp] theorem Play.endEvac_readings : (p.endEvac e o).readings = p.readings :=
  Play.foldl_readings (fun q x => q.leaveWaiting_readings e o x fun r => r.noteDone_readings x) _ p

@[simp] theorem Play.sweepEvac_readings : p.sweepEvac.readings = p.readings := by
  unfold Play.sweepEvac
  split
  · split <;> rfl
  · rfl

@[simp] theorem Play.releaseEvac_readings : (p.releaseEvac e).readings = p.readings := by
  have hmarks : ∀ q : Play, Play.readings
      { q with lvc := { q.lvc with outs := mapIdx q.lvc.outs fun _ l => { l with discard := true } } } = q.readings :=
    fun q => q.mapLevels_readings fun _ _ => rfl
  simp [Play.releaseEvac, hmarks]

/-! ### Boundaries (R83, R85 to R89, R131, R134, R137) -/

@[simp] theorem Play.afterStop_readings : (p.afterStop e o en).readings = p.readings := by simp [Play.afterStop]

@[simp] theorem Play.endDone_readings : (p.endDone e o en).readings = p.readings := by simp [Play.endDone]

@[simp] theorem Play.settleStop_readings (c : StopCause) : (p.settleStop e o en c).readings = p.readings := by
  unfold Play.settleStop
  dsimp only
  split <;> simp

@[simp] theorem Play.memberPass_readings (c : Channel) (whole : Bool) (seg pass : Nat) :
    (p.memberPass e c whole seg pass o).readings = p.readings := by
  unfold Play.memberPass
  dsimp only
  split
  · rfl
  · split <;> simp

@[simp] theorem Play.passEnd_readings (ch : Chan) : (p.passEnd e ch).readings = p.readings := by
  unfold Play.passEnd
  dsimp only
  split
  · rfl
  · split <;> simp

@[simp] theorem Play.memberStop_readings (c : Channel) : (p.memberStop e c o).readings = p.readings := by
  unfold Play.memberStop
  dsimp only
  split
  · rfl
  · split <;> simp

@[simp] theorem Play.stopPoint_readings (ch : Chan) : (p.stopPoint e ch).readings = p.readings := by
  simp [Play.stopPoint]

@[simp] theorem Play.blockAdvance_readings (ch : Chan) : (p.blockAdvance e ch).readings = p.readings := by
  unfold Play.blockAdvance
  dsimp only
  split
  · rfl
  · split <;> simp

@[simp] theorem Play.memberStart_readings (c : Channel) : (p.memberStart e c o).readings = p.readings := by
  unfold Play.memberStart
  dsimp only
  split <;> simp

@[simp] theorem Play.channelStart_readings (ch : Chan) : (p.channelStart e ch).readings = p.readings := by
  unfold Play.channelStart
  dsimp only
  split
  · rfl
  · split <;> simp

/-! ### Removals and faulted zones (R91, R93, R96 to R101, R118, R155, R158) -/

@[simp] theorem Play.removeIn_readings (sel : Entry → Bool) (r : DropReason) (stop : Bool) :
    (p.removeIn e sel r stop o).readings = p.readings := by simp [Play.removeIn]

@[simp] theorem Play.removeAll_readings (sel : Entry → Bool) (r : DropReason) (stop : Bool) :
    (p.removeAll e sel r stop).readings = p.readings := by simp [Play.removeAll]

@[simp] theorem Play.dropAllWaiting_readings (sel : Entry → Bool) (r : DropReason) :
    (p.dropAllWaiting e sel r).readings = p.readings := by simp [Play.dropAllWaiting]

@[simp] theorem Play.removeCalls_readings (sel : Option ServiceKey → Option (BitVec 8) → Bool) (stop : Bool) :
    (p.removeCalls e sel stop).readings = p.readings := by simp [Play.removeCalls]

@[simp] theorem Play.withdraw_readings (env : Envelope) (f : WithdrawFrame) :
    (p.withdraw e env f).readings = p.readings := by simp [Play.withdraw]

@[simp] theorem Play.faultZone_readings : (p.faultZone e o).readings = p.readings := by
  unfold Play.faultZone
  dsimp only
  split <;> simp

@[simp] theorem Play.statusChanged_readings : (p.statusChanged e o).readings = p.readings := by
  unfold Play.statusChanged
  dsimp only
  split <;> simp

@[simp] theorem Play.supervisionWord_readings (w : SupWord) : (p.supervisionWord e o w).readings = p.readings := by
  simp [Play.supervisionWord]

@[simp] theorem Play.endCycleAt_readings : (p.endCycleAt e o).readings = p.readings := by simp [Play.endCycleAt]

@[simp] theorem Play.cycleEnd_readings : (p.cycleEnd e).readings = p.readings := by simp [Play.cycleEnd]

/-! ### Entry to RUNNING and the soft restart (R103, R140, R152, R189, R191) -/

@[simp] theorem Play.startZone_readings : (p.startZone e o).readings = p.readings := by
  unfold Play.startZone
  split <;> simp

@[simp] theorem Play.startSurvey_readings : (p.startSurvey e o).readings = p.readings := by
  unfold Play.startSurvey
  split <;> simp

@[simp] theorem Play.startLevel_readings : (p.startLevel e o).readings = p.readings := by
  unfold Play.startLevel
  dsimp only
  split
  · rw [Play.readings_ite, Play.computeGain_readings, ite_self]
    exact p.onLevel_readings o fun _ => rfl
  · exact p.onLevel_readings o fun _ => rfl

@[simp] theorem Play.startLine_readings : (p.startLine e o).readings = p.readings :=
  p.onLine_readings o _

@[simp] theorem Play.start_readings (lock : Bool) : (p.start e lock).readings = p.readings := by simp [Play.start]

@[simp] theorem Play.restartZone_readings : (p.restartZone e o).readings = p.readings := by simp [Play.restartZone]

@[simp] theorem Play.restart_readings : (p.restart e).readings = p.readings := by
  have htargets : ∀ q : Play, Play.readings
      { q with lvc := { q.lvc with outs := mapIdx q.lvc.outs fun _ l => { l with target := none } } } = q.readings :=
    fun q => q.mapLevels_readings fun _ _ => rfl
  simp [Play.restart, htargets]

@[simp] theorem Play.shiftInstants_readings (by_ : Day) : (p.shiftInstants by_).readings = p.readings := rfl

/-! ### The body store (R66 to R72, R115) -/

@[simp] theorem Play.obtainSlot_readings (cls : AnnClass) : (p.obtainSlot e cls).2.readings = p.readings := by
  unfold Play.obtainSlot
  split
  · rfl
  · split <;> simp

@[simp] theorem Play.offerZones_readings (zones : ZoneSet) (entry : Nat → Entry) :
    (p.offerZones e zones entry).readings = p.readings := by
  refine Play.foldl_readings (fun q z => ?_) _ p
  split <;> simp

@[simp] theorem Play.expandRequest_readings (r : Request) : (p.expandRequest e r).2.readings = p.readings := by
  simp [Play.expandRequest]

@[simp] theorem Play.compose_readings (r : Request) : (p.compose e r).readings = p.readings := by
  have hobtained := fun q : Play => q.obtainSlot_readings e r.cls
  unfold Play.compose
  dsimp only
  split
  · simp
  · split
    · next q hq => simpa [hq] using hobtained (p.expandRequest e r).2
    · next slot q hq => simpa [hq] using hobtained (p.expandRequest e r).2

@[simp] theorem Play.checkRemote_readings (f : AnnounceFrame) : (p.checkRemote e f).2.readings = p.readings := by
  simp [Play.checkRemote]

@[simp] theorem Play.allocateRemote_readings (f : AnnounceFrame) : (p.allocateRemote e f).2.readings = p.readings := by
  have hobtained := fun q : Play => q.obtainSlot_readings e (classTaken f.cls)
  unfold Play.allocateRemote
  dsimp only
  split
  · rfl
  · split
    · simp
    · split
      · next q hq => simpa [hq] using hobtained (p.checkRemote e f).2
      · next slot q hq => simpa [hq] using hobtained (p.checkRemote e f).2

@[simp] theorem Play.tellZones_readings (f : AnnounceFrame) (zones : List Nat) (out : Outcome) :
    (p.tellZones f zones out).readings = p.readings := Play.foldl_readings (fun q _ => q.onNet_readings _) _ p

@[simp] theorem Play.tellNotOwned_readings (f : AnnounceFrame) (zones : List Nat) :
    (p.tellNotOwned f zones).readings = p.readings := by simp [Play.tellNotOwned]

@[simp] theorem Play.admitRemote_readings (src : Nat) (f : AnnounceFrame) (owned others : List Nat) :
    (p.admitRemote e src f owned others).readings = p.readings := by
  have hallocated := p.allocateRemote_readings e f
  unfold Play.admitRemote
  dsimp only
  split
  · simp
  · split
    · simp
    · split
      · simp
      · split
        · next q hq => simpa [hq] using hallocated
        · next q hq => simpa [hq] using hallocated
        · next held q hq => simpa [hq] using hallocated

@[simp] theorem Play.announce_readings (env : Envelope) (f : AnnounceFrame) :
    (p.announce e env f).readings = p.readings := by simp [Play.announce]

/-! ### The end of a command (R117, R172) -/

@[simp] theorem Play.finish_readings : (p.finish e).readings = p.readings := by
  have hgate : ∀ q : Play, q.gateCheck.readings = q.readings := fun q => by rw [q.gateCheck_frame.1]; rfl
  simp [Play.finish, hgate]

@[simp] theorem Play.finishBoundary_readings : (p.finishBoundary e).readings = p.readings :=
  Play.readings_of_lvc (p.finishBoundary_lvc e)

end operations

end Sys2Proof.Machine
end

section
/-! PROOFS. What the meter holds of an output, the acts of a whole state: WINDOW_END and POWER_ON_RESET alone change it (R140,
R141, R143). -/
namespace Sys2Proof.Machine

section state
variable (s : State)

@[simp] theorem State.ite_readings (c : Prop) [Decidable c] (s t : State) :
    (if c then s else t).play.readings = if c then s.play.readings else t.play.readings :=
  apply_ite (fun u : State => u.play.readings) _ _ _

@[simp] theorem State.foldl_readings {α : Type} {f : State → α → State}
    (hf : ∀ t a, (f t a).play.readings = t.play.readings) (l : List α) (s : State) :
    (l.foldl f s).play.readings = s.play.readings :=
  List.foldlRecOn (motive := fun t : State => t.play.readings = s.play.readings) l f rfl
    fun t ht a _ => (hf t a).trans ht

/-! ### Guards and the end of a command (R117, R172, R179) -/

theorem State.when_readings (due : Bool) {act : State → State} (hact : (act s).play.readings = s.play.readings) :
    (s.when due act).play.readings = s.play.readings :=
  State.when_keeps (P := fun t => t.play.readings = s.play.readings) rfl fun _ => hact

theorem State.receive_readings (env : Envelope) (ok : Bool) {act : State → State}
    (hact : ∀ t, (act t).play.readings = t.play.readings) : (s.receive env ok act).play.readings = s.play.readings :=
  State.receive_keeps (P := fun t => t.play.readings = s.play.readings) env ok rfl (fun _ _ h => h)
    fun t h => (hact t).trans h

theorem State.receiveRunning_readings (env : Envelope) (ok : Bool) {act : State → State}
    (hact : ∀ t, (act t).play.readings = t.play.readings) :
    (s.receive env ok (State.whenRunning act)).play.readings = s.play.readings :=
  s.receive_readings env ok fun t => State.whenRunning_keeps (P := fun u => u.play.readings = t.play.readings) rfl (hact t)

@[simp] theorem State.finish_readings : s.finish.play.readings = s.play.readings := Play.finish_readings _ _

@[simp] theorem State.finishBoundary_readings : s.finishBoundary.play.readings = s.play.readings :=
  Play.finishBoundary_readings _ _

/-! ### Triggers, call events and timetable frames (R4 to R17, R23, R39 to R54) -/

@[simp] theorem State.issue_readings (snap : CallRec) (platforms : List Nat) (t : Fin 32 × Trigger) :
    (s.issue snap platforms t).play.readings = s.play.readings := by simp [State.issue]

@[simp] theorem State.stateMatch_readings (ev : CallEvent) (r : CallRec) (platform : Nat) (platforms : List Nat) :
    (s.stateMatch ev r platform platforms).play.readings = s.play.readings := by simp [State.stateMatch]

@[simp] theorem State.evaluate_readings (i : Fin 96) : (s.evaluate i).play.readings = s.play.readings := by
  unfold State.evaluate
  dsimp only
  split
  · split <;> simp
  · rfl

@[simp] theorem State.rearm_readings (i : Fin 96) : (s.rearm i).play.readings = s.play.readings := rfl

@[simp] theorem State.countCtb_readings (f : CtbCounts → CtbCounts) : (s.countCtb f).play.readings = s.play.readings := rfl

@[simp] theorem State.callEvent_readings (i : Fin 96) (ev : CallEvent) (changed : Bool) (platform : Nat)
    (platforms : List Nat) : (s.callEvent i ev changed platform platforms).play.readings = s.play.readings := by
  unfold State.callEvent
  split <;> simp

@[simp] theorem State.raise_readings (i : Fin 96) (r : CallRec) (ev : CallEvent) (changed : Bool) :
    (s.raise i r ev changed).play.readings = s.play.readings := by simp [State.raise]

@[simp] theorem State.alterAway_readings (i : Fin 96) (old new : CallRec) :
    (s.alterAway i old new).play.readings = s.play.readings := by simp [State.alterAway]

@[simp] theorem State.move_readings (i : Fin 96) (old new : CallRec) :
    (s.move i old new).play.readings = s.play.readings := by simp [State.move]

@[simp] theorem State.retime_readings (i : Fin 96) (r : CallRec) : (s.retime i r).play.readings = s.play.readings := by
  simp [State.retime]

@[simp] theorem State.install_readings (i : Fin 96) (r : CallRec) : (s.install i r).play.readings = s.play.readings :=
  s.raise_readings i r _ false

@[simp] theorem State.create_readings (r : CallRec) : (s.create r).play.readings = s.play.readings := by
  unfold State.create
  split
  · simp
  · dsimp only
    split <;> simp

@[simp] theorem State.ignoreFrame_readings : s.ignoreFrame.play.readings = s.play.readings := rfl

@[simp] theorem State.malformedCall_readings : s.malformedCall.play.readings = s.play.readings := rfl

@[simp] theorem State.applySet_readings (kind : CallKind) (f : CallSetFrame) (fields : CallFields) :
    (s.applySet kind f fields).play.readings = s.play.readings := by
  unfold State.applySet
  dsimp only
  split
  · simp
  · split <;> simp

theorem State.callSet_readings (f : CallSetFrame) : (s.callSet f).play.readings = s.play.readings := by
  unfold State.callSet
  split
  · rfl
  · split
    · rfl
    · split <;> simp

theorem State.callDelay_readings (f : CallDelayFrame) : (s.callDelay f).play.readings = s.play.readings := by
  unfold State.callDelay
  dsimp only
  split
  · rfl
  · split <;> simp

@[simp] theorem State.applyPlatform_readings (kind : CallKind) (f : CallPlatformFrame) (fields : Option CallFields) :
    (s.applyPlatform kind f fields).play.readings = s.play.readings := by
  unfold State.applyPlatform
  dsimp only
  split
  · split
    · rfl
    · split <;> simp
  · split <;> simp

theorem State.callPlatform_readings (f : CallPlatformFrame) : (s.callPlatform f).play.readings = s.play.readings := by
  unfold State.callPlatform
  split
  · rfl
  · split
    · rfl
    · split
      · simp
      · split <;> simp

theorem State.callCancel_readings (f : CallKeyFields) : (s.callCancel f).play.readings = s.play.readings := by
  unfold State.callCancel
  split
  · rfl
  · split
    · rfl
    · split <;> simp

/-! ### Berth inputs (R18 to R21) -/

theorem State.takeLevel_readings (l : BerthLine) (i : Fin 8) (level : Bool) {act : State → Nat → State}
    (hact : ∀ t n, (act t n).play.readings = t.play.readings) :
    (s.takeLevel l i level act).play.readings = s.play.readings := by
  simp [State.takeLevel, hact]

theorem State.approachPlatform_readings (n : Nat) : (s.approachPlatform n).play.readings = s.play.readings := by
  unfold State.approachPlatform
  split <;> simp

@[simp] theorem State.atPlatform_readings (i : Fin 96) (r : CallRec) :
    (s.atPlatform i r).play.readings = s.play.readings := by simp [State.atPlatform]

theorem State.occupyPlatform_readings (n : Nat) : (s.occupyPlatform n).play.readings = s.play.readings := by
  unfold State.occupyPlatform
  dsimp only
  split
  · split
    · simp
    · split <;> simp
  · split <;> simp

@[simp] theorem State.leavePlatform_readings (n : Nat) (i : Fin 96) :
    (s.leavePlatform n i).play.readings = s.play.readings := by
  unfold State.leavePlatform
  split
  · split
    · split <;> simp
    · rfl
  · rfl

theorem State.vacatePlatform_readings (n : Nat) : (s.vacatePlatform n).play.readings = s.play.readings := by
  simp [State.vacatePlatform]

/-! ### The clock (R24, R25, R28 to R37) -/

@[simp] theorem State.settleQuiet_readings : s.settleQuiet.play.readings = s.play.readings := by
  simp [State.settleQuiet]

@[simp] theorem State.wholeSecond_readings : s.wholeSecond.play.readings = s.play.readings := by
  simp [State.wholeSecond, State.evaluateAll]

@[simp] theorem State.setTime_readings (day : Day) (time : Nat) : (s.setTime day time).play.readings = s.play.readings := by
  simp [State.setTime]

@[simp] theorem State.secondAfter_readings (old : Clock) : (s.secondAfter old).play.readings = s.play.readings := by
  simp [State.secondAfter]

@[simp] theorem State.reportStep_readings (src : Nat) : (s.reportStep src).play.readings = s.play.readings := rfl

@[simp] theorem State.sameDayBeacon_readings (src time : Nat) :
    (s.sameDayBeacon src time).play.readings = s.play.readings := by
  unfold State.sameDayBeacon
  dsimp only
  split
  · simp
  · split <;> simp

@[simp] theorem State.otherDayBeacon_readings (src : Nat) (day : Day) (time : Nat) :
    (s.otherDayBeacon src day time).play.readings = s.play.readings := by
  simp [State.otherDayBeacon, State.rollOver, State.clearTable]

@[simp] theorem State.sourceBeacon_readings (src : Nat) (f : BeaconFrame) :
    (s.sourceBeacon src f).play.readings = s.play.readings := by
  unfold State.sourceBeacon
  dsimp only
  split
  · simp
  · split <;> simp

theorem State.timeBeacon_readings (src : Nat) (f : BeaconFrame) : (s.timeBeacon src f).play.readings = s.play.readings := by
  unfold State.timeBeacon
  dsimp only
  split
  · split <;> simp
  · rfl

theorem State.dayEnd_readings : s.dayEnd.play.readings = s.play.readings := by
  simp [State.dayEnd, State.rollOver]

theorem State.holdover_readings : s.holdover.play.readings = s.play.readings := rfl

/-! ### Start-up (R75, R105, R125, R186 to R191) -/

@[simp] theorem State.enterRunning_readings (image : Image) (n : Nat) :
    (s.enterRunning image n).play.readings = s.play.readings := by simp [State.enterRunning]

@[simp] theorem State.leaveLoading_readings : s.leaveLoading.play.readings = s.play.readings := by
  rcases s.leaveLoading_cases with ⟨image, n, _, _, _, h⟩ | ⟨cause, _, _, _, h⟩ | ⟨_, h⟩ <;> rw [h]
  · simp
  · rfl

theorem State.settleHeader_readings (header : Option LibHeader) :
    (s.settleHeader header).play.readings = s.play.readings := by simp [State.settleHeader]

theorem State.settleConfig_readings (r : ConfigResult) : (s.settleConfig r).play.readings = s.play.readings := by
  simp [State.settleConfig]

@[simp] theorem State.restartBlocks_readings : s.restartBlocks.play.readings = s.play.readings := by
  simp [State.restartBlocks]

/-! ### Maintenance requests (R195, R197, R198) -/

@[simp] theorem Settled.reply_readings (r : Settled) (head : MaintHead) (code : Nat) :
    (r.reply head code).play.readings = r.state.play.readings := rfl

/-- A request whose settling leaves what the meter holds leaves it. -/
theorem State.maint_readings {settle : State → Settled} (hsettle : ∀ t, (settle t).state.play.readings = t.play.readings)
    (head : MaintHead) (code : Nat) : (s.maint head code settle).play.readings = s.play.readings :=
  s.receiveRunning_readings _ _ fun t => by simp [hsettle]

theorem State.query_readings {settle : State → Settled} (hsettle : ∀ t, (settle t).state = t) (head : MaintHead)
    (code : Nat) : (s.maint head code settle).play.readings = s.play.readings :=
  s.maint_readings (fun t => by rw [hsettle]) head code

theorem settleClearFault_readings (args : List Byte) : (settleClearFault args s).state.play.readings = s.play.readings := by
  unfold settleClearFault
  split
  · split
    · rfl
    · split <;> rfl
  · rfl

theorem settleSurveyStart_readings (args : List Byte) :
    (settleSurveyStart args s).state.play.readings = s.play.readings := by
  refine withOutput_keeps (P := fun t => t.play.readings = s.play.readings) args rfl fun o => ?_
  split
  · rfl
  · split <;> rfl

theorem settleSurveyAbort_readings (args : List Byte) :
    (settleSurveyAbort args s).state.play.readings = s.play.readings :=
  withOutput_keeps (P := fun t => t.play.readings = s.play.readings) args rfl fun o =>
    Play.abortSurvey_readings s.env o s.play .maintAbort

theorem settleLimitSet_readings (args : List Byte) : (settleLimitSet args s).state.play.readings = s.play.readings := by
  unfold settleLimitSet
  dsimp only
  split
  · split
    · rfl
    · split <;> rfl
  · rfl

theorem settleLimitLock_readings (args : List Byte) : (settleLimitLock args s).state.play.readings = s.play.readings :=
  withNone_keeps (P := fun t => t.play.readings = s.play.readings) args rfl rfl

@[simp] theorem settleRestart_readings (args : List Byte) : (settleRestart args s).state.play.readings = s.play.readings := by
  refine withNone_keeps (P := fun t => t.play.readings = s.play.readings) args rfl ?_
  split <;> rfl

theorem State.restartRequest_readings (head : MaintHead) (args : List Byte) :
    (s.restartRequest head args).play.readings = s.play.readings :=
  s.receiveRunning_readings _ _ fun t => by simp

/-! ### Frames (R179, R180) -/

theorem State.discard_readings (raw : List Byte) : (s.discard raw).play.readings = s.play.readings := by
  unfold State.discard
  split <;> rfl

theorem State.gapReached_readings (idle : Nat) : (s.gapReached idle).play.readings = s.play.readings :=
  s.play.onNet_readings _

theorem State.beacon_readings (env : Envelope) (ok : Bool) (f : BeaconFrame) :
    (s.receive env ok fun t => (t.timeBeacon env.src f).whenRunning fun t =>
      t.onNet fun e n => n.ownerBeacon e env.src f).play.readings = s.play.readings :=
  s.receive_readings env ok fun t => State.whenRunning_keeps (P := fun u => u.play.readings = t.play.readings)
    (t.timeBeacon_readings env.src f) (t.timeBeacon_readings env.src f)

/-- An act on the blocks of `Play` that leaves what the meter holds, at the end of a command. -/
theorem State.onPlay_finish_readings {f : Env → Play → Play} (hf : ∀ e p, (f e p).readings = p.readings) :
    (s.onPlay f).finish.play.readings = s.play.readings := (State.finish_readings _).trans (hf _ _)

theorem State.onPlay_finishBoundary_readings {f : Env → Play → Play} (hf : ∀ e p, (f e p).readings = p.readings) :
    (s.onPlay f).finishBoundary.play.readings = s.play.readings := (State.finishBoundary_readings _).trans (hf _ _)

theorem State.when_onPlay_finish_readings (due : Bool) {f : Env → Play → Play}
    (hf : ∀ e p, (f e p).readings = p.readings) :
    (s.when due fun t => t.onPlay f).finish.play.readings = s.play.readings :=
  (State.finish_readings _).trans (s.when_readings due (hf _ _))

/-! ### The commands -/

/-- The commands that change what the meter holds (R143). -/
def Instr.closesWindow : Instr → Bool
  | .powerOnReset => true
  | .windowEnd _ => true
  | _ => false

/-- Every other command leaves what the meter holds (R140, R141, R143). -/
theorem exec_readings (i : Instr) (hi : Instr.closesWindow i = false) :
    ∃ t, exec i s = .next t ∧ t.play.readings = s.play.readings := by
  cases i with
  | powerOnReset | windowEnd => cases hi
  | headerReadComplete r => exact ⟨_, rfl, (State.finish_readings _).trans (s.settleHeader_readings _)⟩
  | headerReadTimeout =>
    exact ⟨_, rfl, (State.finish_readings _).trans (s.when_readings _ (s.settleHeader_readings _))⟩
  | configReadComplete r => exact ⟨_, rfl, (State.finish_readings _).trans (s.settleConfig_readings _)⟩
  | configLoadTimeout =>
    exact ⟨_, rfl, (State.finish_readings _).trans (s.when_readings _ (s.settleConfig_readings _))⟩
  | frameDiscard raw => exact ⟨_, rfl, (State.finish_readings _).trans (s.discard_readings raw)⟩
  | beacon env f => exact ⟨_, rfl, (State.finish_readings _).trans (s.beacon_readings env _ f)⟩
  | callSet env f =>
    exact ⟨_, rfl, (State.finish_readings _).trans (s.receiveRunning_readings _ _ fun t => t.callSet_readings f)⟩
  | callDelay env f =>
    exact ⟨_, rfl, (State.finish_readings _).trans (s.receiveRunning_readings _ _ fun t => t.callDelay_readings f)⟩
  | callPlatform env f =>
    exact ⟨_, rfl, (State.finish_readings _).trans (s.receiveRunning_readings _ _ fun t => t.callPlatform_readings f)⟩
  | callCancel env f =>
    exact ⟨_, rfl, (State.finish_readings _).trans (s.receiveRunning_readings _ _ fun t => t.callCancel_readings f)⟩
  | announce env f => exact ⟨_, rfl, (State.finish_readings _).trans
      (s.receiveRunning_readings _ _ fun t => t.play.announce_readings t.env env f)⟩
  | withdraw env f => exact ⟨_, rfl, (State.finish_readings _).trans
      (s.receiveRunning_readings _ _ fun t => t.play.withdraw_readings t.env env f)⟩
  | zoneReport | withdrawDone =>
    exact ⟨_, rfl, (State.finish_readings _).trans (s.receiveRunning_readings _ _ fun _ => rfl)⟩
  | faultNoticeReceived | maintReplyReceived =>
    exact ⟨_, rfl, (State.finish_readings _).trans (s.receive_readings _ _ fun _ => rfl)⟩
  | queryCall _ args => exact ⟨_, rfl, (State.finish_readings _).trans (s.query_readings (settleQueryCall_state args) _ _)⟩
  | queryZone _ args => exact ⟨_, rfl, (State.finish_readings _).trans (s.query_readings (settleQueryZone_state args) _ _)⟩
  | queryFault _ args =>
    exact ⟨_, rfl, (State.finish_readings _).trans (s.query_readings (settleQueryFault_state args) _ _)⟩
  | querySurvey _ args =>
    exact ⟨_, rfl, (State.finish_readings _).trans (s.query_readings (settleQuerySurvey_state args) _ _)⟩
  | queryCounters _ args =>
    exact ⟨_, rfl, (State.finish_readings _).trans (s.query_readings (settleQueryCounters_state args) _ _)⟩
  | maintRequestUnknown => exact ⟨_, rfl, (State.finish_readings _).trans (s.query_readings (fun _ => rfl) _ _)⟩
  | clearFault _ args => exact ⟨_, rfl, (State.finish_readings _).trans
      (s.maint_readings (fun t => settleClearFault_readings t args) _ _)⟩
  | surveyStart _ args => exact ⟨_, rfl, (State.finish_readings _).trans
      (s.maint_readings (fun t => settleSurveyStart_readings t args) _ _)⟩
  | surveyAbort _ args => exact ⟨_, rfl, (State.finish_readings _).trans
      (s.maint_readings (fun t => settleSurveyAbort_readings t args) _ _)⟩
  | limitSet _ args => exact ⟨_, rfl, (State.finish_readings _).trans
      (s.maint_readings (fun t => settleLimitSet_readings t args) _ _)⟩
  | limitLock _ args => exact ⟨_, rfl, (State.finish_readings _).trans
      (s.maint_readings (fun t => settleLimitLock_readings t args) _ _)⟩
  | restart head args => exact ⟨_, rfl, (State.finish_readings _).trans (s.restartRequest_readings head args)⟩
  | transmitGapReached idle => exact ⟨_, rfl, s.gapReached_readings idle⟩
  | linkFrameBegin | frameSent | ownerEntryExpire | berthInputChange | evacInputChange =>
    exact ⟨_, rfl, Play.readings_of_lvc rfl⟩
  | beaconDue | heardEntryExpire | holdoverTimeout | reportDeadline | originationExpire | retireSecond =>
    exact ⟨_, rfl, s.when_readings _ (Play.readings_of_lvc rfl)⟩
  | stationDayEnd => exact ⟨_, rfl, (State.finish_readings _).trans (s.when_readings _ s.dayEnd_readings)⟩
  | wholeSecond => exact ⟨_, rfl, (State.finish_readings _).trans (s.when_readings _ s.wholeSecond_readings)⟩
  | quietHoursChange => exact ⟨_, rfl, s.settleQuiet_readings⟩
  | approachAssert i => exact ⟨_, rfl, (State.finish_readings _).trans
      (s.takeLevel_readings _ _ _ State.approachPlatform_readings)⟩
  | approachClear i => exact ⟨_, rfl, s.takeLevel_readings _ _ _ fun _ _ => rfl⟩
  | occupancyAssert i => exact ⟨_, rfl, (State.finish_readings _).trans
      (s.takeLevel_readings _ _ _ State.occupyPlatform_readings)⟩
  | occupancyClear i => exact ⟨_, rfl, (State.finish_readings _).trans
      (s.takeLevel_readings _ _ _ State.vacatePlatform_readings)⟩
  | syncStartReached id => exact ⟨_, rfl, s.onPlay_finish_readings fun e p => p.syncStart_readings e id⟩
  | blockReadComplete r => exact ⟨_, rfl, s.onPlay_finish_readings fun e p => p.blockRead_readings e r⟩
  | directoryReadComplete r => exact ⟨_, rfl, s.onPlay_finish_readings fun e p => p.directoryRead_readings e r⟩
  | channelStart c => exact ⟨_, rfl, s.onPlay_finishBoundary_readings fun e p => p.channelStart_readings e c⟩
  | channelBlockAdvance c => exact ⟨_, rfl, s.onPlay_finishBoundary_readings fun e p => p.blockAdvance_readings e c⟩
  | passEnd c => exact ⟨_, rfl, s.onPlay_finishBoundary_readings fun e p => p.passEnd_readings e c⟩
  | stopPointReached c => exact ⟨_, rfl, s.onPlay_finishBoundary_readings fun e p => p.stopPoint_readings e c⟩
  | expiryReached | syncWindowClose => exact ⟨_, rfl, s.onPlay_finish_readings fun e p => p.dropAllWaiting_readings e _ _⟩
  | supervisionWord o w => exact ⟨_, rfl, s.onPlay_finish_readings fun e p => p.supervisionWord_readings e o w⟩
  | supervisionCycleEnd => exact ⟨_, rfl, s.when_onPlay_finish_readings _ fun e p => p.cycleEnd_readings e⟩
  | autoSurveyRetry o => exact ⟨_, rfl, s.when_onPlay_finish_readings _ fun e p => p.retryAuto_readings e o⟩
  | probeChannelTimeout o => exact ⟨_, rfl, s.when_onPlay_finish_readings _ fun e p => p.abortSurvey_readings e o _⟩
  | evacAssert => exact ⟨_, rfl, s.when_onPlay_finish_readings _ fun e p => p.assertEvac_readings e⟩
  | evacRelease => exact ⟨_, rfl, s.when_onPlay_finish_readings _ fun e p => p.releaseEvac_readings e⟩

end state

end Sys2Proof.Machine
end

section
/-! PROOFS. What does not read the level values: the channel operations and the starts, and the surveys but for the discard
mark of their own output (R82, R130 to R136, R163 to R167). -/
namespace Sys2Proof.Machine

/-- Change the level values of every output. -/
def Play.mapLevels (g : Out → Level → Level) (p : Play) : Play :=
  { p with lvc := { p.lvc with outs := mapIdx p.lvc.outs g } }

section blind
variable (g : Out → Level → Level) (e : Env) (o : Out) (ch : Chan) (p : Play)

/-! ### What is read of the blocks -/

@[simp] theorem Play.mapLevels_levelAt : (p.mapLevels g).levelAt o = g o (p.levelAt o) := mapIdx_get _ _ _
@[simp] theorem Play.mapLevels_zone : (p.mapLevels g).zone o = p.zone o := rfl
@[simp] theorem Play.mapLevels_surveyAt : (p.mapLevels g).surveyAt o = p.surveyAt o := rfl
@[simp] theorem Play.mapLevels_chan : (p.mapLevels g).chan ch = p.chan ch := rfl
@[simp] theorem Play.mapLevels_cfu : (p.mapLevels g).cfu = p.cfu := rfl
@[simp] theorem Play.mapLevels_wantBlock (c : Channel) : (p.mapLevels g).wantBlock c = p.wantBlock c := rfl
@[simp] theorem Play.mapLevels_wantEntry (c : Channel) : (p.mapLevels g).wantEntry c = p.wantEntry c := rfl
@[simp] theorem Play.mapLevels_findChan (test : Channel → Bool) : (p.mapLevels g).findChan test = p.findChan test := rfl
@[simp] theorem Play.mapLevels_victim (cls : AnnClass) : (p.mapLevels g).victim cls = p.victim cls := rfl
@[simp] theorem Play.mapLevels_holds (en : Entry) : (p.mapLevels g).holds en = p.holds en := rfl
@[simp] theorem Play.mapLevels_hasRequest (s : Served) : (p.mapLevels g).hasRequest o s = p.hasRequest o s := rfl

/-! ### Changes of one block -/

theorem Play.mapLevels_onChan (f : Channel → Channel) : (p.mapLevels g).onChan ch f = (p.onChan ch f).mapLevels g := rfl
theorem Play.mapLevels_onCfu (f : Clips → Clips) : (p.mapLevels g).onCfu f = (p.onCfu f).mapLevels g := rfl
theorem Play.mapLevels_onZone (f : Zone → Zone) : (p.mapLevels g).onZone o f = (p.onZone o f).mapLevels g := rfl
theorem Play.mapLevels_onEntry (id : AnnId) (f : Entry → Entry) :
    (p.mapLevels g).onEntry o id f = (p.onEntry o id f).mapLevels g := rfl
theorem Play.mapLevels_onSurvey (f : Survey → Survey) : (p.mapLevels g).onSurvey o f = (p.onSurvey o f).mapLevels g := rfl
theorem Play.mapLevels_onWork (f : SurveyWork → SurveyWork) : (p.mapLevels g).onWork o f = (p.onWork o f).mapLevels g := rfl
theorem Play.mapLevels_onSurveyCounts (f : SurveyCounts → SurveyCounts) :
    (p.mapLevels g).onSurveyCounts f = (p.onSurveyCounts f).mapLevels g := rfl

theorem Play.ite_mapLevels {c : Prop} [Decidable c] (p q : Play) :
    (if c then p.mapLevels g else q.mapLevels g) = (if c then p else q).mapLevels g :=
  (apply_ite (Play.mapLevels g) _ _ _).symm

/-! ### Channels (R130 to R136) -/

theorem Play.mapLevels_fillNext : (p.mapLevels g).fillNext ch = (p.fillNext ch).mapLevels g := by
  unfold Play.fillNext
  rw [Play.mapLevels_wantBlock, Play.mapLevels_chan]
  split <;> rfl

theorem Play.mapLevels_askRead : (p.mapLevels g).askRead ch = (p.askRead ch).mapLevels g := by
  unfold Play.askRead
  dsimp only
  rw [Play.mapLevels_chan, Play.mapLevels_wantBlock, Play.mapLevels_wantEntry]
  split
  · rfl
  · split
    · rfl
    · split <;> rfl

theorem Play.mapLevels_grantPort : (p.mapLevels g).grantPort = p.grantPort.mapLevels g := by
  unfold Play.grantPort
  simp only [Play.mapLevels_cfu]
  split
  · rfl
  · split <;> rfl

theorem Play.mapLevels_pump : (p.mapLevels g).pump ch = (p.pump ch).mapLevels g := by
  simp only [Play.pump, Play.mapLevels_fillNext, Play.mapLevels_askRead, Play.mapLevels_grantPort]

theorem Play.mapLevels_assign (r : ChanRequest) : (p.mapLevels g).assign ch r = (p.assign ch r).mapLevels g := by
  simp only [Play.assign, Play.mapLevels_cfu, Play.mapLevels_findChan, Play.mapLevels_onCfu, Play.mapLevels_onChan,
    Play.mapLevels_pump]

theorem Play.mapLevels_newRequest (r : ChanRequest) : (p.mapLevels g).newRequest r = (p.newRequest r).mapLevels g := by
  unfold Play.newRequest
  simp only [Play.mapLevels_findChan]
  split
  · rfl
  · split
    · exact p.mapLevels_assign g _ r
    · rfl

theorem Play.mapLevels_tellTheft (taker : AnnClass) :
    (p.mapLevels g).tellTheft ch taker = (p.tellTheft ch taker).mapLevels g := by
  unfold Play.tellTheft
  simp only [Play.mapLevels_chan]
  split
  · next id hserved =>
    clear hserved
    generalize outsOf (p.chan ch).members = l
    induction l generalizing p with
    | nil => rfl
    | cons k rest ih =>
      rw [List.foldl_cons, List.foldl_cons, Play.mapLevels_onZone]
      exact ih _
  · rfl

theorem Play.mapLevels_freeChan : (p.mapLevels g).freeChan ch = (p.freeChan ch).mapLevels g := rfl

theorem Play.mapLevels_allocate (n : Nat) (l : List ChanRequest) :
    Play.allocate n l (p.mapLevels g) = (Play.allocate n l p).mapLevels g := by
  induction n generalizing l p with
  | zero => rfl
  | succ n ih =>
    unfold Play.allocate
    simp only [Play.mapLevels_findChan, Play.mapLevels_cfu, Play.mapLevels_chan, Play.mapLevels_onCfu,
      Play.mapLevels_onChan, Play.mapLevels_assign, Play.mapLevels_newRequest, Play.mapLevels_victim,
      Play.mapLevels_tellTheft, Play.mapLevels_freeChan, ih]
    split
    · rfl
    · split
      · rfl
      · split
        · rfl
        · split
          · rfl
          · split <;> rfl

theorem Play.mapLevels_requestChan (cls : AnnClass) (s : Served) :
    (p.mapLevels g).requestChan o cls s = (p.requestChan o cls s).mapLevels g := by
  simp only [Play.requestChan, Play.mapLevels_cfu, Play.mapLevels_onCfu, Play.mapLevels_allocate]

theorem Play.mapLevels_startHead : (p.mapLevels g).startHead e o = (p.startHead e o).mapLevels g := by
  have hask : ∀ (en : Entry) (q : Play), (q.mapLevels g).askChannel e o en = (q.askChannel e o en).mapLevels g := by
    intro en q
    unfold Play.askChannel
    simp only [Play.mapLevels_hasRequest, Play.mapLevels_requestChan]
    split <;> rfl
  unfold Play.startHead
  simp only [Play.mapLevels_zone, Play.mapLevels_holds, Play.mapLevels_onEntry, hask]
  split
  · rfl
  · split <;> rfl

/-! ### Surveys (R163 to R167) -/

theorem Play.mapLevels_enterProbe (i : ProbeIndex) : (p.mapLevels g).enterProbe e o i = (p.enterProbe e o i).mapLevels g := by
  simp only [Play.enterProbe, Play.mapLevels_onSurvey, Play.mapLevels_onWork, Play.mapLevels_surveyAt,
    Play.mapLevels_requestChan]

section own
variable {g : Out → Level → Level} {o : Out} (hg : ∀ l, g o l = l)
include hg

theorem Play.mapLevels_onLevel (f : Level → Level) : (p.mapLevels g).onLevel o f = (p.onLevel o f).mapLevels g := by
  have houts : upd (mapIdx p.lvc.outs g) o f = mapIdx (upd p.lvc.outs o f) g := by
    apply Vector.ext
    intro i hi
    have h : (upd (mapIdx p.lvc.outs g) o f).get ⟨i, hi⟩ = (mapIdx (upd p.lvc.outs o f) g).get ⟨i, hi⟩ := by
      rw [upd_get, mapIdx_get, mapIdx_get, upd_get]
      split
      · next h => rw [h, hg, hg]
      · rfl
    exact h
  simp only [Play.onLevel, Play.mapLevels, houts]

theorem Play.mapLevels_releaseZone : (p.mapLevels g).releaseZone e o = (p.releaseZone e o).mapLevels g := by
  simp only [Play.releaseZone, Play.mapLevels_onSurvey, Play.mapLevels_onZone, Play.mapLevels_onLevel _ hg,
    Play.mapLevels_startHead]

theorem Play.mapLevels_completeSurvey : (p.mapLevels g).completeSurvey e o = (p.completeSurvey e o).mapLevels g := by
  unfold Play.completeSurvey
  simp only [Play.mapLevels_surveyAt, Play.mapLevels_onSurvey, Play.mapLevels_onSurveyCounts]
  split
  · rfl
  · split <;> exact Play.mapLevels_releaseZone e _ hg

theorem Play.mapLevels_seekCandidate : (p.mapLevels g).seekCandidate e o = (p.seekCandidate e o).mapLevels g := by
  unfold Play.seekCandidate
  simp only [Play.mapLevels_surveyAt, Play.mapLevels_onWork, Play.mapLevels_enterProbe,
    Play.mapLevels_completeSurvey e _ hg]
  split
  · rfl
  · split <;> rfl

theorem Play.mapLevels_scoreProbe (lt : Nat) : (p.mapLevels g).scoreProbe e o lt = (p.scoreProbe e o lt).mapLevels g := by
  unfold Play.scoreProbe
  simp only [Play.mapLevels_surveyAt, Play.mapLevels_onWork, Play.mapLevels_seekCandidate e _ hg,
    Play.mapLevels_completeSurvey e _ hg]
  split
  · rfl
  · exact Play.ite_mapLevels g _ _

/-- A window handed to a survey does not read the level values, and leaves those of every other output. -/
theorem Play.mapLevels_surveyWindow (level : Nat) :
    (p.mapLevels g).surveyWindow e o level = (p.surveyWindow e o level).mapLevels g := by
  unfold Play.surveyWindow
  simp only [Play.mapLevels_surveyAt, Play.mapLevels_onWork, Play.mapLevels_enterProbe, Play.mapLevels_scoreProbe e _ hg,
]
  split
  · rfl
  · split
    · rfl
    · split
      · split <;> rfl
      · rfl
    · split <;> rfl
    · split
      · rfl
      · split
        · rfl
        · split <;> rfl

end own
end blind

end Sys2Proof.Machine
end

section
/-! PROOFS. Obligation O39: what the sense inputs take each millisecond, the end of a meter window, and which windows are
eligible (R141 to R144). -/
namespace Sys2Proof.Machine

/-! ### A millisecond (R141, R143) -/

theorem senseAt_mem (input index : Nat) : -32768 ≤ senseAt input index ∧ senseAt input index ≤ 32767 := by
  unfold senseAt clampInt
  omega

/-- The window now running loses its eligibility, or keeps what it had (R143). -/
theorem Play.spoil_levelAt (p : Play) (o : Out) : p.spoil.levelAt o = { p.levelAt o with
    spoiled := (p.levelAt o).spoiled || p.evl.active ||
      !((p.zone o).state = .idle || (p.zone o).state = .starting) } := by
  simp only [Play.levelAt, Play.spoil, mapIdx_get]

/-- What a millisecond leaves of the level values of an output. -/
theorem State.tick_levelAt (s : State) (o : Out) : s.tick.play.levelAt o = { s.play.spoil.levelAt o with
    accSum := (s.play.levelAt o).accSum +
      ((List.range 16).map fun k => (senseAt o.val (s.play.lvc.sampled + k)).natAbs ^ 2).sum
    accCount := (s.play.levelAt o).accCount + 16 } := by
  have h := s.play.spoil.meter_levelAt o
  rw [List.map_map] at h
  exact h.trans (by rw [s.play.spoil_levelAt o]; rfl)

theorem State.tick_spoiled_iff (s : State) (o : Out) : (s.tick.play.levelAt o).spoiled = true ↔
    (s.play.levelAt o).spoiled = true ∨ s.play.evl.active = true ∨
      ((s.play.zone o).state ≠ .idle ∧ (s.play.zone o).state ≠ .starting) := by
  rw [s.tick_levelAt o, s.play.spoil_levelAt o]
  simp [or_assoc]

/-! ### One output at a window end (R141 to R144) -/

theorem Level.window_eq (owned : Bool) (sum : Nat) (l : Level) : l.window owned sum = { l with
    last := levelCode (l.accSum + sum), accSum := 0, accCount := 0, spoiled := false
    n16 := if owned = true ∧ l.spoiled = false ∧ l.discard = false then noiseAfter l.n16 (levelCode (l.accSum + sum))
      else l.n16
    discard := if owned = true ∧ l.spoiled = false then false else l.discard } := by
  unfold Level.window Level.code
  by_cases heligible : owned = true ∧ l.spoiled = false
  · obtain ⟨howned, hspoiled⟩ := heligible
    cases hdiscard : l.discard <;> simp [howned, hspoiled]
  · have hnot : (owned && !l.spoiled) = false := by simpa using heligible
    have hnever : ¬ (owned = true ∧ l.spoiled = false ∧ l.discard = false) :=
      fun h => heligible ⟨h.1, h.2.1⟩
    simp [hnot, hnever, heligible]

/-- The level values of the outputs of a list at a window end. -/
def closing (owned : Out → Bool) (sums : Vector Nat 8) (l : List Out) (o : Out) (x : Level) : Level :=
  if o ∈ l then x.window (owned o) (sums.get o) else x

section ends
variable {owned : Out → Bool} {sums : Vector Nat 8} {e : Env}

theorem closing_of_not_mem {l : List Out} {o : Out} (h : o ∉ l) (x : Level) : closing owned sums l o x = x := if_neg h

theorem Play.mapLevels_closing_nil (p : Play) : p.mapLevels (closing owned sums []) = p := by
  have houts : mapIdx p.lvc.outs (closing owned sums []) = p.lvc.outs := by
    apply Vector.ext
    intro i hi
    exact (mapIdx_get p.lvc.outs _ ⟨i, hi⟩).trans (closing_of_not_mem List.not_mem_nil _)
  unfold Play.mapLevels
  rw [houts]

/-- The first output of a list, and then the others. -/
theorem Play.mapLevels_closing_cons (p : Play) {o : Out} {l : List Out} (ho : o ∉ l) :
    (p.onLevel o fun x => x.window (owned o) (sums.get o)).mapLevels (closing owned sums l) =
      p.mapLevels (closing owned sums (o :: l)) := by
  have houts : mapIdx (upd p.lvc.outs o fun x => x.window (owned o) (sums.get o)) (closing owned sums l) =
      mapIdx p.lvc.outs (closing owned sums (o :: l)) := by
    apply Vector.ext
    intro i hi
    have h : (mapIdx (upd p.lvc.outs o fun x => x.window (owned o) (sums.get o)) (closing owned sums l)).get ⟨i, hi⟩ =
        (mapIdx p.lvc.outs (closing owned sums (o :: l))).get ⟨i, hi⟩ := by
      rw [mapIdx_get, mapIdx_get, upd_get]
      by_cases hk : (⟨i, hi⟩ : Out) = o
      · rw [hk, if_pos rfl, closing_of_not_mem ho, closing, if_pos List.mem_cons_self]
      · rw [if_neg hk, closing, closing]
        simp only [List.mem_cons, hk, false_or]
    exact h
  unfold Play.mapLevels Play.onLevel
  rw [houts]

/-- What a window handed to a survey leaves of the level values of an output. -/
theorem Play.surveyWindow_reading (e : Env) (o k : Out) (level : Nat) (p : Play) :
    ((p.surveyWindow e o level).levelAt k).reading = (p.levelAt k).reading := by
  rw [← Play.readings_get, ← Play.readings_get, Play.surveyWindow_readings]

/-- The outputs of a list at a window end: the level values of all of them, and then their surveys one after the other.
No survey reads the level values or changes those of another output. -/
theorem Play.foldl_windowAt {code : Out → Nat} {l : List Out} (hl : l.Nodup) (p : Play)
    (howned : ∀ o, (p.zone o).id.isSome = owned o) (hcode : ∀ o ∈ l, (p.levelAt o).code (sums.get o) = code o) :
    l.foldl (Play.windowAt e sums) p =
      l.foldl (fun q o => q.surveyWindow e o (code o)) (p.mapLevels (closing owned sums l)) := by
  induction l generalizing p with
  | nil => exact p.mapLevels_closing_nil.symm
  | cons o rest ih =>
    obtain ⟨ho, hrest⟩ := List.nodup_cons.mp hl
    have hfirst : p.windowAt e sums o =
        (p.onLevel o fun x => x.window (owned o) (sums.get o)).surveyWindow e o (code o) := by
      rw [Play.windowAt, howned, hcode o List.mem_cons_self]
    rw [List.foldl_cons, List.foldl_cons, hfirst, ih hrest]
    · rw [← Play.mapLevels_surveyWindow e _ (closing_of_not_mem ho), p.mapLevels_closing_cons ho]
    · intro k
      rw [(Play.Stands.surveyWindow e o (code o) _).zoneId k]
      exact howned k
    · intro k hk
      have hne : k ≠ o := fun h => ho (h ▸ hk)
      have hread := Play.surveyWindow_reading e o k (code o) (p.onLevel o fun x => x.window (owned o) (sums.get o))
      rw [Play.onLevel_levelAt, if_neg hne] at hread
      have hsum := congrArg Prod.fst hread
      rw [← hcode k (List.mem_cons_of_mem _ hk), Level.code, Level.code]
      exact congrArg (fun n => levelCode (n + sums.get k)) hsum

end ends

/-! ### A window end (R141, R143) -/

/-- The level values of all outputs at a window end. -/
def Levels.afterWindow (now : Nat) (owned : Out → Bool) (sums : Vector Nat 8) (v : Levels) : Levels :=
  { v with outs := mapIdx v.outs (closing owned sums allOuts), windowAt := now }

theorem Levels.afterWindow_get (now : Nat) (owned : Out → Bool) (sums : Vector Nat 8) (v : Levels) (o : Out) :
    (v.afterWindow now owned sums).outs.get o = (v.outs.get o).window (owned o) (sums.get o) :=
  (mapIdx_get _ _ o).trans (if_pos (List.mem_finRange o))

/-- The level values that a window end leaves, before the surveys take their windows. -/
def State.windowLevels (s : State) (sums : Vector Nat 8) : Levels :=
  s.play.lvc.afterWindow s.elapsed (fun o => (s.play.zone o).id.isSome) sums

theorem State.windowLevels_get (s : State) (sums : Vector Nat 8) (o : Out) :
    (s.windowLevels sums).outs.get o =
      { s.play.levelAt o with
        last := levelCode ((s.play.levelAt o).accSum + sums.get o), accSum := 0, accCount := 0, spoiled := false
        n16 := if (s.play.zone o).id.isSome ∧ (s.play.levelAt o).spoiled = false ∧ (s.play.levelAt o).discard = false
          then noiseAfter (s.play.levelAt o).n16 (levelCode ((s.play.levelAt o).accSum + sums.get o))
          else (s.play.levelAt o).n16
        discard := if (s.play.zone o).id.isSome ∧ (s.play.levelAt o).spoiled = false
          then false else (s.play.levelAt o).discard } :=
  (Levels.afterWindow_get _ _ sums _ o).trans (Level.window_eq _ _ _)

/-- The blocks at a window end, before the surveys take their windows. -/
def State.closedWindow (s : State) (sums : Vector Nat 8) : Play :=
  { s.play with lvc := s.windowLevels sums, cfu := { s.play.cfu with boundaryAt := s.elapsed } }

/-- The surveys of all outputs take their windows. -/
def State.afterWindow (s : State) (sums : Vector Nat 8) : Play :=
  allOuts.foldl (fun p o => p.surveyWindow s.env o ((s.windowLevels sums).outs.get o).last) (s.closedWindow sums)

/-- A window end is that of every output's level values, and then of every output's survey (R141). -/
theorem State.windowEnd_eq (s : State) (sums : Vector Nat 8) : s.play.windowEnd s.env sums = s.afterWindow sums := by
  have hcode : ∀ o ∈ allOuts, (s.play.levelAt o).code (sums.get o) = ((s.windowLevels sums).outs.get o).last :=
    fun o _ => by rw [s.windowLevels_get, Level.code]
  have hfold := Play.foldl_windowAt (e := s.env) (owned := fun o => (s.play.zone o).id.isSome) (l := allOuts)
    (List.nodup_finRange 8)
    { s.play.takeBoundary s.env with lvc := { s.play.lvc with windowAt := s.elapsed } } (fun _ => rfl) hcode
  rw [State.afterWindow]
  exact hfold

/-- A window end, where one is due. -/
theorem exec_windowEnd {s : State} (sums : Vector Nat 8) (hmultiple : s.elapsed % 128 = 0) (hpast : 0 < s.elapsed)
    (hnew : s.play.lvc.windowAt ≠ s.elapsed) :
    exec (.windowEnd sums) s = .next (State.finishBoundary { s with play := s.afterWindow sums }) := by
  have hdue : s.play.windowDue s.env = true := by
    have henv : s.env.elapsed = s.elapsed := rfl
    simp [Play.windowDue, henv, hmultiple, hpast, hnew]
  have hexec : exec (.windowEnd sums) s = .next (s.when (s.play.windowDue s.env) fun s =>
    s.onPlay fun e p => p.windowEnd e sums).finishBoundary := rfl
  rw [hexec, hdue, State.when, if_pos rfl, State.onPlay, s.windowEnd_eq]

/-- A zone without a survey takes no window. -/
theorem Play.surveyWindow_of_no_survey {p : Play} {o : Out} (h : (p.surveyAt o).work = none) (e : Env) (level : Nat) :
    p.surveyWindow e o level = p := by
  simp only [Play.surveyWindow, h]

/-- With no survey running the outputs' windows are handed to none. -/
theorem State.afterWindow_of_no_survey {s : State} (sums : Vector Nat 8) (h : ∀ o, (s.play.surveyAt o).work = none) :
    s.afterWindow sums = s.closedWindow sums := by
  have hnone : ∀ o, ((s.closedWindow sums).surveyAt o).work = none := h
  unfold State.afterWindow
  exact List.foldlRecOn (motive := fun q : Play => q = s.closedWindow sums) _ _ rfl fun q hq o _ => by
    rw [hq, Play.surveyWindow_of_no_survey (hnone o)]

/-- Settles O39: the millisecond by what it takes and marks, the window end by its level values and its surveys, and the
marks through every other command. -/
theorem windowsMeasure : Obligations.WindowsMeasure := by
  unfold Obligations.WindowsMeasure
  refine ⟨⟨fun s o => ?_, fun s sums hquiet hmultiple hpast hnew hnone => ?_⟩, State.tick_spoiled_iff,
    fun c s t hexec hreset hwindow o => ?_, fun s sums hmultiple hpast hnew => ?_⟩
  · rw [s.tick_levelAt o, s.play.spoil_levelAt o]
    exact ⟨rfl, rfl, rfl, senseAt_mem o.val⟩
  · refine ⟨s.windowLevels sums, ?_, rfl, rfl, rfl, s.windowLevels_get sums⟩
    rw [exec_windowEnd sums hmultiple hpast hnew, State.afterWindow_of_no_survey sums hnone]
    exact congrArg Host.Outcome.next (State.finishBoundary_of_quiet hquiet)
  · have hcloses : Instr.closesWindow c = false := by
      cases c with
      | powerOnReset => exact absurd rfl hreset
      | windowEnd sums => exact absurd rfl (hwindow sums)
      | _ => rfl
    obtain ⟨u, hu, hreadings⟩ := exec_readings s c hcloses
    cases hu.symm.trans hexec
    have hread : (t.play.levelAt o).reading = (s.play.levelAt o).reading := by
      rw [← Play.readings_get, ← Play.readings_get, hreadings]
    exact congrArg (fun r => r.2.2.2) hread
  · exact ⟨s.windowLevels sums, s.afterWindow sums, exec_windowEnd sums hmultiple hpast hnew, rfl, rfl, rfl, rfl,
      s.windowLevels_get sums⟩

end Sys2Proof.Machine
end
